-- ==== Sys2Proof/Word.lean ====
section
/-!
DEFINITION. The card's units of storage (R7, R10, R11, R30) and the shape of a sparse table.
-/
namespace Sys2Proof

/-- A byte of host memory or of device DRAM. -/
abbrev Byte := BitVec 8
/-- The card's storage unit (02, "Nonets in device memory"). -/
abbrev Nonet := BitVec 9
/-- Four nonets (R11). -/
abbrev Word := BitVec 36
/-- Eight nonets (R10). -/
abbrev Lane := BitVec 72
/-- A host-visible register (R18). -/
abbrev Reg := BitVec 32

/-- A sparse table: keys strictly rising, an absent key holding the table's default entry.
Its operations stand in `Sys2Proof.Machine.Table`. -/
abbrev Tbl (α : Type) := List (Nat × α)

end Sys2Proof
end

