-- ==== Sys2Proof/Syntax.lean ====
section
/-!
DEFINITION. The commands of the card: one constructor for each row of spec/opcode_table.json.
The rows give no fields, so a command's operands are what its rule needs to be told: who asks, which
part it names, and what the outside supplies (a value written, data a read returned, a measurement).
-/
namespace Sys2Proof

/-- Who accesses a register: a PCIe function (0 is PF0, t is VF t, R143), a bell core, or an SMBus
port (0 is E, 1 is D, R86, R580). -/
inductive Requester where
  | fn (t : Fin 64)
  | core (c : Fin 4)
  | smbus (port : Fin 2)
deriving DecidableEq, Repr

/-- The PCIe options whose support Table 5-1 states with Yes, No or Never, as configuration space reports them
(R133). -/
inductive PcieOption where
  | tenBitTags | noSnoop | ecrc | aer | flr | ari | srIov | msix | msi | intx | l0s | l1 | l11 | l12 | d1 | d2 | d3hot
  | d3cold | ats | pri | pasid | tph | ptm | resizableBar | atomicOp
deriving DecidableEq, Repr

/-- The fields of a function's configuration space that a rule of the spec names (R130, R133, R135, R136, R138, R144,
R147, R148, R181, R201, R250, R254). -/
inductive CfgField where
  | mse | bme | relaxed | msixEnable | functionMask | mrrs | maxPayload | ctoDisable | ctoValue | ctoRanges
  | ctoDisableSupported | aspmL1 | noSoftReset | aerStatus | ecrcGenerate | ecrcCheck | totalVfs | numVfs | vfEnable
  | ariHierarchy | bar0Lo | bar0Hi | vfBar0Lo | vfBar0Hi | otherBar | cxlCacheCapable | cxlMemCapable | cxlHdmCount
  | supports (o : PcieOption)
deriving DecidableEq, Repr

/-- Where a register access goes: the function's BAR0, or one field of its configuration space. -/
inductive Space where
  | bar
  | config (f : CfgField)
deriving DecidableEq, Repr

/-- What a cage's ModPrsL and its cable's identification show: no cable, a cable that carries no feed, or one that
carries the Vcc feed end to end, with the neighbour's feed on or off (R87, R89, R90, R548). -/
inductive Cable where
  | none
  | plain
  | feed (on : Bool)
deriving DecidableEq, Repr

/-- The read that a HOST_READ_FAIL ends (R135, R193). -/
inductive HostRead where
  | descriptor (t : Fin 64) (r : Fin 8)
  | chime (t : Fin 64)
  | buffer (job : Nat)
deriving DecidableEq, Repr

/-- What asks the Gong for a stamp and may have to wait for it: a Carillon source's event, a completion entry or an
epoch marker of tenant t's ring r, the header of a tile's message at the chain port, a STAMP of tile i (Table 7-1,
R215, R216). -/
inductive GongRequest where
  | source (n : Nat)
  | completion (t r : Nat)
  | marker (t r : Nat)
  | send (src : Nat)
  | stamp (i : Nat)
deriving DecidableEq, Repr

/-- How a read that the card issued ends without its data (R135). -/
inductive ReadEnd where
  | timeout | unsupported | completerAbort
deriving DecidableEq, Repr

/-- The 261 commands: those with operands first, each group in the table's order. -/
inductive Instr where
  /-- REGISTER_WRITE (R16). -/
  | registerWrite (q : Requester) (sp : Space) (addr : Nat) (size : Nat) (be : Nat) (data : BitVec 64)
  /-- SMBUS_BLOCK_READ (R86). -/
  | smbusBlockRead (port : Fin 2) (code : Fin 64)
  /-- SMBUS_BLOCK_WRITE (R86). -/
  | smbusBlockWrite (port : Fin 2) (code : Fin 64) (v : BitVec 32)
  /-- AUX_POWER_LOSS (R77). -/
  | auxPowerLoss (fitMv : Nat)
  /-- CABLE_FEED_OVERLOAD (R88). -/
  | cableFeedOverload (cage : Fin 2)
  /-- DOMAIN_POWER_ON (R95). -/
  | domainPowerOn (d : Fin 16)
  /-- DOMAIN_IDLE_OFF (R95). -/
  | domainIdleOff (d : Fin 16)
  /-- VGRID_EVALUATE (R101). -/
  | vgridEvaluate (fitMv : Nat) (inputDw : BitVec 16)
  /-- TEMP_SAMPLE (R107). -/
  | tempSample (die : List Int) (stackC : List (Option Int))
  /-- STACK_COOL (R370). -/
  | stackCool (k : Fin 4)
  /-- LINE_FREQ_WRITE (R111). -/
  | lineFreqWrite (q : Requester) (p : Fin 4) (v : BitVec 32)
  /-- PLL_LOCK (R112). -/
  | pllLock (pll : Fin 13)
  /-- PLL_LOCK_TIMEOUT (R116). -/
  | pllLockTimeout (pll : Fin 13)
  /-- LINK_TRAIN (R137). -/
  | linkTrain (width : BitVec 5) (speed : BitVec 3) (cxl : Bool)
  /-- MEM_TRAINED (R118). -/
  | memTrained (k : Fin 4) (ok : Bool)
  /-- CARD_RESET (R126). -/
  | cardReset (q : Requester) (v : BitVec 32)
  /-- FLR (R166). -/
  | flr (t : Fin 64)
  /-- FLR_COMPLETE (R166). -/
  | flrComplete (t : Fin 64)
  /-- HOST_READ_FAIL (R135). -/
  | hostReadFail (what : HostRead) (why : ReadEnd) (addr : BitVec 64)
  /-- NUMVFS_WRITE (R136). -/
  | numvfsWrite (numVfs : BitVec 16) (enable : Bool) (ari : Bool)
  /-- BME_CLEAR (R147). -/
  | bmeClear (t : Fin 64) (mid : Option (Fin 8))
  /-- BME_SET (R147). -/
  | bmeSet (t : Fin 64)
  /-- TEN_MAP_WRITE (R158). -/
  | tenMapWrite (q : Requester) (i : Fin 49152) (v : BitVec 32)
  /-- TENANT_ENABLE (R160). -/
  | tenantEnable (q : Requester) (t : Fin 64)
  /-- TENANT_DISABLE (R161). -/
  | tenantDisable (q : Requester) (t : Fin 64)
  /-- TENANT_DISABLE_DONE (R161). -/
  | tenantDisableDone (t : Fin 64)
  /-- TENANT_SCRUB (R165). -/
  | tenantScrub (q : Requester) (t : Fin 64)
  /-- RING_ENABLE (R172). -/
  | ringEnable (q : Requester) (t : Fin 64) (r : Fin 8) (k : BitVec 5)
  /-- RING_DISABLE (R174). -/
  | ringDisable (q : Requester) (t : Fin 64) (r : Fin 8)
  /-- POLL_PERIOD_WRITE (R191). -/
  | pollPeriodWrite (q : Requester) (t : Fin 64) (v : BitVec 32)
  /-- CHIME_SNOOP (R189). -/
  | chimeSnoop (t : Fin 64) (hint : Bool)
  /-- CHIME_POLL (R191). -/
  | chimePoll (t : Fin 64)
  /-- CHIME_LINE_DATA (R189). -/
  | chimeLineData (t : Fin 64) (line : List Byte)
  /-- DESCRIPTOR_FETCH (R181). -/
  | descriptorFetch (t : Fin 64) (r : Fin 8) (descs : List (List Byte))
  /-- NOP (R178). -/
  | nopDescriptor (t : Fin 64) (r : Fin 8)
  /-- JOB (R386). -/
  | job (t : Fin 64) (r : Fin 8) (hdr : List Byte)
  /-- FENCED_ADMIT (R179). -/
  | fencedAdmit (t : Fin 64) (r : Fin 8) (hdr : List Byte)
  /-- COMPLETION_WRITE (R199). -/
  | completionWrite (t : Fin 64) (r : Fin 8) (held : Bool)
  /-- EPOCH_MARKER (R204). -/
  | epochMarker (t : Fin 64) (r : Fin 8) (held : Bool)
  /-- TAIL_HINT_WRITE (R187). -/
  | tailHintWrite (t : Fin 64)
  /-- GONG_GRANT (R207). -/
  | gongGrant (e : GongRequest)
  /-- GNG_NEXT_READ (R220). -/
  | gngNextRead (q : Requester)
  /-- GNG_HOLD_READ (R216). -/
  | gngHoldRead (q : Requester)
  /-- GLITCH_FILTER_OUTPUT (R230). -/
  | glitchFilterOutput (k : Fin 20) (level : Bool) (held : Bool)
  /-- SOURCE_EVENT (R226). -/
  | sourceEvent (n : Fin 512) (held : Bool)
  /-- CAR_SRC_WRITE (R224). -/
  | carSrcWrite (q : Requester) (n : Fin 512) (v : BitVec 32) (inWindow : Bool)
  /-- SOURCE_COMMIT (R243). -/
  | sourceCommit (n : Fin 512)
  /-- CAR_CLAIM (R239). -/
  | carClaim (q : Requester) (c : Fin 4)
  /-- CAR_DONE (R239). -/
  | carDone (q : Requester) (c : Fin 4) (v : BitVec 32)
  /-- CAR_SWSET (R245). -/
  | carSwset (q : Requester) (w : Fin 16) (v : BitVec 32)
  /-- CAR_LOST_CLEAR (R228). -/
  | carLostClear (q : Requester) (n : Fin 512) (v : BitVec 32)
  /-- CAR_STAMP_READ (R206). -/
  | carStampRead (q : Requester) (n : Fin 512)
  /-- HOLDOFF_EXPIRE (R247). -/
  | holdoffExpire (g : Fin 32)
  /-- PIN_LATCH_CATCH (R231). -/
  | pinLatchCatch (k : Fin 20) (level : Bool)
  /-- COALESCE_TIMER_EXPIRE (R251). -/
  | coalesceTimerExpire (t : Fin 64) (r : Fin 8)
  /-- COAL_WRITE (R253). -/
  | coalWrite (q : Requester) (t : Fin 64) (r : Fin 8) (v : BitVec 32) (timeMet : Bool)
  /-- MSIX_UNBLOCK (R250). -/
  | msixUnblock (t : Fin 64) (e : Fin 64)
  /-- PME_CONFIG_WRITE (R257). -/
  | pmeConfigWrite (clearStatus : Bool) (en : Bool)
  /-- MESSAGE_ACCEPT (R277). -/
  | messageAccept (m : Nat)
  /-- GRD_CHOKE_WRITE (R290). -/
  | grdChokeWrite (q : Requester) (v : BitVec 32)
  /-- TILE_WATCHDOG_EXPIRE (R297). -/
  | tileWatchdogExpire (i : Fin 1024)
  /-- QRATE_UPDATE (R295). -/
  | qrateUpdate (qd : Fin 4)
  /-- PACE_READ (R294). -/
  | paceRead (q : Requester) (i : Fin 1024)
  /-- FENCE_STAT_READ (R285). -/
  | fenceStatRead (q : Requester)
  /-- ILLEGAL_OPCODE (R306). -/
  | illegalOpcode (i : Fin 1024)
  /-- ADD (R306). -/
  | add (i : Fin 1024)
  /-- SUB (R306). -/
  | sub (i : Fin 1024)
  /-- AND (R306). -/
  | and (i : Fin 1024)
  /-- OR (R306). -/
  | or (i : Fin 1024)
  /-- XOR (R306). -/
  | xor (i : Fin 1024)
  /-- SLL (R307). -/
  | sll (i : Fin 1024)
  /-- SRL (R307). -/
  | srl (i : Fin 1024)
  /-- SRA (R307). -/
  | sra (i : Fin 1024)
  /-- MUL (R306). -/
  | mul (i : Fin 1024)
  /-- SLT (R306). -/
  | slt (i : Fin 1024)
  /-- SLTU (R306). -/
  | sltu (i : Fin 1024)
  /-- ADDI (R306). -/
  | addi (i : Fin 1024)
  /-- ANDI (R306). -/
  | andi (i : Fin 1024)
  /-- ORI (R306). -/
  | ori (i : Fin 1024)
  /-- XORI (R306). -/
  | xori (i : Fin 1024)
  /-- SLLI (R306). -/
  | slli (i : Fin 1024)
  /-- SRLI (R306). -/
  | srli (i : Fin 1024)
  /-- SRAI (R306). -/
  | srai (i : Fin 1024)
  /-- LUI (R306). -/
  | lui (i : Fin 1024)
  /-- LDN (R306). -/
  | ldn (i : Fin 1024)
  /-- LDNU (R306). -/
  | ldnu (i : Fin 1024)
  /-- LDW (R306). -/
  | ldw (i : Fin 1024)
  /-- STN (R306). -/
  | stn (i : Fin 1024)
  /-- STW (R306). -/
  | stw (i : Fin 1024)
  /-- BEQ (R306). -/
  | beq (i : Fin 1024)
  /-- BNE (R306). -/
  | bne (i : Fin 1024)
  /-- BLT (R306). -/
  | blt (i : Fin 1024)
  /-- BGE (R306). -/
  | bge (i : Fin 1024)
  /-- BLTU (R306). -/
  | bltu (i : Fin 1024)
  /-- BGEU (R306). -/
  | bgeu (i : Fin 1024)
  /-- JAL (R306). -/
  | jal (i : Fin 1024)
  /-- JR (R306). -/
  | jr (i : Fin 1024)
  /-- VLD (R306). -/
  | vld (i : Fin 1024)
  /-- VST (R306). -/
  | vst (i : Fin 1024)
  /-- VADD (R310). -/
  | vadd (i : Fin 1024)
  /-- VSUB (R310). -/
  | vsub (i : Fin 1024)
  /-- VMUL (R310). -/
  | vmul (i : Fin 1024)
  /-- VMAX (R310). -/
  | vmax (i : Fin 1024)
  /-- VMIN (R310). -/
  | vmin (i : Fin 1024)
  /-- VBC (R310). -/
  | vbc (i : Fin 1024)
  /-- VRED (R310). -/
  | vred (i : Fin 1024)
  /-- VMSK (R310). -/
  | vmsk (i : Fin 1024)
  /-- VCVT (R311). -/
  | vcvt (i : Fin 1024)
  /-- WLD (R314). -/
  | wld (i : Fin 1024)
  /-- MMA (R312). -/
  | mma (i : Fin 1024)
  /-- OMA (R313). -/
  | oma (i : Fin 1024)
  /-- AZR (R306). -/
  | azr (i : Fin 1024)
  /-- ALD (R314). -/
  | ald (i : Fin 1024)
  /-- AST (R314). -/
  | ast (i : Fin 1024)
  /-- QNT (R315). -/
  | qnt (i : Fin 1024)
  /-- DLD (R317). -/
  | dld (i : Fin 1024)
  /-- DST (R317). -/
  | dst (i : Fin 1024)
  /-- TRANSFER_COMPLETE (R318). -/
  | transferComplete (i : Fin 1024) (n : Fin 8) (upsets : List (Nat × Bool)) (flips : List Nat)
  /-- DWT (R319). -/
  | dwt (i : Fin 1024)
  /-- SEND (R321). -/
  | send (i : Fin 1024)
  /-- SEND_DONE (R321). -/
  | sendDone (i : Fin 1024)
  /-- RECV (R322). -/
  | recv (i : Fin 1024)
  /-- MBPOP (R323). -/
  | mbpop (i : Fin 1024)
  /-- MBCFG (R324). -/
  | mbcfg (i : Fin 1024)
  /-- MBSTAT (R306). -/
  | mbstat (i : Fin 1024)
  /-- BAR (R327). -/
  | bar (i : Fin 1024)
  /-- STAMP (R328). -/
  | stamp (i : Fin 1024) (held : Bool)
  /-- SYS (R329). -/
  | sys (i : Fin 1024)
  /-- END (R330). -/
  | endTile (i : Fin 1024)
  /-- NOP_INSTRUCTION (R306). -/
  | nopTile (i : Fin 1024)
  /-- PATROL_READ (R365). -/
  | patrolRead (k : Fin 4) (upset : Option Bool)
  /-- MEM_FENCE_CMD (R366). -/
  | memFenceCmd (q : Requester) (v : BitVec 32)
  /-- MEM_CE_READ (R363). -/
  | memCeRead (q : Requester) (k : Fin 4)
  /-- MEM_UE_READ (R364). -/
  | memUeRead (q : Requester) (k : Fin 4)
  /-- STARVE_TIMEOUT (R398). -/
  | starveTimeout (j : Nat)
  /-- SLICE_EXPIRE (R407). -/
  | sliceExpire (j : Nat)
  /-- SPILL_START (R408). -/
  | spillStart (j : Nat)
  /-- SPILL_COMPLETE (R408). -/
  | spillComplete (j : Nat)
  /-- JOB_RESTORE (R411). -/
  | jobRestore (j : Nat)
  /-- BAR_TIMEOUT (R400). -/
  | barTimeout (i : Fin 1024)
  /-- OUTPUT_STAGE_COPY (R394). -/
  | outputStageCopy (j : Nat)
  /-- JOB_COMPLETE (R394). -/
  | jobComplete (j : Nat)
  /-- USED_READ (R395). -/
  | usedRead (q : Requester) (t : Fin 64)
  /-- WBK_TIME_READ (R414). -/
  | wbkTimeRead (q : Requester)
  /-- POS_COUNT (R416). -/
  | posCount (p : Fin 4) (a : Bool) (b : Bool)
  /-- POS_ERR_READ (R417). -/
  | posErrRead (q : Requester) (p : Fin 4)
  /-- POS_SET (R420). -/
  | posSet (q : Requester) (p : Fin 4) (v : BitVec 32)
  /-- CHANNEL_CTL_WRITE (R426). -/
  | channelCtlWrite (q : Requester) (k : Fin 16) (v : BitVec 32)
  /-- CMP_WRITE (R429). -/
  | cmpWrite (q : Requester) (k : Fin 16) (high : Bool) (v : BitVec 32)
  /-- TIME_MATCH (R424). -/
  | timeMatch (k : Fin 16)
  /-- CAPTURE (R433). -/
  | capture (pin : Fin 28) (level : Bool)
  /-- CAP_READ (R434). -/
  | capRead (q : Requester) (k : Fin 16)
  /-- PULSE_END (R435). -/
  | pulseEnd (k : Fin 16)
  /-- PORT_ENABLE (R462). -/
  | portEnable (q : Requester) (p : Fin 4) (v : BitVec 32)
  /-- PORT_DISABLE (R463). -/
  | portDisable (q : Requester) (p : Fin 4)
  /-- TRAINING_DONE (R440). -/
  | trainingDone (p : Fin 4) (pairs : List (List (BitVec 16)))
  /-- TRAINING_TIMEOUT (R440). -/
  | trainingTimeout (p : Fin 4)
  /-- TRIGGER_REQUEST (R456). -/
  | triggerRequest (p : Fin 4) (received : Bool)
  /-- SOL_TIMEOUT (R443). -/
  | solTimeout (p : Fin 4)
  /-- SYNC_WITHOUT_TRIGGER (R442). -/
  | syncWithoutTrigger (p : Fin 4) (received : Bool)
  /-- LINE_STORED (R450). -/
  | lineStored (p : Fin 4) (pairs : List (List Bool))
  /-- SETTLE_EXPIRE (R457). -/
  | settleExpire (p : Fin 4)
  /-- LOW_WATER_REACHED (R457). -/
  | lowWaterReached (p : Fin 4)
  /-- PORT_RESUME (R460). -/
  | portResume (q : Requester) (p : Fin 4)
  /-- MOTION_WRITE (R455). -/
  | motionWrite (q : Requester) (p : Fin 4) (on : Bool)
  /-- RD_WRITE (R450). -/
  | rdWrite (q : Requester) (p : Fin 4) (high : Bool) (v : BitVec 32)
  /-- WR_READ (R450). -/
  | wrRead (q : Requester) (p : Fin 4)
  /-- ERRCNT_READ (R456). -/
  | errcntRead (q : Requester) (p : Fin 4)
  /-- QUEUE_ENABLE (R491). -/
  | queueEnable (q : Requester) (n : Fin 16) (v : BitVec 32)
  /-- CACHE_FLUSH (R490). -/
  | cacheFlush (q : Requester) (n : Fin 16)
  /-- SAMPLE_CUT_START (R484). -/
  | sampleCutStart (n : Fin 16)
  /-- RING_LINE_CONSUME (R481). -/
  | ringLineConsume (n : Fin 16)
  /-- PICTURE_TAKE (R482). -/
  | pictureTake (n : Fin 16)
  /-- DECODE_FAIL (R475). -/
  | decodeFail (n : Fin 16) (j : Nat) (input : List Byte)
  /-- SAMPLE_COMPLETE (R479). -/
  | sampleComplete (n : Fin 16) (j : Nat) (input : List Byte)
  /-- SAMPLE_FORWARD (R477). -/
  | sampleForward (n : Fin 16)
  /-- DIRECT_LOAD_DONE (R478). -/
  | directLoadDone (j : Nat) (input : List Byte)
  /-- INK_HITS_READ (R489). -/
  | inkHitsRead (q : Requester) (n : Fin 16)
  /-- TOK_LOAD (R496). -/
  | tokLoad (q : Requester) (t : Fin 64)
  /-- TOK_CHECK_DONE (R496). -/
  | tokCheckDone (t : Fin 64)
  /-- GRAM_LOAD (R513). -/
  | gramLoad (q : Requester) (t : Fin 64)
  /-- GRAM_CHECK_DONE (R513). -/
  | gramCheckDone (t : Fin 64)
  /-- TOK_CLEAR (R498). -/
  | tokClear (q : Requester) (t : Fin 64)
  /-- GRAM_CLEAR (R498). -/
  | gramClear (q : Requester) (t : Fin 64)
  /-- TOKEN_STREAM_COMPLETE (R505). -/
  | tokenStreamComplete (input : List Byte)
  /-- DETOKENIZE_START (R509). -/
  | detokenizeStart (j : Nat)
  /-- DETOKENIZE_DONE (R509). -/
  | detokenizeDone (j : Nat)
  /-- TOK_LOADS_READ (R499). -/
  | tokLoadsRead (q : Requester)
  /-- DAMPER_REQUEST (R516). -/
  | damperRequest (i : Fin 1024) (t : Fin 64) (slot : Fin 1024)
  /-- STREAM_ENABLE (R523). -/
  | streamEnable (q : Requester) (n : Fin 8)
  /-- STREAM_RESTART (R545). -/
  | streamRestart (q : Requester) (n : Fin 8)
  /-- KEY_REQ (R537). -/
  | keyReq (q : Requester) (n : Fin 8)
  /-- CYMBAL_ENCODE (R535). -/
  | cymbalEncode (i : Fin 1024) (n : Fin 8) (slot : Fin 16)
  /-- CYMBAL_DECODE (R542). -/
  | cymbalDecode (i : Fin 1024) (n : Fin 8) (slot : Fin 16)
  /-- PICTURE_OUTPUT (R543). -/
  | pictureOutput (n : Fin 8)
  /-- CHAIN_LINK_UP (R548). -/
  | chainLinkUp (x : Fin 2)
  /-- LINK_TRAIN_RETRY (R548). -/
  | linkTrainRetry (x : Fin 2) (cable : Cable)
  /-- LINKUP (R549). -/
  | linkup (x : Fin 2) (unit : BitVec 12) (assigned : Bool) (era : BitVec 16) (bypassInDown : Bool) (bypass : Bool)
  /-- FLIT_DISCARD (R552). -/
  | flitDiscard (x : Fin 2) (raw : List Byte)
  /-- NAK_REPLAY (R552). -/
  | nakReplay (x : Fin 2) (ack : BitVec 8)
  /-- REPLAY_TIMEOUT (R552). -/
  | replayTimeout (x : Fin 2)
  /-- CHAIN_SEND (R555). -/
  | chainSend (m : Nat) (held : Bool)
  /-- FIRST (R564). -/
  | firstFlit (x : Fin 2) (raw : List Byte)
  /-- CONT (R564). -/
  | contFlit (x : Fin 2) (raw : List Byte)
  /-- ABORT (R561). -/
  | abortFlit (x : Fin 2) (raw : List Byte)
  /-- ANSWER (R562). -/
  | answerFlit (x : Fin 2) (raw : List Byte)
  /-- FLIT_GAP_TIMEOUT (R563). -/
  | flitGapTimeout (x : Fin 2)
  /-- CHN_ARR_READ (R564). -/
  | chnArrRead (q : Requester)
  /-- ENUMERATE (R557). -/
  | enumerate (q : Requester) (v : BitVec 32) (passed : Bool)
  /-- SURVEY (R557). -/
  | survey (x : Fin 2) (claimed : List (BitVec 12)) (count : Nat)
  /-- ASSIGN (R557). -/
  | assign (x : Fin 2) (next : Nat) (upset : List (BitVec 12)) (count : Nat)
  /-- DONE (R557). -/
  | doneFlit (x : Fin 2) (full : List (BitVec 12)) (count : Nat)
  /-- SPAN_REQ (R565). -/
  | spanReq (unit : BitVec 12) (key : BitVec 32) (answer : Option (Option (Fin 8192)))
  /-- SPAN_FREE (R565). -/
  | spanFree (unit : BitVec 12) (key : BitVec 32)
  /-- SPAN_TIMEOUT (R565). -/
  | spanTimeout (j : Nat)
  /-- CHAIN_RESET (R569). -/
  | chainReset (q : Requester) (v : BitVec 32)
  /-- RESET (R569). -/
  | resetFlit (x : Fin 2)
  /-- CHN_BYPASS (R560). -/
  | chnBypass (q : Requester) (on : Bool)
  /-- RETURN (R560). -/
  | returnFlit (x : Fin 2) (unit : BitVec 12)
  /-- CHN_STAT_READ (R562). -/
  | chnStatRead (q : Requester)
  /-- CHN_LINK_STAT_READ (R553). -/
  | chnLinkStatRead (q : Requester) (x : Fin 2)
  /-- CHN_CRC_READ (R552). -/
  | chnCrcRead (q : Requester) (x : Fin 2)
  /-- STORE_PARITY_ERROR (R572). -/
  | storeParityError (unit : Fin 4) (addr : BitVec 32) (job : Nat)
  /-- BELL_WATCHDOG_EXPIRE (R582). -/
  | bellWatchdogExpire (c : Fin 4)
  /-- BELL_CORE_RESTART (R582). -/
  | bellCoreRestart (c : Fin 4)
  /-- CLEAR_COUNTS (R578). -/
  | clearCounts (q : Requester) (v : BitVec 32)
  /-- REGERR_READ (R580). -/
  | regerrRead (q : Requester)
  /-- FW_DATA_WRITE (R587). -/
  | fwDataWrite (q : Requester) (v : BitVec 32)
  /-- FW_COMMIT (R588). -/
  | fwCommit (q : Requester) (v : BitVec 32)
  /-- RAISE_ARB (R589). -/
  | raiseArb (q : Requester) (v : BitVec 32)
  /-- REGISTER_READ (R18). -/
  | registerRead (q : Requester) (sp : Space) (addr : Nat) (size : Nat) (be : Nat)
  /-- AUX_INPUT_PRESENT (R75). -/
  | auxInputPresent (sense0Open : Bool) (sense1Open : Bool)
  /-- COLD_POWER_ON (R118). -/
  | coldPowerOn
  /-- MEMS_STABLE (R118). -/
  | memsStable
  /-- MAIN_POWER_GOOD (R118). -/
  | mainPowerGood
  /-- BOOT_VERIFY_DONE (R121). -/
  | bootVerifyDone
  /-- PERST_DEASSERT (R120). -/
  | perstDeassert
  /-- DRAM_SCRUB_DONE (R118). -/
  | dramScrubDone
  /-- AON_SUPPLY_LOSS (R259). -/
  | aonSupplyLoss
  /-- FUNDAMENTAL_RESET (R125). -/
  | fundamentalReset
  /-- HOT_RESET (R168). -/
  | hotReset
  /-- PF0_FLR (R167). -/
  | pf0Flr
  /-- D3HOT_ENTER (R130). -/
  | d3hotEnter
  /-- D0_ENTER (R258). -/
  | d0Enter
  /-- D3COLD_ENTER (R132). -/
  | d3coldEnter
  /-- D3COLD_EXIT (R132). -/
  | d3coldExit
  /-- PAGE_ZEROED (R159). -/
  | pageZeroed
  /-- PIN_LATCH_REPLAY (R232). -/
  | pinLatchReplay
  /-- L1_EXIT_SEND (R254). -/
  | l1ExitSend
  /-- CHOKE_COMPLETE (R292). -/
  | chokeComplete
  /-- JOB_PLACE (R392). -/
  | jobPlace
  /-- USED_UPDATE (R395). -/
  | usedUpdate
  /-- TIME_WRAP (R413). -/
  | timeWrap
  /-- TOKEN_STREAM_START (R499). -/
  | tokenStreamStart
  /-- DAMPER_SERVICE (R520). -/
  | damperService
  /-- PICTURE_SERVICE_START (R533). -/
  | pictureServiceStart
  /-- PICTURE_DONE (R533). -/
  | pictureDone
  /-- ENUM_TIMEOUT (R558). -/
  | enumTimeout
  /-- BYPASS_ENTER (R560). -/
  | bypassEnter
  /-- BYPASS_EXIT (R560). -/
  | bypassExit
  /-- FW_CHECK_DONE (R588). -/
  | fwCheckDone
deriving DecidableEq, Repr

end Sys2Proof
end

