-- ==== Sys2Proof/Decode.lean ====
section
/-!
DEFINITION. The card takes commands, and no row of spec/opcode_table.json gives bits: no word spells one.
-/
namespace Sys2Proof

/-- The command that a word spells by the table's bits: none, as the table gives none (the rows have no
fields and no encoding). -/
def decodeTableWord (_nbits _w : Nat) : Option Instr := none

end Sys2Proof
end

