-- ==== Sys2Proof/Machine/State.lean ====
section
/-!
DEFINITION. The state of the card, as plain data. A field's default is its reset value: the value of
the spec's Reset column, or one that INVENTORY.md and the assumption log name. Tables are sparse: an
absent key holds the reset entry of its kind.
-/
namespace Sys2Proof.Machine

/-! ## Board, power, clocks and start-up (03, 04) -/

/-- The BRD_ registers and the platform inputs they report (Table 3-7, R75). -/
structure Brd where
  boardRev   : BitVec 8 := 0      -- log 4
  stepping   : BitVec 8 := 0      -- log 4
  auxPresent : Bool := false      -- log 4
  sense0Open : Bool := true       -- log 4
  sense1Open : Bool := true       -- log 4
  feedIn     : Bool := true
  feedOut    : Bool := true
  faultIn    : Bool := false
  faultOut   : Bool := false
  dbgEnable  : Bool := false
  gpDir      : BitVec 16 := 0
  gpOut      : BitVec 16 := 0
  feedDue    : List Nat := []     -- feed overloads that wait for MGT to be recorded (log 118)
deriving DecidableEq, Repr

/-- The power state of PF0, which the card follows (R130, R132). -/
inductive DState where
  | d0 | d3hot | d3cold
deriving DecidableEq, Repr

/-- The PWR_ registers, the power controller and the thermal limit (Table 4-6, R93-R109). -/
structure Pwr where
  capW           : BitVec 9 := 420
  vset           : BitVec 10 := 800
  vact           : BitVec 10 := 800     -- log 4
  holdActive     : Bool := false
  thermalLimited : Bool := false
  capLimited     : Bool := false
  dom            : BitVec 16 := 0       -- log 4
  domHold        : BitVec 16 := 0
  inputDw        : BitVec 16 := 0       -- log 4
  dieC           : BitVec 8 := 0        -- log 4
  dramC          : BitVec 8 := 0        -- log 4
  cause          : BitVec 6 := 1
  perst          : Bool := true         -- log 4: true while PERST# is asserted
  tripped        : Bool := false
  dieHot         : Bool := false
  coolSamples    : Nat := 0
  dstate         : DState := .d0
  d3Due          : List Nat := []       -- tenants whose jobs the entry to D3hot aborted (R131)
deriving DecidableEq, Repr

/-- How far start-up has come in Table 4-4 (R118). `recovery` is R123. -/
inductive Stage where
  | unpowered | aon | mems | mgt | running | recovery
deriving DecidableEq, Repr

/-- What the boot ROM finds when it checks an image (R121). -/
structure ImageFacts where
  readable : Bool
  digestOk : Bool
  sigOk    : Bool
  arb      : Nat
  version  : BitVec 16
deriving DecidableEq, Repr, Inhabited

/-- One slot of the boot flash (04, "Signed boot"). Until the firmware mailbox has written to it, it holds the image
of `facts`; `staged` holds the bytes written over that. -/
structure Slot where
  facts   : ImageFacts
  written : Bool := false
  staged  : Tbl (Option Byte) := []
deriving DecidableEq, Repr

/-- Start-up, signed boot and the firmware mailbox (R118-R124, R587-R589). -/
structure Boot where
  stage     : Stage := .unpowered
  ready     : Bool := false
  slotB     : Bool := false             -- log 4
  status    : BitVec 4 := 0             -- log 4
  fwVersion : BitVec 16 := 0            -- log 4
  scrubbed  : Bool := false
  imgA      : Slot := { facts := { readable := true, digestOk := true, sigOk := true, arb := 0, version := 0 } }
  imgB      : Slot := { facts := { readable := false, digestOk := false, sigOk := false, arb := 0, version := 0 } }
  activeB   : Bool := false             -- log 6
  fusedArb  : Nat := 0                  -- log 6
  fwAddr    : BitVec 30 := 0
  fwBusy    : Bool := false
  fwStatus  : BitVec 4 := 0
  resetting : Bool := false             -- a card reset is in progress (R126)
deriving DecidableEq, Repr

/-- The CLK_ registers, the relocks in progress and the PLLs whose output is disconnected (Table 4-7, R111-R117). -/
structure Clk where
  cfgErr   : Bool := false
  lockFail : BitVec 14 := 0
  locked   : BitVec 14 := 0             -- log 4
  relock   : BitVec 14 := 0             -- a relock attempt is in progress
  disconnected : BitVec 14 := 0         -- the PLL's output is disconnected (R112, R116)
  lineKhz  : Tbl (BitVec 18) := []      -- default 50,000
deriving DecidableEq, Repr

/-! ## Host attach and tenants (05) -/

/-- The configuration space of one function, as far as the rules name it, with its MSI-X table and
pending bits (Table 5-1, R135, R147, R148, R166, R250). `mps`, `ctoDisable`, `ctoValue` and `bar0` of a VF are those of
PF0 (R135, log 128). -/
structure Func where
  bme        : Bool := false
  mse        : Bool := false            -- log 7
  relaxed    : Bool := true             -- log 7
  msixEn     : Bool := false            -- log 7
  fnMask     : Bool := false            -- log 7
  mrrs       : Nat := 512               -- log 7
  mps        : Nat := 128               -- log 7
  ecrcGen    : Bool := false            -- log 7
  ecrcCheck  : Bool := false            -- log 7
  bar0       : BitVec 64 := 0           -- log 7
  aerStatus  : Reg := 0                 -- log 7
  ctoDisable : Bool := false            -- log 7
  ctoValue   : BitVec 4 := 0            -- log 7
  flrBusy    : Bool := false
  aer        : Nat := 0
  msix       : Tbl Reg := []            -- default: the mask bit of each Vector Control word (log 7)
  pba        : BitVec 64 := 0
deriving DecidableEq, Repr

/-- The link and PF0's capabilities (R133-R137, R254, R257). -/
structure Hif where
  width     : BitVec 5 := 0
  speed     : BitVec 3 := 0
  cxl       : Bool := false
  linkUp    : Bool := false
  l1        : Bool := false
  heldMsix  : List (Nat × Nat) := []
  numVfs    : BitVec 16 := 0            -- log 7
  vfEnable  : Bool := false             -- log 7
  ari       : Bool := false             -- log 7
  vfBar0    : BitVec 64 := 0            -- log 7
  pmeEn     : Bool := false             -- log 7
  pmeStatus : Bool := false             -- log 7
  funcs     : Tbl Func := []
deriving DecidableEq, Repr

/-- Where a tenant's chime line stands in the device cache (R189, R190). -/
inductive Chime where
  | absent | held | reading | readingAgain
deriving DecidableEq, Repr

/-- One tenant: its TEN_ registers, its AON epoch and the parts of its tenant page that are not a
ring's (Tables 5-4, 6-7). -/
structure Tenant where
  enable    : Bool := false
  disabling : Bool := false
  mapBase   : BitVec 16 := 0
  mapCount  : BitVec 16 := 0
  chimeHpa  : BitVec 64 := 0
  hintHpa   : BitVec 64 := 0
  epoch     : BitVec 16 := 0
  chimeAddr : BitVec 64 := 0
  pollUs    : BitVec 10 := 10
  chime     : Chime := .absent
  polls     : Nat := 0                  -- polls of the chime line whose data has not arrived (R191, R192)
  hintDue   : Bool := false
  hintHeld  : Bool := false             -- the tail-hint line stands in the device cache (R139)
deriving DecidableEq, Repr

/-- An entry of the translation pool (R154). -/
structure MapEntry where
  valid : Bool := false
  ppn   : BitVec 16 := 0
deriving DecidableEq, Repr

/-- A page waiting to be zeroed: R159 (no owner) or R165 (its tenant). -/
structure ScrubPage where
  ppn   : Nat
  owner : Option Nat
deriving DecidableEq, Repr

/-- The tenants, the translation pool and the scrub queue. -/
structure Ten where
  tenants : Tbl Tenant := []
  mapStat : BitVec 4 := 0
  map     : Tbl MapEntry := []
  scrubQ  : List ScrubPage := []
deriving DecidableEq, Repr

/-! ## Jobs (13) -/

/-- A program of the manifest's program table (Table 13-2). -/
structure Prog where
  image : Nat
  words : Nat
deriving DecidableEq, Repr, Inhabited

/-- A bar declaration (Table 13-2): its interval in µs and its live ranges (first line, count). -/
structure Decl where
  interval : Nat
  live     : Nat
  ranges   : List (Nat × Nat)
deriving DecidableEq, Repr, Inhabited

/-- A layer entry (Table 13-2). -/
structure LayerEntry where
  params : Nat
  bpt    : Nat
deriving DecidableEq, Repr, Inhabited

/-- The manifest as read at admission (Table 13-1). -/
structure Manifest where
  width      : Nat := 1
  height     : Nat := 1
  bw         : Nat := 0
  startUs    : Nat := 1
  spans      : Bool := false
  outRegion  : Nat := 0
  outNonets  : Nat := 0
  outStage   : Nat := 0
  outCardFmt : Nat := 0
  progs      : List Prog := []
  decls      : List Decl := []
  tiles      : List Nat := []
  layers     : List LayerEntry := []
  sat        : List Reg := []
deriving DecidableEq, Repr, Inhabited

/-- What a completion says beside its place in the ring (Table 6-5). -/
structure Cpl where
  status   : BitVec 8
  detail   : BitVec 16 := 0
  flags    : BitVec 4 := 0
  tileUs   : BitVec 64 := 0
  outBytes : BitVec 32 := 0
deriving DecidableEq, Repr

/-- Where an admitted job stands (R387-R411). `finished` waits for its completion to be written. -/
inductive Phase where
  | waiting | running | preempting | spilling | spilled | output | finished
deriving DecidableEq, Repr

/-- A saturation slot's window (R351, R352): the window number, its count, and whether it raised. -/
structure SatWin where
  window : Nat := 0
  count  : Nat := 0
  raised : Bool := false
deriving DecidableEq, Repr

/-- An admitted job. -/
structure Job where
  id          : Nat
  tenant      : Nat
  ring        : Nat
  seq         : BitVec 32
  jobId       : BitVec 32
  desc        : List Byte := []
  man         : Manifest := {}
  phase       : Phase := .waiting
  origin      : Nat := 0                -- origin tile of its rectangle
  kept        : Option Nat := none      -- rectangle kept for it under R406
  keptFor     : Option Nat := none      -- on a victim: the job its rectangle is given to
  tag         : Nat := 0
  parts       : List Nat := []          -- B_j on each stack (R373)
  spillFirst  : Nat := 0
  spillLines  : Nat := 0
  ticks       : Nat := 0                -- ticks it held its tiles (R395)
  charged     : Nat := 0                -- tile-µs already in U_t
  ran         : Nat := 0                -- ticks since it last started or was restored (R407)
  passedAt    : Option Nat := none      -- when it was first passed over (R398)
  starving    : Bool := false
  sampleDue   : Bool := false           -- its sample has not gone forward (R478)
  loadDue     : Bool := false           -- its direct load is not complete (R478)
  streamDue   : Bool := false           -- its token stream is not complete (R506)
  stageDue    : Bool := false           -- stage 1 or 2 has still to run (R394)
  pictures    : Nat := 0                -- pictures requested and not answered (R530)
  outSat      : Nat := 0                -- output-stage count (R394)
  outBytes    : Nat := 0
  layerRep    : Bool := false
  satSeen     : Bool := false           -- a saturation slot had counted when its tiles were released (R355)
  satKept     : List (Tbl SatWin) := [] -- the window counts of its tiles, by ordinal, while it is spilled (R350)
  seam        : Bool := false
  srcDims     : Nat × Nat × Nat := (0, 0, 0)  -- W, H and P of its source at the check (R473)
  srcHit      : Bool := false           -- its source was found in the cache (R489)
  recorded    : Option Nat := none      -- number of the record that decides it (R575)
  result      : Option Cpl := none
deriving DecidableEq, Repr

/-- A fetched descriptor whose completion is not written (R174, R199): read and unchecked; waiting
for the head's tag, with the job as checked so far (R565); admitted; or decided. -/
inductive InfSt where
  | fetched
  | spanWait (j : Job)
  | admitted (job : Nat)
  | decided (c : Cpl)
deriving DecidableEq, Repr

structure Inflight where
  seq  : BitVec 32
  desc : List Byte
  st   : InfSt
deriving DecidableEq, Repr

/-! ## Rings (06) -/

/-- TPG_COALr, and its copy in AON (Table 8-6, R255). -/
structure Coal where
  timeUs  : BitVec 16 := 1
  countM1 : BitVec 8 := 0
  wake    : Bool := false
deriving DecidableEq, Repr

/-- Ring pair r of tenant t, kept at key 8t + r (Table 6-7, R171, R251-R256). -/
structure Ring where
  sqBase      : BitVec 64 := 0
  cqBase      : BitVec 64 := 0
  k           : BitVec 5 := 4
  enable      : Bool := false
  stopped     : Bool := false
  err         : BitVec 4 := 0
  sqHead      : BitVec 32 := 0
  cqTail      : BitVec 32 := 0
  sqProd      : BitVec 32 := 0
  cqCons      : BitVec 32 := 0
  inflight    : List Inflight := []
  markerDue   : Bool := false
  half        : Option (BitVec 32 × List Byte) := none
  coal        : Coal := {}
  copy        : Coal := {}
  uncovered   : Nat := 0
  firePending : Bool := false
  firstAt     : Option Nat := none      -- when its first uncovered completion was written (R255)
deriving DecidableEq, Repr

/-! ## Gong and Carillon (07, 08) -/

/-- The Gong (Table 7-2). `held` lists the requests that wait at their ports, oldest first, and `passed` gives for each
port with one the ports granted since it last was (R215, R216). -/
structure Gong where
  next   : BitVec 48 := 0
  nextHi : BitVec 16 := 0
  wrap   : BitVec 32 := 0
  era    : BitVec 16 := 0
  hold   : BitVec 32 := 0
  held   : List GongRequest := []
  passed : List (Nat × List Nat) := []
deriving DecidableEq, Repr

/-- One Carillon source (Table 8-5). `committing` is a source selected before its mask landed, inside
the window of R243. -/
structure Src where
  priority   : BitVec 8 := 0xFF
  vector     : BitVec 6 := 0
  target     : BitVec 3 := 7
  sense      : BitVec 3 := 0
  wake       : Bool := false
  mask       : Bool := true
  presented  : Bool := false
  active     : Bool := false
  pending    : Bool := false
  committing : Bool := false
  lost       : Bool := false
  count      : BitVec 8 := 0
  stamp      : BitVec 48 := 0
  stampHi    : BitVec 16 := 0
deriving DecidableEq, Repr

/-- Carillon. `claims c` lists core c's active sources, most recently claimed first, each with the
priority it had at its claim (R236). -/
structure Car where
  srcs      : Tbl Src := []
  priSplit  : BitVec 4 := 4
  holdoff   : Tbl (BitVec 16) := []
  inHoldoff : BitVec 32 := 0
  filt      : Tbl (BitVec 10) := []
  levels    : BitVec 20 := 0xF0000       -- log 4
  latches   : BitVec 20 := 0
  claims    : Tbl (List (Nat × Nat)) := []
  mbox      : Tbl Reg := []
deriving DecidableEq, Repr

/-! ## Woodblock (14) -/

/-- A position counter (Table 14-3, R415-R420): `a` and `b` are the outputs of its filters. -/
structure Pos where
  val    : BitVec 32 := 0
  enable : Bool := false
  invert : Bool := false
  filt   : BitVec 8 := 0
  err    : BitVec 16 := 0
  a      : Bool := true                  -- log 4
  b      : Bool := true                  -- log 4
  na     : Nat := 0                      -- ticks for which QA has differed from its filter's output
  nb     : Nat := 0
deriving DecidableEq, Repr

/-- A compare/capture channel (Table 14-3, R421-R437). -/
structure Chan where
  armed    : Bool := false
  late     : Bool := false
  overrun  : Bool := false
  captured : Bool := false
  lport    : BitVec 3 := 0
  outForce : BitVec 2 := 0
  action   : BitVec 3 := 0
  edgeDir  : BitVec 2 := 0
  base     : BitVec 3 := 0
  mode     : BitVec 2 := 0
  capSrc   : BitVec 5 := 0
  cmp      : BitVec 40 := 0
  step     : BitVec 32 := 0
  remain   : BitVec 16 := 0
  presc    : BitVec 8 := 0
  filt     : BitVec 8 := 0
  pw       : BitVec 16 := 1
  cap      : BitVec 40 := 0
  capHi    : BitVec 8 := 0
  edges    : Nat := 0
  level    : Bool := false
  pulse    : Nat := 0
  matched  : Bool := false
  seen     : Bool := false               -- the output of its capture filter
  seenFor  : Nat := 0                    -- ticks for which its pin has differed from that output
deriving DecidableEq, Repr

/-- The Woodblock. `pins` are its input pins by the numbers of R431, synchronised. -/
structure Wbk where
  pins   : BitVec 28 := 0xFFF0000        -- log 4
  time   : BitVec 40 := 0
  timeHi : BitVec 8 := 0
  wrap   : BitVec 32 := 0
  pos    : Tbl Pos := []
  ch     : Tbl Chan := []
deriving DecidableEq, Repr

/-! ## Device memory (12) -/

/-- A stack and its controller (Table 12-1). -/
structure Stack where
  fenced  : Bool := false
  hot     : Bool := false
  trained : Bool := false
  scale   : BitVec 17 := 0x10000
  ce      : Reg := 0
  ue      : Reg := 0
  ueTimes : List Nat := []
  cool    : Nat := 0
  patrol  : Nat := 0
deriving DecidableEq, Repr

/-- A claimed result line (R519): its physical address, and the writes that wait behind the claim. -/
structure Claim where
  addr   : Nat
  behind : List (List Nonet) := []
deriving DecidableEq, Repr

/-- Device memory. `ecc` keeps the beats whose stored bits are wrong: `false` correctable, `true`
uncorrectable (R362-R364). -/
structure DevMem where
  cells       : List Host.Cell := []     -- log 10
  ecc         : List (Nat × Bool) := []
  stk         : Tbl Stack := []
  errAddr     : BitVec 37 := 0
  ueThreshold : BitVec 8 := 16
  patrolH     : BitVec 5 := 8
  tenCap      : Tbl (BitVec 24) := []
  claims      : List Claim := []
deriving DecidableEq, Repr

/-! ## Scheduler (13) -/

/-- The SCH_ registers of one tenant (Table 13-5). `used` is U_t (R395). -/
structure SchTen where
  share      : BitVec 16 := 1
  cls        : BitVec 2 := 3
  span       : Bool := false
  limit      : BitVec 11 := 0
  maxAdm     : BitVec 9 := 16
  spillBase  : BitVec 19 := 0
  spillLines : BitVec 32 := 0
  used       : BitVec 64 := 0
  usedHi     : BitVec 32 := 0
deriving DecidableEq, Repr

structure Sch where
  slice   : BitVec 10 := 0
  tens    : Tbl SchTen := []
  jobs    : List Job := []
  nextJob : Nat := 0
deriving DecidableEq, Repr

/-! ## Grid and tiles (09, 10, 11) -/

/-- A receive mailbox (R276, R300). -/
structure Mailbox where
  base : BitVec 15 := 0
  size : BitVec 16 := 0
  prod : BitVec 32 := 0
  cons : BitVec 32 := 0
deriving DecidableEq, Repr

/-- An outstanding DLD or DST (R317, R318). One that is still listed when its tile
has stopped completes if the memory port had accepted it (R332). -/
structure Xfer where
  store : Bool
  dline : Nat
  sline : Nat
  lines : Nat
  pc    : BitVec 14
  tenant : Nat
  job    : Nat
  accepted : List (Nat × Nat) := []      -- request lines taken: (line, Cymbal stream or 8 for the Damper)
deriving DecidableEq, Repr

/-- GRD_TILEi_SATCFGs (Table 11-2). -/
structure SatCfg where
  windowUs  : BitVec 16 := 1
  threshold : BitVec 16 := 0
deriving DecidableEq, Repr

/-- One tile (Tables 9-1, 9-5, 10-1, 11-2). Vector element e of v_n is key 64n + e, accumulator
element a_d[r][c] is key 1024d + 32r + c, weight W[k][j] of bank b is key 1024b + 32k + j. -/
structure Tile where
  exclude   : Bool := false
  running   : Bool := false
  fault     : BitVec 8 := 0
  tag       : BitVec 14 := 0
  pc        : BitVec 14 := 0             -- log 12
  g         : Tbl Word := []
  v         : Tbl Nonet := []
  acc       : Tbl Word := []
  w         : Tbl Nonet := []
  imem      : Tbl Word := []
  scr       : Tbl Nonet := []
  badParity : List Nat := []
  mbox      : Tbl Mailbox := []
  xfers     : List Xfer := []
  sat       : Tbl Reg := []
  satWin    : Tbl SatWin := []
  satCfg    : Tbl SatCfg := []
  pace      : BitVec 48 := 0
  paceHi    : BitVec 16 := 0
  recent    : Nat := 0                   -- MAC handshakes in the window of GRD_QRATEq (R295)
  wdog      : BitVec 16 := 0
  sending   : Option (BitVec 5) := none
  choked    : Bool := false
  ended     : Bool := false
  atBar     : Bool := false
  decl      : Nat := 0
  interval  : Nat := 0
  barTime   : Nat := 0
  job       : Option Nat := none
  lastJob   : Option Nat := none
deriving DecidableEq, Repr

/-- A message in the mesh (R272). `lanes` is the header handshake and the payload; `outward` says that it goes
to the chain port and `inward` that it came from there. `left` says that its last lane has left the sender's
local port. `entered` counts the lanes that have entered its first router, `bufs` those in the input buffer of each
router its header has reached, first to last (R268), and `passedBy` lists the inputs granted the output it waits for
since it began to wait (R271). `sent` counts its flits already sent on link `via`, with the send stamp `stamp`
(R564). -/
structure Msg where
  src     : Nat
  dst     : Nat
  unit    : BitVec 12
  tag     : BitVec 14
  mailbox : BitVec 4
  lanes   : List Lane
  outward : Bool := false
  inward  : Bool := false
  left    : Bool := false
  entered : Nat := 0
  bufs    : List Nat := [0]
  passedBy : List (Nat × Nat) := []
  sent    : Nat := 0
  via     : Nat := 0
  stamp   : BitVec 48 := 0
deriving DecidableEq, Repr

/-- GRD_QSATq (Table 11-2). -/
structure QSat where
  tag  : BitVec 14 := 0
  tile : BitVec 10 := 0
  slot : BitVec 4 := 0
deriving DecidableEq, Repr

/-- GRD_QRATEq (Table 9-5). -/
structure QRate where
  tiles : BitVec 16 := 0
  mhs   : BitVec 16 := 0
deriving DecidableEq, Repr

structure Grd where
  tiles      : Tbl Tile := []
  chokeBusy  : Bool := false
  wdogLimit  : BitVec 16 := 2500
  fenceCount : BitVec 16 := 0
  fenceTag   : BitVec 14 := 0
  qsat       : Tbl QSat := []
  qrate      : Tbl QRate := []
  msgs       : List Msg := []
deriving DecidableEq, Repr

/-! ## Roll unit (15) -/

/-- The states of a line port (Table 15-3). -/
inductive PortState where
  | off | train | run | stopping | waitLow | backup | settleBack | runup | fault
deriving DecidableEq, Repr

/-- A line whose trigger was issued and whose slot is not yet written (R456). -/
structure Issued where
  pos  : BitVec 32
  time : BitVec 40
  seam : Bool
deriving DecidableEq, Repr

/-- A line port (Table 15-3, R439-R465). -/
structure Port where
  enable       : Bool := false
  motion       : Bool := false
  hostRead     : Bool := false
  state        : PortState := .off
  err          : BitVec 4 := 0
  fmt          : Reg := 0x00C00000
  trig         : Reg := 0x0000320A
  rate         : BitVec 18 := 0
  base         : BitVec 40 := 0
  size         : BitVec 17 := 64
  hw           : BitVec 16 := 48
  lw           : BitVec 16 := 16
  tenant       : BitVec 6 := 0
  mot          : Reg := 0x84000000
  runup        : BitVec 32 := 0
  settle       : BitVec 16 := 1000
  start        : BitVec 32 := 0
  restartPos   : BitVec 32 := 0
  wr           : BitVec 64 := 0
  wrHi         : BitVec 32 := 0
  rd           : BitVec 64 := 0
  rdLo         : BitVec 32 := 0
  mres         : Reg := 0
  slot         : Reg := 0
  restarts     : Reg := 0
  framing      : BitVec 16 := 0
  refused      : BitVec 16 := 0
  issued       : List Issued := []
  refusedSince : Bool := false
  q            : Option (BitVec 32) := none
  pitch        : BitVec 32 := 0
  moving       : Bool := false
  mfltStop     : Bool := false          -- MFLT# has fallen since the last resume (R460)
  retrain      : Bool := false          -- it trains again after a relock (R465)
  terminated   : Bool := false          -- the termination of its pairs is enabled (R440)
  ltrig        : Nat := 0
  exsync       : Nat := 0
  requests     : List (BitVec 32) := [] -- trigger requests not yet judged, each with its match position
  parts        : List Nat := []
deriving DecidableEq, Repr

/-! ## Intake (16) -/

/-- A sample of a queue that has not gone forward (R476, R477), of the descriptor `seq` of ring `ring`; it has a job
once that is admitted. `lines` and `budget` are Lq and G, and `z` the lines of the sample region, as the checks of
Table 16-4 took them (R474, log 148). -/
structure Sample where
  ring     : Nat
  seq      : BitVec 32
  job      : Option Nat := none
  lines    : Nat := 0
  budget   : Nat := 0
  z        : Nat := 0
  cut      : Bool := false
  index    : BitVec 32 := 0
  epoch    : BitVec 8 := 0
  complete : Bool := false
  failed   : Bool := false
  seam     : Bool := false
  roiStale : Bool := false
  taken    : Nat := 0                   -- ring lines consumed
  firstSeq : BitVec 64 := 0
  width    : Nat := 0
  height   : Nat := 0
  planes   : List (List Byte) := []     -- U8 values read so far, one list a plane
  rects    : List (Nat × Nat × Nat × Nat) := []
deriving DecidableEq, Repr

/-- A cache slot's tag (R488). It and the planes lie in the slot's lines. -/
structure CacheTag where
  index : BitVec 32
  len   : BitVec 32
  width : Nat
  height : Nat
  planes : Nat
deriving DecidableEq, Repr, Inhabited

/-- An Intake queue (Table 16-6). `tags` lists the slots that have been filled since the last enable or flush, each with
the tag its line was given (log 21, log 75). -/
structure Queue where
  cfg        : Reg := 0
  err        : BitVec 3 := 0
  lines      : BitVec 18 := 1
  seed       : BitVec 64 := 0
  augCfg     : Reg := 0
  roiBase    : Reg := 0
  roiBudget  : Reg := 0
  cacheBase  : Reg := 0
  cacheSlots : BitVec 16 := 1
  cacheLines : Reg := 0
  count      : Reg := 0
  hits       : BitVec 16 := 0
  misses     : BitVec 16 := 0
  samples    : List Sample := []
  tags       : List (Nat × CacheTag) := []
deriving DecidableEq, Repr

/-- Intake. `store` is what its on-die stores hold of the image, line or picture it worked on last, for `lastTenant`
(R163). -/
structure Ink where
  queues     : Tbl Queue := []
  lastTenant : Option Nat := none
  store      : List (List Byte) := []
deriving DecidableEq, Repr

/-! ## Paradiddle and the Damper (17) -/

/-- The tables of a token set as held on die (Table 17-1, R494, R495). -/
structure TokSet where
  fallback : Nat := 0
  eos      : Nat := 0
  boundary : List Byte := []
  level1   : List Nat := []
  level2   : List Nat := []
  level3   : List Nat := []
  vocab    : List (Nat × Nat × Bool) := []
  merges   : List (Nat × Nat × Nat) := []
  pool     : List Byte := []
  byteTok  : List Nat := []
deriving DecidableEq, Repr

/-- The tables of a grammar as held on die (Table 17-3): each state's accepting flag and edges. -/
structure Grammar where
  start  : Nat := 0
  states : List (Bool × List (Nat × Nat × Nat)) := []
deriving DecidableEq, Repr

/-- Which check a busy TOK_TENt_CTL runs (R496, R513). -/
inductive TokCheck where
  | none | set | grammar
deriving DecidableEq, Repr

/-- The TOK_ registers of one tenant (Table 17-5). -/
structure TokTen where
  tokValid  : Bool := false
  gramValid : Bool := false
  checking  : TokCheck := .none
  tokErr    : BitVec 4 := 0
  gramErr   : BitVec 4 := 0
  tokset    : Reg := 0
  gram      : Reg := 0
  dampReq   : Reg := 0
  dampRes   : Reg := 0
  slots     : BitVec 11 := 0
  tokCrc    : Reg := 0
  gramCrc   : Reg := 0
deriving DecidableEq, Repr

/-- A stream in Paradiddle's order of acceptance (R499): a job's aux input, or its output ids. -/
structure TokStream where
  job    : Nat
  tenant : Nat
  detok  : Bool
deriving DecidableEq, Repr

/-- An accepted Damper request (R516, R517): its slot, the job whose tile wrote it and the words of its line. -/
structure DampReq where
  job    : Nat
  tenant : Nat
  slot   : Nat
  words  : List Word
deriving DecidableEq, Repr

structure Tok where
  tens      : Tbl TokTen := []
  streams   : List TokStream := []
  serving   : Bool := false              -- the first stream is in service
  onDie     : Option Nat := none
  set       : TokSet := {}
  damps     : List DampReq := []
  dampOn    : Option Nat := none
  dampSet   : TokSet := {}
  dampGram  : Grammar := {}
  loadsTok  : BitVec 16 := 0
  loadsDamp : BitVec 16 := 0
deriving DecidableEq, Repr

/-! ## Cymbal (18) -/

/-- A layer's current copy in the area (R540): its gen and its planes. -/
structure LayerCopy where
  gen    : BitVec 32
  planes : List Byte
deriving DecidableEq, Repr

/-- A decoded picture (R543). -/
structure Pict where
  poc    : BitVec 32
  width  : Nat
  height : Nat
  depth  : Nat
  idr    : Bool
  planes : List Byte
deriving DecidableEq, Repr

/-- A stream context (Table 18-9). -/
structure Stream where
  enable    : Bool := false
  keyReq    : Bool := false
  state     : BitVec 4 := 0
  err       : BitVec 4 := 0
  cfg       : Reg := 0
  width     : BitVec 16 := 0
  height    : BitVec 16 := 0
  idr       : BitVec 16 := 0
  area      : Reg := 0
  areaLines : Reg := 0
  req       : Reg := 0
  rslt      : Reg := 0
  slots     : BitVec 5 := 1
  layers    : Tbl Reg := []
  res       : BitVec 24 := 0
  pics      : Reg := 0
  out       : Reg := 0
  outSlots  : BitVec 7 := 1
  outWr     : Reg := 0
  outRd     : Reg := 0
  dmg       : Reg := 0
  copies    : Tbl (Option LayerCopy) := []
  first     : Bool := true
  sinceIdr  : Nat := 0
  recon     : List Byte := []
  waiting   : List Pict := []
  parts     : List Nat := []
deriving DecidableEq, Repr

/-- An accepted picture request (R527, R528). -/
structure CymReq where
  stream : Nat
  slot   : Nat
  job    : Nat
  decode : Bool
  words  : List Word
deriving DecidableEq, Repr

/-- What a decoded request answers once its pictures are in the output ring: their number, the bytes consumed,
whether one was IDR, the bytes moved, and the damage found after them (cause, offset, POC). -/
structure CymEnd where
  pictures : Nat
  consumed : Nat
  idr      : Bool
  moved    : Nat
  damage   : Option (Nat × Nat × BitVec 32)
deriving DecidableEq, Repr

/-- A request in service after its frame boundary (Table 18-4): the canvas of an encode, the layers
repeated and transparent, and whether the picture is coded as IDR. `finish` is set once a decode request's
bitstream has been decoded. -/
structure CymService where
  req         : CymReq
  canvas      : List Byte := []
  repeated    : BitVec 4 := 0
  transparent : BitVec 4 := 0
  idr         : Bool := false
  finish      : Option CymEnd := none
deriving DecidableEq, Repr

structure Cym where
  streams    : Tbl Stream := []
  reqs       : List CymReq := []
  service    : Option CymService := none
  lastTenant : Option Nat := none
  dmgNum     : Reg := 0
  dmgStream  : BitVec 3 := 0
  dmgCause   : BitVec 8 := 0
  dmgOff     : Reg := 0
  dmgPoc     : Reg := 0
deriving DecidableEq, Repr

/-! ## Chain (19) -/

/-- A flit other than IDLE (Table 19-1). A control flit's payload is symbolic, as the spec gives no
layout for it. -/
structure Flit where
  kind  : Nat
  last  : Bool := true
  seq   : BitVec 8 := 0
  lanes : List Lane := []
deriving DecidableEq, Repr

/-- Control flits (R549, R557, R560, R565, R569). -/
inductive Ctrl where
  | linkup (unit : BitVec 12) (assigned : Bool) (era : BitVec 16) (bypassInDown : Bool)
  | enumRequest
  | survey (claimed : List (BitVec 12)) (count : Nat)
  | assign (next : Nat) (upset : List (BitVec 12)) (count : Nat)
  | done (full : List (BitVec 12)) (count : Nat)
  | reset
  | ret (unit : BitVec 12)
  | spanReq (unit : BitVec 12) (key : BitVec 32)
  | spanGrant (unit : BitVec 12) (key : BitVec 32) (index : Option (Fin 8192))
  | spanFree (unit : BitVec 12) (key : BitVec 32)
deriving DecidableEq, Repr

/-- What a link sends: a message flit or a control flit, each with a link sequence number, or a nak, which takes
none (R552, R553). -/
inductive Sent where
  | flit (f : Flit)
  | ctrl (seq : BitVec 8) (c : Ctrl)
  | nak (ack : BitVec 8)
deriving DecidableEq, Repr

/-- The message that arrives on a link: none; one for this card, its lanes so far; one that goes on to the other
link, by its header; one that has been answered and is drained. -/
inductive Rx where
  | idle
  | own (lanes : List Lane)
  | through (hdr : Lane)
  | drained
deriving DecidableEq, Repr

/-- The message that a link's output carries (R567): none, one of a tile of this card, or one in transit. -/
inductive Tx where
  | free
  | own (tile : Nat)
  | transit
deriving DecidableEq, Repr

/-- What CHN_LINKx_STAT shows of a link (Table 19-3): the card's own status, which a reset of MGT clears while the
retimer keeps the link (R594, log 146). -/
structure LinkStat where
  up       : Bool := false
  bypass   : Bool := false
  assigned : Bool := false
  unit     : BitVec 12 := 0
deriving DecidableEq, Repr

/-- A link of the chain (Table 19-3, R547-R553). `fwd` holds the transit flits that wait for the output;
`returnDue` says that RETURN is sent once the link is up again (R560). -/
structure Link where
  cable           : Cable := .none       -- log 4
  up              : Bool := false
  stat            : LinkStat := {}
  partnerBypass   : Bool := false
  partnerInDown   : Bool := false
  partnerAssigned : Bool := false
  partnerUnit     : BitVec 12 := 0
  partnerEra      : BitVec 16 := 0
  down            : BitVec 8 := 0
  crc             : Reg := 0
  txSeq           : BitVec 8 := 0
  rxSeq           : BitVec 8 := 0xFF
  replay          : List Sent := []
  fails           : Nat := 0
  rx              : Rx := .idle
  tx              : Tx := .free
  fwd             : List Flit := []
  returnDue       : Bool := false
deriving DecidableEq, Repr

/-- An arrival record (R564). -/
structure Arrival where
  unit  : BitVec 12 := 0
  era   : BitVec 16 := 0
  send  : BitVec 48 := 0
  stamp : BitVec 48 := 0
deriving DecidableEq, Repr

/-- A spanning tag the head has granted (R565). -/
structure SpanTag where
  key     : BitVec 32
  index   : Nat
  holders : List (BitVec 12)
deriving DecidableEq, Repr

/-- The chain. `copy` is the retimer's copy of the unit address, while it is assigned (R560); `head` and `tail` are what
CHN_UNIT last showed while CHN was on (R594). -/
structure Chn where
  assigned   : Bool := false
  unit       : BitVec 12 := 0
  copy       : Option (BitVec 12) := none
  head       : Bool := false
  tail       : Bool := false
  bypassReg  : Bool := false
  bypassing  : Bool := true              -- log 4
  stale      : BitVec 16 := 0
  noAddress  : Bool := false
  duplicate  : Bool := false
  enumState  : BitVec 2 := 0
  units      : BitVec 13 := 0
  links      : Tbl Link := []
  arr        : Arrival := {}
  arrShown   : Arrival := {}
  route      : Tbl (BitVec 2) := []
  absent     : List (BitVec 12) := []
  tags       : List SpanTag := []
deriving DecidableEq, Repr

/-! ## Faults (20) -/

/-- A bell core's firmware and its watchdog (R582, R583). -/
structure Bell where
  running : Bool := false
  resets  : List Nat := []
deriving DecidableEq, Repr

structure Flt where
  halted     : Bool := false
  next       : Reg := 0
  lastJob    : Reg := 0
  regerr     : Reg := 0
  regerrAddr : Reg := 0
  bwdogMs    : BitVec 16 := 100
  cnt        : Tbl Reg := []
  recs       : Tbl (List Reg) := []
  tileHw     : Tbl (BitVec 8) := []
  cores      : Tbl Bell := []
deriving DecidableEq, Repr

/-! ## The link, and the whole card -/

/-- A request the card issues on the host link, in the order issued (R134, R140, R196, R201, R202):
posted writes, MSI-X messages, and the reads whose data a later command brings. `ctrl` and `flit` are
what it sends on a chain link, and `wakePin` is a change it makes to WAKE# (R257). -/
inductive LinkOp where
  | write (fn : Nat) (addr : BitVec 64) (data : List Byte) (relaxed : Bool)
  | msix (fn : Nat) (entry : Nat)
  | readLine (fn : Nat) (addr : BitVec 64)
  | readDesc (fn : Nat) (addr : BitVec 64) (n : Nat)
  | readBuf (fn : Nat) (addr : BitVec 64) (n : Nat)
  | rdShared (addr : BitVec 64)
  | snoopAnswer (addr : BitVec 64)
  | itoMWr (addr : BitVec 64) (data : List Byte)
  | cleanEvict (addr : BitVec 64)
  | chain (link : Nat) (x : Sent)
  | lineOut (port : Nat) (ltrig exsync : Bool)
deriving DecidableEq, Repr

/-- The card. -/
structure State where
  pending : List Instr := []             -- log 1
  now     : Nat := 0                     -- log 1
  free    : Nat := 0                     -- log 5
  out     : List LinkOp := []            -- log 8
  rdata   : BitVec 64 := 0               -- log 8
  brd     : Brd := {}
  pwr     : Pwr := {}
  boot    : Boot := {}
  clk     : Clk := {}
  hif     : Hif := {}
  ten     : Ten := {}
  rings   : Tbl Ring := []
  gng     : Gong := {}
  car     : Car := {}
  wbk     : Wbk := {}
  mem     : DevMem := {}
  sch     : Sch := {}
  grd     : Grd := {}
  rol     : Tbl Port := []
  ink     : Ink := {}
  tok     : Tok := {}
  cym     : Cym := {}
  chn     : Chn := {}
  flt     : Flt := {}
deriving DecidableEq, Repr

/-- Why the machine stops. The spec describes an effect for every fault of the card itself, so the
one reason here is a command that nothing outside the card could have sent. -/
inductive Fault where
  /-- A command's data does not have the form its bus or sensor gives it (a chime line of other than
  8 + 8 words, a flit of other than 80 bytes). Raised by the meaning of that command. Safe: no such
  command reaches the card. -/
  | malformed
deriving DecidableEq, Repr

/-- Why a command has no meaning. -/
inductive Refusal where
  /-- A row without a meaning. Raised by an arm of `exec` alone. Safe: nothing is claimed of it. -/
  | notModelled (mnemonic : String)
deriving DecidableEq, Repr

/-- What a meaning answers. -/
abbrev Result := Host.Outcome State Fault Refusal

/-- The card right after a cold reset, before step 1 of Table 4-4: every register at its reset value,
no rail up, no command waiting. -/
def State.reset : State := {}

end Sys2Proof.Machine
end

