-- ==== Sys2Proof/Config.lean ====
section
/-!
DEFINITION. The free values: what the spec leaves to a standard outside its text, or open. Each is a
constant without a body, so a statement about one holds whatever it is (logs 5, 20-26, 149, 151).
-/
namespace Sys2Proof.Config

/-- Whether a scratchpad line outside the live set keeps its content at a BAR (R403). -/
opaque barKeepsLine : Nat → Nat → Bool

/-- What SHA-384, ECDSA P-384 and the manifest say of an image whose bytes the firmware mailbox has written over
an older one (R121); the image's layout and the Olzaga key are not in the spec. -/
opaque imageFacts : Machine.ImageFacts → Tbl (Option Byte) → Machine.ImageFacts

/-- The CRC-32 of a token set's or a grammar's bytes (R496, R513): the spec gives neither its
parameters nor the order of the bytes. -/
opaque tableCrc : List Byte → BitVec 32

/-- Pixel i of a block of 64 dequantised coefficients under Intake's integer IDCT: the same on every card, and not
stated (R470). -/
opaque idct : List Int → Nat → Byte

/-- The blocks that an encoder predicts by motion, as x, y, w and h, each with its merge and AMVP candidates (R525,
R538): of the QPs, the canvas and the picture history. -/
opaque predictedBlocks :
  List Nat → List Byte → List Byte → List ((Nat × Nat × Nat × Nat) × List (Int × Int))

/-- λ(qp) (R538). -/
opaque lambda : Nat → Rat

/-- The bits of a motion vector, among a block's candidates (R538). -/
opaque vectorBits : List (Int × Int) → Int × Int → Nat

/-- The samples of level l of the pyramid of a picture (Table 18-5). -/
opaque pyramid : Nat → Nat → Nat → List Nat → List Nat

/-- The sample of a picture of w × h at a position in quarter samples that is not a whole one (R525, H.265). -/
opaque fraction : Nat → Nat → List Nat → Int × Int → Nat

/-- The bytes of a coded picture (R525, R532): of the stream's registers, the request's words, the QP of each CTB, the
canvas, the picture history, the motion vectors of its blocks and whether it is an IDR picture. -/
opaque accessUnit :
  List Nat → List Word → List Nat → List Byte → List Byte → List (Int × Int) → Bool → List Byte

/-- The picture history after coding a picture (R525). -/
opaque reconstruct :
  List Nat → List Word → List Nat → List Byte → List Byte → List (Int × Int) → Bool → List Byte

/-- Device memory bytes moved by a picture (Table 18-3, word 4). -/
opaque bytesMoved : List Nat → List Word → Nat

/-- What decoding a bitstream gives (R526, R542-R544). -/
structure Decoded where
  pictures : List Machine.Pict
  history  : List Byte
  consumed : Nat
  idr      : Bool
  damage   : Option (Nat × Nat × BitVec 32)    -- cause, offset, POC
deriving Inhabited

/-- H.265 decoding of a request's bitstream (R526, R542): of the stream's registers, whether the first
access unit must be IRAP, the picture history and the bytes. -/
opaque decodeStream : List Nat → Bool → List Byte → List Byte → Decoded

/-- The number by which the record of detector 0x06 names a block (Table 20-1): the spec gives none. The
argument is the block's place in Table 21-1. -/
opaque blockCode : Nat → Nat

/-- The 72 bytes of a cache slot's tag line (R488): the spec names what it holds (sample index, in_len, W, H and
P) and gives no layout. -/
opaque tagLine : List Nat → List Byte

/-- What the bytes of a tag line say that are not those the card wrote there (R488, R489). -/
opaque tagOf : List Byte → Machine.CacheTag

/-- The port by which a request reaches the Gong, modulo 64 (R215). -/
opaque gongPort : GongRequest → Nat

/-- A fresh value each time (log 5). -/
opaque fresh : Nat → Nat

end Sys2Proof.Config
end

