-- ==== Sys2Proof/Machine/Bits.lean ====
section
/-!
DEFINITION. Fields of registers, byte order, and the helpers the meanings share (R5, R10-R12, R34-R37).
-/
namespace Sys2Proof.Machine

/-- Bits [lo + w - 1 : lo] of a register, as a number. -/
def fld {n : Nat} (v : BitVec n) (lo w : Nat) : Nat := v.toNat / 2 ^ lo % 2 ^ w

/-- Bits [lo + w - 1 : lo] as a bit vector. -/
def fldv {n : Nat} (v : BitVec n) (lo w : Nat) : BitVec w := v.extractLsb' lo w

/-- Bit i. -/
def bit {n : Nat} (v : BitVec n) (i : Nat) : Bool := v.getLsbD i

/-- A vector with bit i set to b. -/
def setBit {n : Nat} (v : BitVec n) (i : Nat) (b : Bool) : BitVec n :=
  if b then v ||| BitVec.ofNat n (2 ^ i) else v &&& ~~~ BitVec.ofNat n (2 ^ i)

/-- A register made of fields, each a number at its lowest bit. -/
def pack (fs : List (Nat × Nat)) : Reg :=
  BitVec.ofNat 32 (fs.foldl (fun a f => a + f.2 * 2 ^ f.1) 0)

/-- A counter that stops at its largest value. -/
def satInc {n : Nat} (v : BitVec n) : BitVec n :=
  if v = BitVec.allOnes n then v else v + 1

/-- Replace bits [lo + w - 1 : lo] of a 64-bit value. -/
def setHalf (v : BitVec 64) (hi : Bool) (x : BitVec 32) : BitVec 64 :=
  if hi then x ++ v.extractLsb' 0 32 else v.extractLsb' 32 32 ++ x

/-- Limit a number to a range. -/
def clamp (lo hi x : Nat) : Nat := max lo (min hi x)

/-- The quotient rounded up. -/
def ceilDiv (a b : Nat) : Nat := (a + b - 1) / b

/-- The n bytes of a number, lowest first (R12). -/
def leBytes : Nat → Nat → List Byte
  | 0, _ => []
  | n + 1, v => BitVec.ofNat 8 v :: leBytes n (v / 256)

/-- The number whose bytes are given, lowest first (R12). -/
def ofLe : List Byte → Nat
  | [] => 0
  | b :: bs => b.toNat + 256 * ofLe bs

/-- n bytes of a list from an offset; bytes beyond its end read 0. -/
def slice (bs : List Byte) (off n : Nat) : List Byte :=
  (List.range n).map (fun i => bs.getD (off + i) 0)

/-- A little-endian field of a structure in bytes. -/
def le (bs : List Byte) (off n : Nat) : Nat := ofLe (slice bs off n)

/-- Nonet i of a packed buffer: bits [9i + 8 : 9i] (R34). -/
def packedNonet (bs : List Byte) (i : Nat) : Nonet :=
  BitVec.ofNat 9 (le bs (9 * i / 8) 2 / 2 ^ (9 * i % 8))

/-- Nonet i of a widened buffer: bits [8 : 0] of its halfword (R35). -/
def widenedNonet (bs : List Byte) (i : Nat) : Nonet := BitVec.ofNat 9 (le bs (2 * i) 2)

/-- The integer whose base-2^w digits are given, lowest first. -/
def joinBits {w : Nat} : List (BitVec w) → Nat
  | [] => 0
  | d :: ds => d.toNat + 2 ^ w * joinBits ds

/-- The packed bytes of a list of nonets, spare high bits 0 (R34, R36, R37). -/
def packNonets (ns : List Nonet) : List Byte := leBytes (ceilDiv (9 * ns.length) 8) (joinBits ns)

/-- The widened bytes of a list of nonets (R35). -/
def widenNonets (ns : List Nonet) : List Byte := ns.flatMap (fun n => leBytes 2 n.toNat)

/-- The four nonets of a word, nonet 0 first (R11). -/
def wordNonets (w : Word) : List Nonet := (List.range 4).map (fun j => w.extractLsb' (9 * j) 9)

/-- The word of four nonets (R11). -/
def wordOf (ns : List Nonet) : Word := BitVec.ofNat 36 (joinBits (ns.take 4))

/-- The eight nonets of a lane (R10). -/
def laneNonets (l : Lane) : List Nonet := (List.range 8).map (fun j => l.extractLsb' (9 * j) 9)

/-- The lane of eight nonets (R10). -/
def laneOf (ns : List Nonet) : Lane := BitVec.ofNat 72 (joinBits (ns.take 8))

/-- The signed value of bits that are two's complement (R41). -/
def signed {n : Nat} (v : BitVec n) : Int := v.toInt

/-- Cut a list into pieces of n, for at most `fuel` pieces. -/
def chunks {α : Type} (n : Nat) : Nat → List α → List (List α)
  | 0, _ => []
  | fuel + 1, l => if l.isEmpty then [] else l.take n :: chunks n fuel (l.drop n)

end Sys2Proof.Machine
end

