-- ==== Sys2Proof/Machine/Table.lean ====
section
/-!
DEFINITION. The operations of a sparse table: reading with a default, writing in canonical form
(keys strictly rising, no entry equal to the default).
-/
namespace Sys2Proof

/-- The entry of key n, or the default. -/
def Tbl.find {α : Type} (d : α) : Tbl α → Nat → α
  | [], _ => d
  | (k, v) :: rest, n => if k = n then v else Tbl.find d rest n

/-- The table without key n. -/
def Tbl.remove {α : Type} : Tbl α → Nat → Tbl α
  | [], _ => []
  | (k, v) :: rest, n => if k = n then Tbl.remove rest n else (k, v) :: Tbl.remove rest n

/-- Put an entry before the first larger key. -/
def Tbl.insert {α : Type} : Tbl α → Nat → α → Tbl α
  | [], n, x => [(n, x)]
  | (k, v) :: rest, n, x => if k < n then (k, v) :: Tbl.insert rest n x else (n, x) :: (k, v) :: rest

/-- Write key n: an entry equal to the default is left out. -/
def Tbl.put {α : Type} [DecidableEq α] (d : α) (t : Tbl α) (n : Nat) (x : α) : Tbl α :=
  if x = d then Tbl.remove t n else Tbl.insert (Tbl.remove t n) n x

/-- Write consecutive keys from n on. -/
def Tbl.putAll {α : Type} [DecidableEq α] (d : α) : Tbl α → Nat → List α → Tbl α
  | t, _, [] => t
  | t, n, x :: xs => Tbl.putAll d (Tbl.put d t n x) (n + 1) xs

/-- m consecutive entries from key n on. -/
def Tbl.getAll {α : Type} (d : α) (t : Tbl α) (n m : Nat) : List α :=
  (List.range m).map (fun i => Tbl.find d t (n + i))

/-- Change every entry, keeping the form. -/
def Tbl.update {α : Type} [DecidableEq α] (d : α) (f : Nat → α → α) (t : Tbl α) : Tbl α :=
  t.foldl (fun u e => Tbl.put d u e.1 (f e.1 e.2)) []

/-- Keys strictly rising and above a bound. -/
def Tbl.rising {α : Type} : Option Nat → Tbl α → Bool
  | _, [] => true
  | none, (k, _) :: rest => Tbl.rising (some k) rest
  | some b, (k, _) :: rest => decide (b < k) && Tbl.rising (some k) rest

/-- The canonical form of a table. -/
def Tbl.wf {α : Type} [DecidableEq α] (d : α) (t : Tbl α) : Bool :=
  Tbl.rising none t && t.all (fun e => decide (e.2 ≠ d))

end Sys2Proof
end

