-- ==== Sys2Proof/Machine/Ops.lean ====
section
/-!
DEFINITION. The operations the meanings share: access to the tables, the Gong's stamp, a Carillon
event, a register access error, a fault record, a register access and who may make it.
-/
namespace Sys2Proof.Machine

/-! ## Tables of the state -/

def State.func (s : State) (t : Nat) : Func := s.hif.funcs.find {} t
def State.setFunc (s : State) (t : Nat) (x : Func) : State :=
  { s with hif := { s.hif with funcs := s.hif.funcs.put {} t x } }
def State.tenant (s : State) (t : Nat) : Tenant := s.ten.tenants.find {} t
def State.setTenant (s : State) (t : Nat) (x : Tenant) : State :=
  { s with ten := { s.ten with tenants := s.ten.tenants.put {} t x } }
def State.mapEntry (s : State) (i : Nat) : MapEntry := s.ten.map.find {} i
def State.setMap (s : State) (i : Nat) (x : MapEntry) : State :=
  { s with ten := { s.ten with map := s.ten.map.put {} i x } }
def State.ring (s : State) (t r : Nat) : Ring := s.rings.find {} (8 * t + r)
def State.setRing (s : State) (t r : Nat) (x : Ring) : State :=
  { s with rings := s.rings.put {} (8 * t + r) x }
def State.src (s : State) (n : Nat) : Src := s.car.srcs.find {} n
def State.setSrc (s : State) (n : Nat) (x : Src) : State :=
  { s with car := { s.car with srcs := s.car.srcs.put {} n x } }
def State.claimed (s : State) (c : Nat) : List (Nat × Nat) := s.car.claims.find [] c
def State.setClaimed (s : State) (c : Nat) (x : List (Nat × Nat)) : State :=
  { s with car := { s.car with claims := s.car.claims.put [] c x } }
def State.pos (s : State) (q : Nat) : Pos := s.wbk.pos.find {} q
def State.setPos (s : State) (q : Nat) (x : Pos) : State :=
  { s with wbk := { s.wbk with pos := s.wbk.pos.put {} q x } }
def State.chan (s : State) (k : Nat) : Chan := s.wbk.ch.find {} k
def State.setChan (s : State) (k : Nat) (x : Chan) : State :=
  { s with wbk := { s.wbk with ch := s.wbk.ch.put {} k x } }
def State.stack (s : State) (k : Nat) : Stack := s.mem.stk.find {} k
def State.setStack (s : State) (k : Nat) (x : Stack) : State :=
  { s with mem := { s.mem with stk := s.mem.stk.put {} k x } }
def State.schTen (s : State) (t : Nat) : SchTen := s.sch.tens.find {} t
def State.setSchTen (s : State) (t : Nat) (x : SchTen) : State :=
  { s with sch := { s.sch with tens := s.sch.tens.put {} t x } }
def State.tile (s : State) (i : Nat) : Tile := s.grd.tiles.find {} i
def State.setTile (s : State) (i : Nat) (x : Tile) : State :=
  { s with grd := { s.grd with tiles := s.grd.tiles.put {} i x } }
def State.port (s : State) (p : Nat) : Port := s.rol.find {} p
def State.setPort (s : State) (p : Nat) (x : Port) : State := { s with rol := s.rol.put {} p x }
def State.queue (s : State) (q : Nat) : Queue := s.ink.queues.find {} q
def State.setQueue (s : State) (q : Nat) (x : Queue) : State :=
  { s with ink := { s.ink with queues := s.ink.queues.put {} q x } }
def State.tokTen (s : State) (t : Nat) : TokTen := s.tok.tens.find {} t
def State.setTokTen (s : State) (t : Nat) (x : TokTen) : State :=
  { s with tok := { s.tok with tens := s.tok.tens.put {} t x } }
def State.stream (s : State) (n : Nat) : Stream := s.cym.streams.find {} n
def State.setStream (s : State) (n : Nat) (x : Stream) : State :=
  { s with cym := { s.cym with streams := s.cym.streams.put {} n x } }
def State.link (s : State) (x : Nat) : Link := s.chn.links.find {} x
def State.setLink (s : State) (x : Nat) (l : Link) : State :=
  { s with chn := { s.chn with links := s.chn.links.put {} x l } }
def State.bell (s : State) (c : Nat) : Bell := s.flt.cores.find {} c
def State.setBell (s : State) (c : Nat) (x : Bell) : State :=
  { s with flt := { s.flt with cores := s.flt.cores.put {} c x } }
def State.lineKhz (s : State) (p : Nat) : BitVec 18 := s.clk.lineKhz.find 50000 p
def State.job? (s : State) (j : Nat) : Option Job := s.sch.jobs.find? (fun x => x.id == j)

/-- Change the admitted job with a key. -/
def State.modJob (s : State) (j : Nat) (f : Job → Job) : State :=
  { s with sch := { s.sch with jobs := s.sch.jobs.map (fun x => if x.id = j then f x else x) } }

/-- Do something to each of a list, first to last. -/
def forEach {α : Type} (l : List α) (f : α → State → State) (s : State) : State :=
  l.foldl (fun s x => f x s) s

/-- A list in the order that a number chooses. -/
def arrange {α : Type} (k : Nat) : List α → List α
  | [] => []
  | x :: xs =>
    let rest := arrange (k / (xs.length + 1)) xs
    let i := k % (xs.length + 1)
    rest.take i ++ x :: rest.drop i

/-- Issue a request on a link. -/
def State.emit (s : State) (op : LinkOp) : State := { s with out := s.out ++ [op] }

/-- Take a fresh free value and advance the counter (log 5). -/
def State.draw (s : State) : Nat × State := (s.free, { s with free := s.free + 1 })

/-- Do something to each of a list in an order that the spec leaves open (R209). -/
def forEachAny {α : Type} (l : List α) (f : α → State → State) (s : State) : State :=
  if l.length ≤ 1 then forEach l f s
  else let (n, s) := s.draw; forEach (arrange (Config.fresh n) l) f s

/-! ## Power domains (Table 4-1) -/

def domAON : Nat := 0
def domMGT : Nat := 1
def domHIF : Nat := 2
def domMEM (k : Nat) : Nat := 3 + k
def domGRID (q : Nat) : Nat := 7 + q
def domTOK : Nat := 11
def domCYM : Nat := 12
def domFRONT : Nat := 13
def domCHN : Nat := 14
def domBYP : Nat := 15

/-- A domain is on (PWR_DOM_STAT). -/
def State.on (s : State) (d : Nat) : Bool := bit s.pwr.dom d

def State.setDom (s : State) (d : Nat) (b : Bool) : State :=
  { s with pwr := { s.pwr with dom := setBit s.pwr.dom d b } }

/-- A domain is held off by PWR_DOM_HOLD; only bits [14:7] take effect (Table 4-6). -/
def State.held (s : State) (d : Nat) : Bool := decide (7 ≤ d ∧ d ≤ 14) && bit s.pwr.domHold d

/-- The PLL of stack k is disconnected: its domain runs from the divided reference, its controller issues no command
and the stack stays in self-refresh (R114). -/
def State.dramHeld (s : State) (k : Nat) : Bool := bit s.clk.disconnected (5 + k)

/-- The quadrant of a tile (R261, R262). -/
def quadrant (i : Nat) : Nat := 2 * (i / 32 / 16) + i % 32 / 16

/-- The firmware of a bell core runs (R582). -/
def State.firmware (s : State) (c : Nat) : Bool := s.on domMGT && (s.bell c).running

/-- The bell core that handles a tenant (R582). -/
def coreOf (t : Nat) : Nat := t % 4

/-! ## Stamps and events -/

/-- Take one Gong stamp: the previous plus 1 modulo 2^48, counting a wrap (R207, R217). -/
def takeStamp (s : State) : State :=
  { s with gng := { s.gng with
      next := s.gng.next + 1
      wrap := if s.gng.next = BitVec.allOnes 48 then s.gng.wrap + 1 else s.gng.wrap } }

/-- One event of a Carillon source: it is stamped, and makes an idle source pending or is lost
(R206, R226, R227). -/
def raise (n : Nat) (s : State) : State :=
  let x := s.src n
  let st := s.gng.next
  let y := if x.pending || x.active then { x with lost := true, count := satInc x.count, stamp := st }
           else { x with pending := true, stamp := st }
  (takeStamp s).setSrc n y

/-! ## The ports of the Gong (R215, R216) -/

/-- The port of a request: which one, the card alone knows (R215). -/
def gongPort (e : GongRequest) : Nat := Config.gongPort e % 64

/-- The requests that wait at the port of a request, oldest first (R215). -/
def State.atPort (s : State) (e : GongRequest) : List GongRequest := s.gng.held.filter (fun f => gongPort f == gongPort e)

/-- No port that waits has seen port p granted since it last was itself (R215). -/
def State.gongFree (s : State) (p : Nat) : Bool := s.gng.passed.all (fun w => w.1 == p || !w.2.contains p)

/-- A request waits at its port (R216). -/
def gongWait (e : GongRequest) (s : State) : State :=
  let p := gongPort e
  { s with gng := { s.gng with
      held := s.gng.held ++ [e]
      passed := if s.gng.passed.any (fun w => w.1 == p) then s.gng.passed else s.gng.passed ++ [(p, [])] } }

/-- Port p has been granted. -/
def gongPassed (p : Nat) (s : State) : State :=
  { s with gng := { s.gng with
      passed := (s.gng.passed.filter (fun w => s.gng.held.any (fun e => gongPort e == w.1))).map
        (fun w => if w.1 = p then (p, []) else (w.1, p :: w.2)) } }

/-- A request reaches its port: its activity goes on with its stamp, or waits. It waits where the Gong is behind, and
where its port may not be granted yet (R215, R216). -/
def askGong (e : GongRequest) (held : Bool) (act : State → State) (s : State) : State :=
  let p := gongPort e
  if held ∨ !(s.atPort e).isEmpty ∨ !s.gongFree p then gongWait e s
  else act (gongPassed p s)

/-- Count a firing of detector d, or a register access error as 31 (R578). -/
def countFlt (d : Nat) (s : State) : State :=
  { s with flt := { s.flt with cnt := s.flt.cnt.put 0 d (satInc (s.flt.cnt.find 0 d)) } }

/-- The requester's part of FLT_REGERR_ADDR (R580). -/
def requesterBits : Requester → Nat × Nat
  | .fn t => (t.val, 0)
  | .core c => (c.val, 1)
  | .smbus p => (4 + p.val, 1)

/-- A register access error (R571, R578, R580). -/
def regError (q : Requester) (off : Nat) (s : State) : State :=
  let s := { s with flt := { s.flt with
    regerr := satInc s.flt.regerr
    regerrAddr := pack [(26, (requesterBits q).1), (25, (requesterBits q).2), (0, off % 2 ^ 25)] } }
  raise 31 (countFlt 31 s)

/-! ## Fault records -/

/-- The containment levels of Table 20-2. -/
def lvlNone : Nat := 0
def lvlJob : Nat := 1
def lvlRing : Nat := 2
def lvlTables : Nat := 3
def lvlUnit : Nat := 4
def lvlStack : Nat := 5
def lvlCore : Nat := 6
def lvlCard : Nat := 7

/-- What a detector reports (Table 20-1). -/
structure Finding where
  detector : Nat
  level    : Nat
  location : Nat := 0
  info0    : Nat := 0
  info1    : Nat := 0

/-- The eight words of a record (Table 20-2). -/
def recordWords (f : Finding) (j : Option Job) (s : State) : List Reg :=
  let st := s.gng.next
  [ s.flt.next,
    fldv st 0 32,
    pack [(24, f.detector), (20, f.level), (0, fld st 32 16)],
    (match j with
      | some j => pack [(16, f.location % 65536), (15, 1), (8, j.ring), (0, j.tenant)]
      | none => pack [(16, f.location % 65536)]),
    (match j with | some j => j.jobId | none => 0),
    BitVec.ofNat 32 f.info0,
    BitVec.ofNat 32 f.info1,
    pack [(0, s.gng.era.toNat)] ]

/-- Write one fault record and give it the next number and a stamp (R573, R574). -/
def writeRecord (f : Finding) (j : Option Job) (s : State) : State :=
  let n := s.flt.next
  let ws := recordWords f j s
  let s := takeStamp s
  { s with flt := { s.flt with
      recs := s.flt.recs.put [] (n.toNat % 256) ws
      next := n + 1
      lastJob := if f.level = lvlJob then n else s.flt.lastJob } }

/-- A detector fires for no job in particular: it is counted, writes its record and raises source d
(R571, R573, R578; the order of the record's and the event's stamps is log 13). -/
def fire (f : Finding) (s : State) : State :=
  raise f.detector (writeRecord f none (countFlt f.detector s))

/-! ## Register accesses -/

/-- A register's address: an offset of PF0's block windows, or of a tenant page (R15, R149). -/
inductive RegAddr where
  | blk (off : Nat)
  | tpg (t : Nat) (off : Nat)
deriving DecidableEq, Repr

/-- The offset as FLT_REGERR_ADDR records it (R580). -/
def RegAddr.bar0 : RegAddr → Nat
  | .blk off => off
  | .tpg t off => if t = 0 then 0x1F00000 + off else off

/-- How a register access ends before the register is reached. -/
inductive Access where
  | go        -- the register answers
  | silent    -- no part of the card answers (log 7)
  | off       -- the window's domain is off (R97, R594)
  | notReady  -- a write before PWR_BOOT.ready (R119)
deriving DecidableEq, Repr

/-- VFs in effect (R136). -/
def State.vfs (s : State) : Nat :=
  min (min s.hif.numVfs.toNat 63) (if s.hif.ari then 63 else 7)

/-- Tenant t exists (R143). -/
def State.tenantExists (s : State) (t : Nat) : Bool :=
  decide (t = 0) || (s.hif.vfEnable && decide (t ≤ s.vfs))

/-- BRD_, PWR_, CLK_ and FLT_ windows: those R119 and R123 leave open. -/
def openWindow (off : Nat) : Bool := decide (off < 0x300000) || decide (0x1100000 ≤ off ∧ off < 0x1200000)

/-- A function's BAR0 answers: the link is up, the function exists with Memory Space Enable set, no FLR
runs and PF0 is in D0 (log 7). -/
def State.fnAnswers (s : State) (t : Nat) : Bool :=
  s.hif.linkUp && s.tenantExists t && (s.func t).mse && !(s.func t).flrBusy && decide (s.pwr.dstate = .d0)

/-- Judge a register access (R85, R86, R97, R119, R123, R145, R149, R594). -/
def access (q : Requester) (a : RegAddr) (wr : Bool) (s : State) : Access :=
  let reaches : Bool := match q, a with
    | .fn t, .blk _ => decide (t.val = 0) && s.fnAnswers 0
    | .fn t, .tpg u _ => decide (t.val = u) && s.fnAnswers u
    | .core _, .blk _ => s.on domMGT
    | .core _, .tpg u _ => s.on domMGT && decide (u = 0)
    | .smbus _, .blk off => decide (off < 0x100) && decide (s.boot.stage ≠ .unpowered ∧ s.boot.stage ≠ .aon)
    | .smbus _, .tpg _ _ => false
  if !reaches then .silent
  else match a with
    | .blk off =>
      if s.boot.stage = .recovery ∧ !openWindow off then .silent
      else if off < 0x100000 then (if s.on domAON then .go else .off)
      else if !s.on domMGT then .off
      else if wr && !s.boot.ready && !openWindow off then .notReady
      else .go
    | .tpg _ _ =>
      if s.boot.stage = .recovery then .silent
      else if !s.on domHIF then .off
      else if wr && !s.boot.ready then .notReady
      else .go

/-- A register write: its effect where the register answers. Before PWR_BOOT.ready a write is discarded, and counts as
an error where the write itself is one, at the offset `bad` (R18, R19, R119, R593). -/
def regWriteOr (bad : Option Nat) (q : Requester) (a : RegAddr) (f : State → State) (s : State) : State :=
  match access q a true s with
  | .go => f s
  | .off => regError q a.bar0 s
  | .silent => s
  | .notReady => match bad with
    | some off => regError q off s
    | none => s

/-- A register write that is no error in itself. -/
def regWrite (q : Requester) (a : RegAddr) (f : State → State) (s : State) : State := regWriteOr none q a f s

/-- A register read: the value and the effect of reading where the register answers. -/
def regRead (q : Requester) (a : RegAddr) (f : State → Reg × State) (s : State) : State :=
  match access q a false s with
  | .go => { (f s).2 with rdata := (f s).1.zeroExtend 64 }
  | .off => { regError q a.bar0 s with rdata := 0xFFFFFFFF }
  | .silent => { s with rdata := 0xFFFFFFFF }
  | .notReady => s

/-- A write carries the key of R593. -/
def keyed (v : BitVec 32) : Bool := decide (fld v 16 16 = 0x5A5A)

/-- The bits of a register that R593 makes subject to the key: PWR_RESET, MEM_FENCE_CMD, CHN_CTL, FLT_CTL and
FLT_FW_CTL. -/
def keyBits : RegAddr → BitVec 32
  | .blk 0x100030 => 1
  | .blk 0x800080 => 0xF
  | .blk 0x1000004 => 6
  | .blk 0x1100008 => 1
  | .blk 0x1108000 => 3
  | _ => 0

/-- A write without the key that sets a bit subject to it (R593). -/
def keyless (a : RegAddr) (v : BitVec 32) : Bool := !keyed v && decide (v &&& keyBits a ≠ 0)

/-- A write of a register with a key field (R593). -/
def keyWrite (q : Requester) (a : RegAddr) (v : BitVec 32) (f : State → State) (s : State) : State :=
  regWriteOr (if keyless a v then some a.bar0 else none) q a f s

/-! ## Device memory -/

/-- The byte at a physical address; an address nothing has written reads 0 (log 10). -/
def State.byte (s : State) (a : Nat) : Byte := Tbl.find 0 s.mem.cells a

/-- Write one byte, keeping the canonical form; the check bits of its beat are written with it (R362). A write that
covers a beat only in part goes through `writeForJob`. -/
def State.setByte (s : State) (a : Nat) (b : Byte) : State :=
  { s with mem := { s.mem with
      cells := Tbl.put 0 s.mem.cells a b
      ecc := s.mem.ecc.filter (fun e => e.1 != a / 8 * 8) } }

/-- Bytes of one 2 MiB page (05, "Device-memory translation"). -/
def pageBytes : Nat := 2097152

/-- Pages of one stack. -/
def stackPages : Nat := 12288

/-- Translate a tenant device address to a physical one (R155); none where R156 refuses it. -/
def State.translate (s : State) (t a : Nat) : Option Nat :=
  let x := s.tenant t
  let v := a / pageBytes
  if a < 2 ^ 40 ∧ v < x.mapCount.toNat then
    let e := s.mapEntry (x.mapBase.toNat + v)
    if e.valid then some (e.ppn.toNat * pageBytes + a % pageBytes) else none
  else none

/-- The stack of a physical address (R153, R360). -/
def stackOf (p : Nat) : Nat := p / pageBytes / stackPages

/-- The pseudo-channel of a physical address (R360). -/
def pseudoChannel (p : Nat) : Nat :=
  let a := p - stackOf p * 25769803776
  (a / 2 ^ 8 % 32) ^^^ (a / 2 ^ 16 % 32)

/-- Read n bytes of a tenant's device space; none where any byte is refused (R156). -/
def State.readTen (s : State) (t a n : Nat) : Option (List Byte) :=
  (List.range n).mapM (fun i => (s.translate t (a + i)).map s.byte)

/-- Write bytes to a tenant's device space; a byte without a valid entry reaches no page (R156). -/
def State.writeTen (s : State) (t a : Nat) (bs : List Byte) : State :=
  (bs.zipIdx).foldl (fun s x =>
    match s.translate t (a + x.2) with
    | some p => s.setByte p x.1
    | none => s) s

/-- Every byte of a region has a valid entry. -/
def State.mapped (s : State) (t a n : Nat) : Bool :=
  n == 0 || (List.range ((a + n - 1) / pageBytes - a / pageBytes + 1)).all
    (fun i => (s.translate t ((a / pageBytes + i) * pageBytes)).isSome)

/-- The 64 nonets of a 72-byte line (R30). -/
def lineNonets (bs : List Byte) : List Nonet := (List.range 64).map (packedNonet bs)

/-- Nonets filled with 0 to whole lines (R32). -/
def wholeLines (ns : List Nonet) : List Nonet := ns ++ List.replicate ((64 - ns.length % 64) % 64) 0

/-- Write nonets as whole lines from a line index on (R30-R32). -/
def State.writeLines (s : State) (t line : Nat) (ns : List Nonet) : State :=
  s.writeTen t (72 * line) (packNonets (wholeLines ns))

/-- The 16 words of a line of a tenant's device space. -/
def State.lineWords (s : State) (t line : Nat) : Option (List Word) :=
  (s.readTen t (72 * line) 72).map (fun bs =>
    (List.range 16).map (fun i => wordOf ((lineNonets bs).drop (4 * i))))

/-- A line's nonets from words, unlisted words 0. -/
def wordsNonets (ws : List Word) : List Nonet := ws.flatMap wordNonets

end Sys2Proof.Machine
end

