-- ==== Sys2Proof/Machine/Interrupts.lean ====
section
/-!
DEFINITION. What the rings and Carillon share: MSI-X messages, their blocking and the firing of a
completion ring (R202, R249-R258).
-/
namespace Sys2Proof.Machine

/-- The reset value of word w of an MSI-X table: each Vector Control word has its Mask bit set (log 7). -/
def msixDefault (w : Nat) : Reg := if w % 4 = 3 then 1 else 0

/-- Word w of a function's MSI-X table. -/
def Func.msixWord (f : Func) (w : Nat) : Reg := f.msix.find (msixDefault w) w

/-- Write word w of a function's MSI-X table. -/
def Func.setMsixWord (f : Func) (w : Nat) (v : Reg) : Func :=
  { f with msix := Tbl.put (msixDefault w) f.msix w v }

/-- An entry is blocked (R250). -/
def Func.blocked (f : Func) (e : Nat) : Bool :=
  bit (f.msixWord (4 * e + 3)) 0 || f.fnMask || !f.msixEn || !f.bme

/-- Send an MSI-X that nothing blocks: in L1 it is held until the link is in L0, and in D3hot until PF0 is in D0 (R254,
R256). -/
def sendMsix (t e : Nat) (s : State) : State :=
  if s.hif.l1 ∨ s.pwr.dstate ≠ .d0 then { s with hif := { s.hif with heldMsix := s.hif.heldMsix ++ [(t, e)] } }
  else s.emit (.msix t e)

/-- What was held is sent, in order, while the link is in L0 and PF0 in D0 (R254, R256). -/
def sendHeld (s : State) : State :=
  if s.hif.l1 ∨ s.pwr.dstate ≠ .d0 then s
  else forEach s.hif.heldMsix (fun m s => s.emit (.msix m.1 m.2)) { s with hif := { s.hif with heldMsix := [] } }

/-- One firing of an entry: sent, or kept in the pending bit array (R250). -/
def fireMsix (t e : Nat) (s : State) : State :=
  if (s.func t).blocked e then s.setFunc t { s.func t with pba := setBit (s.func t).pba e true }
  else sendMsix t e s

/-- WAKE# is driven low (R257). -/
def State.wakeLow (s : State) : Bool :=
  s.hif.pmeStatus && s.hif.pmeEn && decide (s.pwr.dstate ≠ .d0)

/-- One firing of CQ r: every uncovered completion is covered. In D3hot and D3cold it sets the
fire-pending flag and may set PME_Status (R251, R252, R256). -/
def fireCq (t r : Nat) (s : State) : State :=
  let x := s.ring t r
  if s.pwr.dstate = .d0 then fireMsix t r (s.setRing t r { x with uncovered := 0, firstAt := none })
  else
    let s := s.setRing t r { x with uncovered := 0, firstAt := none, firePending := true }
    if x.copy.wake && s.hif.pmeEn then { s with hif := { s.hif with pmeStatus := true } } else s

/-- C of a ring, as Carillon's copy has it (R251, R255). -/
def Ring.c (x : Ring) : Nat := x.copy.countM1.toNat + 1

/-- One completion is written on CQ r: it is counted, and the count may fire (R251). -/
def countCompletion (t r : Nat) (s : State) : State :=
  let x := s.ring t r
  let s := s.setRing t r { x with
    uncovered := x.uncovered + 1, firstAt := if x.uncovered = 0 then some s.now else x.firstAt }
  if x.uncovered + 1 ≥ x.c then fireCq t r s else s

/-- Stop SQ r with a cause and fire CQ r at once (R193, R252). -/
def stopRing (t r err : Nat) (s : State) : State :=
  let x := s.ring t r
  fireCq t r (s.setRing t r { x with stopped := true, err := BitVec.ofNat 4 err })

end Sys2Proof.Machine
end

