-- ==== Sys2Proof/Machine/MemoryOps.lean ====
section
/-!
DEFINITION. Deliverable bandwidth, reservations and their scale (R369-R378), and the tenants' pages.
-/
namespace Sys2Proof.Machine

/-- D_k in MB/s (R369, R370). -/
def State.deliv (s : State) (k : Nat) : Nat :=
  if (s.stack k).fenced then 0 else if (s.stack k).hot then 500000 else 600000

/-- The card's own reservation on a stack (R371); before PWR_BOOT.ready it reads as the Reset column of
Table 12-1 (log 31). -/
def State.cardRes (s : State) (k : Nat) : Nat :=
  if (s.stack k).fenced then 0 else if s.on (domMEM k) || !s.boot.ready then 40000 else 0

/-- The Roll unit's part on a stack (R373). -/
def State.rollRes (s : State) (k : Nat) : Nat :=
  (s.rol.map (fun e => e.2.parts.getD k 0)).sum

/-- Every other reservation on a stack: admitted jobs and Cymbal's streams (R372, R373). -/
def State.otherRes (s : State) (k : Nat) : Nat :=
  (s.sch.jobs.map (fun j => j.parts.getD k 0)).sum
  + (s.cym.streams.map (fun e => e.2.parts.getD k 0)).sum

/-- MEM_STACKk_RES. -/
def State.stackRes (s : State) (k : Nat) : Nat := s.cardRes k + s.rollRes k + s.otherRes k

/-- s_k × 65,536, rounded down (R377). -/
def State.scaleOf (s : State) (k : Nat) : Nat :=
  if s.otherRes k = 0 then 65536
  else min 65536 ((s.deliv k - s.rollRes k - s.cardRes k) * 65536 / s.otherRes k)

/-- Recompute s_k of stack k, raising its source on a change (R378). -/
def rescaleStack (k : Nat) (s : State) : State :=
  let v := BitVec.ofNat 17 (s.scaleOf k)
  if (s.stack k).scale = v then s
  else raise (288 + k) (s.setStack k { s.stack k with scale := v })

/-- Recompute s_k of every stack (R378). -/
def rescale (s : State) : State := forEach [0, 1, 2, 3] rescaleStack s

/-- The valid entries of tenant t's range: pool index and page (R154). -/
def State.pages (s : State) (t : Nat) : List (Nat × Nat) :=
  let x := s.tenant t
  (s.ten.map.filter (fun e => e.2.valid && decide (x.mapBase.toNat ≤ e.1)
    && decide (e.1 < x.mapBase.toNat + x.mapCount.toNat))).map (fun e => (e.1, e.2.ppn.toNat))

/-- A reservation placed in proportion to a list of pages, on each stack (R373). -/
def placed (mbs : Nat) (ps : List Nat) : List Nat :=
  [0, 1, 2, 3].map (fun k =>
    if ps.length = 0 then 0
    else ceilDiv (mbs * (ps.countP (fun p => p / stackPages == k))) ps.length)

/-- The excess over D_k, in MB/s, on the stacks where a part is placed (R374). -/
def State.excess (s : State) (parts : List Nat) : Nat :=
  ([0, 1, 2, 3].map (fun k =>
    if parts.getD k 0 = 0 then 0 else s.stackRes k + parts.getD k 0 - s.deliv k)).foldl max 0

/-- A tenant's admitted reservations (MEM_TEN_RESt). -/
def State.tenantRes (s : State) (t : Nat) : Nat :=
  ((s.sch.jobs.filter (fun j => j.tenant == t)).map (fun j => j.man.bw)).sum

/-- Pages of tenant t still to be zeroed hold its scrubbing bit (R165). -/
def State.scrubbing (s : State) (t : Nat) : Bool := s.ten.scrubQ.any (fun p => p.owner == some t)

/-- Put pages at the end of the scrub queue: a page already queued for the same owner stays once. -/
def queueScrub (owner : Option Nat) (ps : List Nat) (s : State) : State :=
  let new := ps.filter (fun p => !s.ten.scrubQ.any (fun q => q.ppn == p && q.owner == owner))
  let qs := new.map (fun p => ({ ppn := p, owner := owner } : ScrubPage))
  { s with ten := { s.ten with scrubQ := s.ten.scrubQ ++ qs } }

/-- Zero every byte of a region of physical memory, with its check bits (R162, R164, R362). -/
def zeroBytes (a n : Nat) (s : State) : State :=
  { s with mem := { s.mem with
      cells := s.mem.cells.filter (fun c => !(decide (a ≤ c.1) && decide (c.1 < a + n)))
      ecc := s.mem.ecc.filter (fun e => !(decide (a ≤ e.1) && decide (e.1 < a + n))) } }

/-- Stacks on which tenant t has a valid entry. -/
def State.onStack (s : State) (t k : Nat) : Bool := (s.pages t).any (fun p => p.2 / stackPages == k)

end Sys2Proof.Machine
end

