-- ==== Sys2Proof/Machine/JobOps.lean ====
section
/-!
DEFINITION. What every family may do to a job: release its tiles, charge its time, decide its
completion, fail it with a fault record, abort it; and what a link of the chain sends for it.
-/
namespace Sys2Proof.Machine

/-! ## Completion status codes (Table 6-6) -/

def stOk : BitVec 8 := 0x00
def stOkFlagged : BitVec 8 := 0x01
def stLimit : BitVec 8 := 0x10
def stBandwidth : BitVec 8 := 0x11
def stFormat : BitVec 8 := 0x12
def stTiles : BitVec 8 := 0x13
def stFault : BitVec 8 := 0x20
def stBarTimeout : BitVec 8 := 0x21
def stDamaged : BitVec 8 := 0x22
def stAborted : BitVec 8 := 0x23
def stMarker : BitVec 8 := 0x30

/-- A completion of a status and a detail. -/
def cpl (st : BitVec 8) (detail : Nat) : Cpl := { status := st, detail := BitVec.ofNat 16 detail }

/-! ## The chain's control flits -/

/-- This card is the head of its chain (R556). -/
def State.isHead (s : State) : Bool := !(s.link 0).up || ((s.link 0).partnerBypass && (s.link 0).partnerInDown)

/-- This card is the tail of its chain (R556). -/
def State.isTail (s : State) : Bool := !(s.link 1).up || ((s.link 1).partnerBypass && (s.link 1).partnerInDown)

/-- ModPrsL shows a cable (R548). -/
def Link.cabled (l : Link) : Bool := decide (l.cable ≠ .none)

/-- A neighbour's feed reaches the retimer over a cable that carries it end to end (R89, R90). -/
def State.cableFed (s : State) : Bool := [0, 1].any (fun x => decide ((s.link x).cable = .feed true))

/-- A link carries this card's flits: it is up, CHN is on and the retimer does not bypass (R548, R560). -/
def State.linkUsable (s : State) (x : Nat) : Bool := (s.link x).up && s.on domCHN && !s.chn.bypassing

/-- Flits of a replay buffer (R552). -/
def replayDepth : Nat := 128

/-- Put a flit on a link: it takes the next sequence number and stays in the replay buffer; beyond 128 flits that
wait for an acknowledgement it is not sent yet (R552). -/
def transmit (x : Nat) (m : BitVec 8 → Sent) (s : State) : State :=
  let l := s.link x
  let s := s.setLink x { l with txSeq := l.txSeq + 1, replay := l.replay ++ [m l.txSeq] }
  if l.replay.length < replayDepth then s.emit (.chain x (m l.txSeq)) else s

/-- Send one control flit on a link that is up (R552). -/
def sendCtrl (x : Nat) (c : Ctrl) (s : State) : State :=
  if s.linkUsable x then transmit x (fun q => .ctrl q c) s else s

/-- Send one flit of a message or an answer on a link (R552). -/
def sendFlit (x : Nat) (f : Flit) (s : State) : State := transmit x (fun q => .flit { f with seq := q }) s

/-- Send the transit flits that wait for a link's output, while it is free or carries their message (R555,
R567). -/
def pump : Nat → Nat → State → State
  | 0, _, s => s
  | n + 1, x, s =>
    let l := s.link x
    match l.fwd with
    | [] => s
    | f :: rest =>
      if l.up && (l.tx = .free || l.tx = .transit) then
        pump n x (sendFlit x f (s.setLink x { l with fwd := rest, tx := if f.last then .free else .transit }))
      else s

/-- Send on what waits for a link's output (R567). -/
def pumpAll (x : Nat) (s : State) : State := pump (s.link x).fwd.length x s

/-- A link's output is free again: what waited for it goes on (R567). -/
def freeOutput (x : Nat) (s : State) : State := pumpAll x (s.setLink x { s.link x with tx := .free })

/-- The ABORT flit that ends a message cut off mid-way (R561, R567). -/
def abortFlit : Flit := { kind := 3, last := true }

/-- A message of this card that its path's choke tears down: if some of it has left on a link, it is ended
there with ABORT (R291, R567). -/
def cutOutward (m : Msg) (s : State) : State :=
  if m.outward && decide (0 < m.sent) then freeOutput m.via (sendFlit m.via abortFlit s) else s

/-- A holder gives a spanning tag back at the head: the last holder frees it (R565). -/
def freeSpan (unit : BitVec 12) (key : BitVec 32) (s : State) : State :=
  let ts := s.chn.tags.map (fun g => if g.key = key then { g with holders := g.holders.filter (· ≠ unit) } else g)
  { s with chn := { s.chn with tags := ts.filter (fun g => !g.holders.isEmpty) } }

/-- A spanning job ends: its bell cores send SPAN_FREE to the head, which frees its own part itself (R565). -/
def spanRelease (j : Job) (s : State) : State :=
  if j.man.spans then
    if s.isHead then freeSpan s.chn.unit j.jobId s else sendCtrl 0 (.spanFree s.chn.unit j.jobId) s
  else s

/-! ## Tiles of a job -/

/-- The tiles of a width × height rectangle, by ordinal (R382). -/
def rect (origin w h : Nat) : List Nat :=
  (List.range (w * h)).map (fun o => origin + o / w * 32 + o % w)

/-- Tiles of a job's rectangle. -/
def Job.tiles (j : Job) : List Nat := rect j.origin j.man.width j.man.height

/-- Its tile count. -/
def Job.count (j : Job) : Nat := j.man.width * j.man.height

/-- Its tile-µs so far (R395). -/
def Job.tileUs (j : Job) : Nat := ceilDiv (j.ticks * j.count) 250

/-- The job holds its tiles. -/
def Job.holds (j : Job) : Bool := j.phase = .running || j.phase = .preempting || j.phase = .spilling

/-- Bring SCH_TENt_USED up to date with one job (R395). -/
def chargeJob (id : Nat) (s : State) : State :=
  match s.job? id with
  | none => s
  | some j =>
    let x := s.schTen j.tenant
    (s.setSchTen j.tenant { x with used := x.used + BitVec.ofNat 64 (j.tileUs - j.charged) }).modJob id
      (fun j => { j with charged := j.tileUs })

/-- A tile leaves its job: it stops and its tag becomes 0 (R284, R288). -/
def Tile.release (x : Tile) : Tile :=
  { x with running := false, tag := 0, sending := none, choked := false, wdog := 0,
           atBar := false, ended := false, lastJob := x.job, job := none }

/-- Tile i leaves its job. Of its outstanding transfers those that the memory port has accepted complete and the
others are discarded: which it has accepted, besides those it has taken a request of, is a free value (R332, log 140).
-/
def releaseTile (i : Nat) (s : State) : State :=
  let x := s.tile i
  if x.xfers.isEmpty then s.setTile i x.release
  else
    let (n, s) := s.draw
    let kept := (x.xfers.zipIdx.filter (fun e =>
      !e.1.accepted.isEmpty || decide (Config.fresh n / 2 ^ e.2 % 2 = 1))).map (·.1)
    s.setTile i { x.release with xfers := kept }

/-- Release the tiles of a job: its paths are choked and its tiles are free (R288). -/
def releaseTiles (id : Nat) (s : State) : State :=
  match s.job? id with
  | none => s
  | some j =>
    let mine := (if j.holds then j.tiles else []).filter (fun i => (s.tile i).job == some id)
    let seen := mine.any (fun i => !(s.tile i).sat.isEmpty)
    let held (m : Msg) : Bool := j.holds && m.tag.toNat == j.tag && j.tag != 0
    let cut := s.grd.msgs.filter held
    let s := forEach cut cutOutward { s with grd := { s.grd with msgs := s.grd.msgs.filter (fun m => !held m) } }
    let s := forEach mine releaseTile s
    (chargeJob id s).modJob id (fun j => { j with satSeen := j.satSeen || seen })

/-- The bytes of a descriptor's output buffer (Table 6-1). -/
def dOutLen (d : List Byte) : Nat := le d 40 4

/-- Flags [3:0] of a completion: saturation, layer repeated, seam, and output longer than its buffer (R197, R198,
R355). -/
def Job.flags (j : Job) : BitVec 4 :=
  BitVec.ofNat 4 ((if j.satSeen || j.outSat != 0 then 1 else 0) + (if j.layerRep then 2 else 0)
    + (if j.seam then 4 else 0) + (if dOutLen j.desc < j.outBytes then 8 else 0))

/-- Decide an admitted job's completion: its tiles are released and its tile-µs counted (R186, R288,
R395). A job already decided keeps its completion. -/
def finishJob (id : Nat) (st : BitVec 8) (detail : Nat) (s : State) : State :=
  match s.job? id with
  | none => s
  | some j =>
    if j.result.isSome then s
    else (releaseTiles id s).modJob id (fun j =>
      let fl := j.flags
      { j with
          phase := .finished, kept := none, keptFor := none, sampleDue := false, loadDue := false,
          streamDue := false, stageDue := false,
          result := some { status := if st = stOk ∧ fl ≠ 0 then stOkFlagged else st
                           detail := BitVec.ofNat 16 detail, flags := fl
                           tileUs := BitVec.ofNat 64 j.tileUs, outBytes := BitVec.ofNat 32 j.outBytes } })

/-- A detector fires for a job (R571, R573, R575, R576): the first one writes the record and decides the
completion; every one is counted and raises its source. -/
def fireJob (f : Finding) (id : Nat) (s : State) : State :=
  let s := countFlt f.detector s
  match s.job? id with
  | none => raise f.detector s
  | some j =>
    if j.result.isSome then raise f.detector s
    else
      let n := s.flt.next.toNat
      let s := (writeRecord f (some j) s).modJob id (fun j => { j with recorded := some n })
      let s := if f.detector = 0x05 then finishJob id stBarTimeout f.location s
               else finishJob id stFault (n % 65536) s
      raise f.detector s

/-- The finding of an access refused under R156 by a requester other than a tile (Table 20-1). -/
def refusedFinding (block a : Nat) : Finding :=
  { detector := 0x06, level := lvlJob, location := Config.blockCode block, info0 := a % 2 ^ 32, info1 := a / 2 ^ 32 % 256 }

/-- One event fails many jobs with the number of its record (R577). -/
def failJobs (ids : List Nat) (n : Nat) (s : State) : State :=
  forEach ids (fun id s =>
    finishJob id stFault (n % 65536)
      (s.modJob id (fun j => if j.result.isSome then j else { j with recorded := some n }))) s

/-- Every admitted job whose completion is not decided. -/
def State.live (s : State) : List Nat := (s.sch.jobs.filter (fun j => j.result.isNone)).map (·.id)

/-- The same, of one tenant. -/
def State.liveOf (s : State) (t : Nat) : List Nat :=
  (s.sch.jobs.filter (fun j => j.result.isNone && j.tenant == t)).map (·.id)

/-- The detector of a tile fault code: the watchdog, parity, the mesh codes, and instruction faults
(Table 20-1). -/
def tileDetector (code : Nat) : Nat :=
  if code = 1 then 0x01 else if code = 4 then 0x02 else if code < 0x10 then 0x04 else 0x03

/-- A tile stops with a fault code and its job fails (R297, R299, R332). -/
def tileFault (i code info1 : Nat) (s : State) : State :=
  let x := s.tile i
  let s := s.setTile i { x with fault := BitVec.ofNat 8 code, running := false }
  let s := if code = 1 ∨ code = 4 then
      { s with flt := { s.flt with tileHw := s.flt.tileHw.put 0 i (satInc (s.flt.tileHw.find 0 i)) } } else s
  let f : Finding := { detector := tileDetector code, level := lvlJob, location := i, info0 := code, info1 := info1 }
  match x.job with
  | some j => fireJob f j s
  | none => raise f.detector (countFlt f.detector s)

/-! ## Completions waiting on a ring -/

/-- The completion of a fetched descriptor, once decided. -/
def State.decision (s : State) (d : Inflight) : Option Cpl :=
  match d.st with
  | .decided c => some c
  | .admitted id => (s.job? id).bind (·.result)
  | .fetched => none
  | .spanWait _ => none

/-- Decide a fetched descriptor of ring (t, r) that is not admitted. -/
def decide1 (t r : Nat) (seq : BitVec 32) (st : InfSt) (s : State) : State :=
  let x := s.ring t r
  s.setRing t r { x with inflight := x.inflight.map (fun d => if d.seq = seq then { d with st := st } else d) }

/-- Every ring pair of a tenant. -/
def ringsOf : List Nat := [0, 1, 2, 3, 4, 5, 6, 7]

/-- Abort a tenant's admitted jobs and its fetched descriptors with a detail (R126, R131, R147, R161; a
descriptor fetched and not admitted is aborted too, log 32). -/
def abortTenant (t detail : Nat) (s : State) : State :=
  let s := forEach (s.liveOf t) (fun id s => finishJob id stAborted detail s) s
  forEach ringsOf (fun r s =>
    let x := s.ring t r
    if x.inflight.isEmpty then s
    else s.setRing t r { x with inflight := x.inflight.map (fun d =>
      match d.st with
      | .fetched => { d with st := .decided (cpl stAborted detail) }
      | .spanWait _ => { d with st := .decided (cpl stAborted detail) }
      | _ => d) }) s

/-- A job leaves the card: its reservation and its spill region are released (R375, R390). -/
def removeJob (id : Nat) (s : State) : State :=
  match s.job? id with
  | none => s
  | some j =>
    let s := spanRelease j (releaseTiles id s)
    rescale { s with sch := { s.sch with jobs := s.sch.jobs.filter (fun x => x.id != id) } }

/-- Abort a tenant's admitted jobs without a completion (R166, R168): what waits in its rings is lost. -/
def dropTenant (t : Nat) (s : State) : State :=
  let ids := (s.sch.jobs.filter (fun j => j.tenant == t)).map (·.id)
  forEach ringsOf (fun r s => s.setRing t r { s.ring t r with inflight := [], half := none })
    (forEach ids removeJob s)

/-- A tenant reset: its epoch rises by 1 and a marker is due on each of its enabled rings (R203, R204). -/
def tenantReset (t : Nat) (s : State) : State :=
  let s := s.setTenant t { s.tenant t with epoch := (s.tenant t).epoch + 1 }
  forEach ringsOf (fun r s =>
    let x := s.ring t r
    if x.enable then s.setRing t r { x with markerDue := true } else s) s

end Sys2Proof.Machine
end

