-- ==== Sys2Proof/Machine/StopOps.lean ====
section
/-!
DEFINITION. Claimed result lines (R519, R527), and how line ports, Cymbal streams and stacks are stopped
(R367, R463, R464, R546).
-/
namespace Sys2Proof.Machine

/-! ## Claimed result lines (R519) -/

/-- Claim a line of a tenant's device space. -/
def claimLine (t line : Nat) (s : State) : State :=
  match s.translate t (72 * line) with
  | some p => { s with mem := { s.mem with claims := s.mem.claims ++ [{ addr := p }] } }
  | none => s

/-- A physical address lies in a claimed line. -/
def State.claimedAt (s : State) (p : Nat) : Bool :=
  s.mem.claims.any (fun c => decide (c.addr ≤ p) && decide (p < c.addr + 72))

/-- Some line of a region of a tenant's device space is claimed: a reader waits. -/
def State.claimedIn (s : State) (t a n : Nat) : Bool :=
  !s.mem.claims.isEmpty && (List.range n).any (fun i => match s.translate t (a + i) with
    | some p => s.claimedAt p
    | none => false)

/-- Some line of regions of a tenant's device space is claimed. -/
def State.claimedAny (s : State) (t : Nat) (rs : List (Nat × Nat)) : Bool := rs.any (fun r => s.claimedIn t r.1 r.2)

/-- Keep a write behind the first claim of its line. -/
def behindClaim (p : Nat) (ns : List Nonet) : List Claim → List Claim
  | [] => []
  | c :: cs => if c.addr = p then { c with behind := c.behind ++ [ns] } :: cs else c :: behindClaim p ns cs

/-- Drop the first claim of a line. -/
def dropClaim (p : Nat) : List Claim → List Claim
  | [] => []
  | c :: cs => if c.addr = p then cs else c :: dropClaim p cs

/-- Write a claimed result line and then the writes that waited behind its claim (R519). -/
def writeResult (t line : Nat) (ws : List Word) (s : State) : State :=
  let full := wordsNonets (ws ++ List.replicate (16 - ws.length) 0)
  let s := s.writeLines t line full
  match s.translate t (72 * line) with
  | none => s
  | some p =>
    match s.mem.claims.find? (fun c => c.addr == p) with
    | none => s
    | some c =>
      let s := { s with mem := { s.mem with claims := dropClaim p s.mem.claims } }
      forEach c.behind (fun ns s => s.writeLines t line ns) s

/-- A unit writes a result line for a job: where the line has no valid entry, the access is refused and the job fails
(R156). -/
def writeResultFor (block job t line : Nat) (ws : List Word) (s : State) : State :=
  let ok := s.mapped t (72 * line) 72
  let s := writeResult t line ws s
  if ok then s else fireJob (refusedFinding block (72 * line)) job s

/-! ## Line ports -/

def portsAll : List Nat := [0, 1, 2, 3]

/-- LTRIG and EXSYNC of a port are driven low (R80, R113). -/
def linesLow (p : Nat) (s : State) : State := s.setPort p { s.port p with ltrig := 0, exsync := 0 }

def Port.trigCh (x : Port) : Nat := fld x.mot 0 4
def Port.stepCh (x : Port) : Nat := fld x.mot 4 4
def Port.dirCh (x : Port) : Nat := fld x.mot 8 4
def Port.stopCh (x : Port) : Nat := fld x.mot 12 4
def Port.mflt (x : Port) : Nat := fld x.mot 24 3
def Port.leader (x : Port) : Nat := fld x.mot 27 2
def Port.kind (x : Port) : Nat := fld x.mot 29 2

/-- The channels a port names; a follower names only its trigger channel (R454, R458). -/
def Port.channels (x : Port) : List Nat :=
  if x.kind = 2 then [x.trigCh] else [x.trigCh, x.stepCh, x.dirCh, x.stopCh]

/-- Disarm a channel. -/
def disarm (k : Nat) (s : State) : State := s.setChan k { s.chan k with armed := false }

/-- Force a channel's output. -/
def force (k : Nat) (v : BitVec 2) (s : State) : State := s.setChan k { s.chan k with outForce := v }

/-- Stop the motion of a port (R454). -/
def motionStop (p : Nat) (s : State) : State :=
  let x := s.port p
  let s := s.setPort p { x with moving := false }
  if x.kind = 0 then disarm x.stepCh s else if x.kind = 1 then force x.stepCh 1 s else s

/-- Disable a port: motion stops, its channels are disarmed, its reservation is released (R463). -/
def portOff (p : Nat) (err : BitVec 4) (s : State) : State :=
  let s := motionStop p s
  let x := s.port p
  let s := forEach x.channels disarm s
  rescale (s.setPort p { x with enable := false, state := .off, err := err, parts := [], issued := [],
                                requests := [], moving := false, ltrig := 0, exsync := 0, mfltStop := false, retrain := false })

/-- An enabled port stops with an error (R464). -/
def portStop (p : Nat) (err : BitVec 4) (s : State) : State :=
  if (s.port p).enable then raise (96 + 16 * p + 7) (portOff p err s) else s

/-- The followers of a port that was enabled stop with err 1 once it is not ("A follower's leader is
disabled"). -/
def stopFollowers (p : Nat) (s : State) : State :=
  forEach [0, 1, 2, 3] (fun q s =>
    let x := s.port q
    if q ≠ p ∧ x.enable ∧ x.kind = 2 ∧ x.leader = p ∧ !(s.port p).enable then portStop q 1 s else s) s

/-- Stop a port and its followers. -/
def portStopGroup (p : Nat) (err : BitVec 4) (s : State) : State := stopFollowers p (portStop p err s)

/-- Ports stop for one reason of their own, and then the followers that they leave without motion (R464). -/
def portsStop (ps : List Nat) (err : BitVec 4) (s : State) : State :=
  forEach ps stopFollowers (forEachAny ps (fun p s => portStop p err s) s)

/-- Stacks that hold a region of a tenant's device space. -/
def State.regionPages (s : State) (t a n : Nat) : List Nat :=
  if n = 0 then []
  else (List.range ((a + n - 1) / pageBytes - a / pageBytes + 1)).filterMap
    (fun i => (s.translate t ((a / pageBytes + i) * pageBytes)).map (· / pageBytes))

/-- A region touches stack k. -/
def State.regionOn (s : State) (k t a n : Nat) : Bool := (s.regionPages t a n).any (fun p => p / stackPages == k)

/-- A port's ring lies, in part, on stack k (R448). -/
def State.portOn (s : State) (k p : Nat) : Bool :=
  let x := s.port p
  s.regionOn k x.tenant.toNat x.base.toNat (x.slot.toNat * x.size.toNat)

/-! ## Cymbal streams -/

def Stream.dir (x : Stream) : Bool := bit x.cfg 31
def Stream.main10 (x : Stream) : Bool := bit x.cfg 30
def Stream.ink (x : Stream) : Bool := bit x.cfg 28
def Stream.inkQueue (x : Stream) : Nat := fld x.cfg 24 4
def Stream.layerEn (x : Stream) (l : Nat) : Bool := bit x.cfg (20 + l)
def Stream.tenant (x : Stream) : Nat := fld x.cfg 0 6

/-- b, the bytes per sample (R522). -/
def Stream.b (x : Stream) : Nat := if x.main10 then 2 else 1

/-- P, the lines of a picture's planes (R522). -/
def Stream.p (x : Stream) : Nat :=
  ceilDiv (x.width.toNat * x.height.toNat * x.b) 72 + 2 * ceilDiv (x.width.toNat * x.height.toNat * x.b) 288

/-- P_a, the lines of an alpha plane (R522). -/
def Stream.pa (x : Stream) : Nat := ceilDiv (x.width.toNat * x.height.toNat) 72

/-- NEED, the lines of a stream's area (R522). -/
def Stream.needLines (x : Stream) : Nat :=
  if x.dir then 17 * x.p
  else
    let e0 := if x.layerEn 0 then 1 else 0
    let eo := [1, 2, 3].countP x.layerEn
    2 * (1 + x.p) * e0 + 2 * (1 + x.p + x.pa) * eo + 3 * x.p

/-- Lines of layer l's buffer (R539). -/
def Stream.layerLines (x : Stream) (l : Nat) : Nat := if l = 0 then 1 + x.p else 1 + x.p + x.pa

/-- The regions a stream uses: (first line, lines) of its area, layers and output ring. -/
def Stream.regions (x : Stream) : List (Nat × Nat) :=
  (x.area.toNat, x.areaLines.toNat)
    :: (if x.dir then [(x.out.toNat, x.outSlots.toNat * (1 + x.p))]
        else ([0, 1, 2, 3].filter x.layerEn).map (fun l => ((x.layers.find 0 l).toNat, x.layerLines l)))

/-- A stream's area, layers or output ring lie on stack k (Table 18-7). -/
def State.streamOn (s : State) (k n : Nat) : Bool :=
  let x := s.stream n
  x.regions.any (fun r => s.regionOn k x.tenant (72 * r.1) (72 * r.2))

/-- CYM's place in Table 21-1. -/
def cymBlock : Nat := 14

/-- Answer a picture request: its result line is written, and the job has one picture less to wait for
(R527, R530). -/
def answerPicture (r : CymReq) (ws : List Word) (s : State) : State :=
  let x := s.stream r.stream
  let s := writeResultFor cymBlock r.job x.tenant (x.rslt.toNat + r.slot) ws s
  s.modJob r.job (fun j => { j with pictures := j.pictures - 1 })

/-- The result words of a request that codes nothing: status, tag and damage record (Table 18-3). -/
def failedPicture (r : CymReq) (status : Nat) (dmg : Nat) : List Word :=
  [BitVec.ofNat 36 (status * 2 ^ 18), r.words.getD 1 0, 0, BitVec.ofNat 36 dmg, 0]

/-- A stream stops: the picture in service is abandoned, its requests are answered with status 3 and its
reservation is released (R546; the state it leaves is log 33). -/
def streamStop (n : Nat) (err : BitVec 4) (s : State) : State :=
  let x := s.stream n
  if !x.enable then s
  else
    let mine := s.cym.reqs.filter (fun r => r.stream == n)
    let inService := match s.cym.service with
      | some v => if v.req.stream = n then [v.req] else []
      | none => []
    let s := { s with cym := { s.cym with
      reqs := s.cym.reqs.filter (fun r => r.stream != n)
      service := if inService.isEmpty then s.cym.service else none } }
    let s := forEach (inService ++ mine) (fun r s => answerPicture r (failedPicture r 3 0) s) s
    let x := s.stream n
    let y := if err = 9 then { x with state := 2, err := err, parts := [], waiting := [] }
             else { x with enable := false, state := 0, err := err, parts := [], waiting := [] }
    raise (224 + 4 * n + 2) (rescale (s.setStream n y))

/-! ## Tenants that are lost, and stacks that are fenced -/

/-- An enabled queue of a tenant that is lost: its samples are discarded, enable becomes 0 and err 4 (R492). -/
def queueLost (t n : Nat) (s : State) : State :=
  let x := s.queue n
  if bit x.cfg 31 ∧ fld x.cfg 0 6 = t then s.setQueue n { x with cfg := setBit x.cfg 31 false, err := 4, samples := [] }
  else s

/-- A tenant is disabled, reset or gone: its ports and streams stop with err 5, and its queues with err 4 (R464,
R492, R546). -/
def tenantLost (t : Nat) (s : State) : State :=
  let s := forEach (List.range 16) (queueLost t) s
  let s := portsStop (portsAll.filter (fun p => (s.port p).enable && (s.port p).tenant.toNat == t)) 5 s
  forEach [0, 1, 2, 3, 4, 5, 6, 7] (fun n s => if (s.stream n).tenant = t then streamStop n 5 s else s) s

/-- The causes of a fence, in the order of R366. -/
def causeErrors : Nat := 1
def causeTraining : Nat := 2
def causeSensor : Nat := 3
def causeCommand : Nat := 4

/-- Fence stack k (R367). -/
def fence (k cause : Nat) (s : State) : State :=
  if (s.stack k).fenced then s
  else
    let ports := portsAll.filter (fun p => (s.port p).enable && s.portOn k p)
    let streams := [0, 1, 2, 3, 4, 5, 6, 7].filter (s.streamOn k)
    let victims := s.live.filter (fun id => match s.job? id with
      | some j => s.onStack j.tenant k
      | none => false)
    let n := s.flt.next.toNat
    let s := s.setStack k { s.stack k with fenced := true }
    let s := fire { detector := 0x08, level := lvlStack, location := k, info0 := cause,
                    info1 := (s.stack k).ue.toNat } s
    let s := failJobs victims n (raise (296 + k) s)
    let bad := s.ten.map.filter (fun e => e.2.valid && e.2.ppn.toNat / stackPages == k)
    let s := forEach bad (fun e s => s.setMap e.1 { e.2 with valid := false }) s
    let s := { s with ten := { s.ten with
      scrubQ := s.ten.scrubQ.filter (fun p => p.ppn / stackPages != k) } }
    let s := s.setDom (domMEM k) false
    let s := portsStop ports 6 s
    rescale (forEach streams (fun n s => streamStop n 6 s) s)

end Sys2Proof.Machine
end

