-- ==== Sys2Proof/Machine/Beats.lean ====
section
/-!
DEFINITION. Reading beats of device memory: correctable and uncorrectable errors (R362-R366).
-/
namespace Sys2Proof.Machine

/-- Ticks of the time counter in one second. -/
def ticksPerSecond : Nat := 250000000

/-- What the code reports for a beat: none, correctable (false) or uncorrectable (true). -/
def State.beat (s : State) (a : Nat) : Option Bool := (s.mem.ecc.find? (fun e => e.1 == a)).map (·.2)

/-- The stored bits of a beat change: the code now reports `bad` for it (R364). -/
def upset (a : Nat) (bad : Bool) (s : State) : State :=
  { s with mem := { s.mem with ecc := (a, bad) :: s.mem.ecc.filter (fun e => e.1 != a) } }

/-- A read finds a single-bit error: the beat is corrected and written back, and counted (R363). -/
def correctBeat (a : Nat) (s : State) : State :=
  let k := stackOf a
  let s := { s with mem := { s.mem with ecc := s.mem.ecc.filter (fun e => e.1 != a) } }
  raise (304 + k) (s.setStack k { s.stack k with ce := satInc (s.stack k).ce })

/-- A read finds an uncorrectable error: it is counted and its address kept; enough of them within one
second fence the stack (R364, R366). -/
def uncorrectableBeat (a : Nat) (s : State) : State :=
  let k := stackOf a
  let times := s.now :: (s.stack k).ueTimes.filter (fun t => decide (s.now < t + ticksPerSecond))
  let s := s.setStack k { s.stack k with ue := satInc (s.stack k).ue, ueTimes := times }
  let s := raise (300 + k) { s with mem := { s.mem with errAddr := BitVec.ofNat 37 a } }
  if times.length ≥ s.mem.ueThreshold.toNat then fence k causeErrors s else s

/-- Read one beat: the state after it, and whether it returned its data. -/
def readBeat (a : Nat) (s : State) : Bool × State :=
  match s.beat a with
  | none => (true, s)
  | some false => (true, correctBeat a s)
  | some true => (false, s)

/-- Read beats in turn up to the first uncorrectable one. -/
def readBeats : List Nat → State → Option Nat × State
  | [], s => (none, s)
  | a :: as, s =>
    match readBeat a s with
    | (true, s) => readBeats as s
    | (false, s) => (some a, s)

/-- The beats of a region of a tenant's device space, those without a valid entry left out. -/
def State.tenBeats (s : State) (t a n : Nat) : List Nat :=
  ((List.range (n / 8 + 2)).filterMap (fun i =>
    let x := a / 8 * 8 + 8 * i
    if x < a + n then s.translate t x else none))

/-- The finding of an uncorrectable beat (Table 20-1). -/
def beatFinding (level a : Nat) : Finding :=
  { detector := 0x07, level := level, location := stackOf a, info0 := a % 2 ^ 32, info1 := a / 2 ^ 32 }

/-- Read beats for a job: at the first uncorrectable one the job fails (R364). -/
def readForJob (job : Nat) (beats : List Nat) (s : State) : Option Nat × State :=
  match readBeats beats s with
  | (none, s) => (none, s)
  | (some a, s) => (some a, uncorrectableBeat a (fireJob (beatFinding lvlJob a) job s))

/-- Read regions of a tenant's device space for a job: the first refusal or uncorrectable beat fails the job (R156,
R364). True where all were read. -/
def readRegions (block job t : Nat) : List (Nat × Nat) → State → Bool × State
  | [], s => (true, s)
  | (a, n) :: rest, s =>
    if !s.mapped t a n then (false, fireJob (refusedFinding block a) job s)
    else match readForJob job (s.tenBeats t a n) s with
      | (none, s) => readRegions block job t rest s
      | (some _, s) => (false, s)

/-! ## Writes that cover beats in part (R362, R364) -/

/-- The beats that a write of n bytes covers only in part. -/
def State.partBeats (s : State) (t a n : Nat) : List Nat :=
  ((if a % 8 = 0 ∨ n = 0 then [] else [a / 8 * 8])
    ++ (if (a + n) % 8 = 0 ∨ n = 0 then [] else [(a + n) / 8 * 8])).eraseDups.filterMap (s.translate t)

/-- Read and correct the beats that a write merges into; those that are uncorrectable, which fail the job. -/
def mergeBeats (job : Nat) : List Nat → State → List Nat × State
  | [], s => ([], s)
  | a :: as, s =>
    let x := readForJob job [a] s
    let y := mergeBeats job as x.2
    (x.1.toList ++ y.1, y.2)

/-- Write bytes to a tenant's device space, but for the bytes of some beats. -/
def State.writeBut (s : State) (bad : List Nat) (t a : Nat) (bs : List Byte) : State :=
  (bs.zipIdx).foldl (fun s x =>
    match s.translate t (a + x.2) with
    | some p => if bad.contains (p / 8 * 8) then s else s.setByte p x.1
    | none => s) s

/-- A write for a job: a beat that it covers only in part is read, corrected and merged; a partial write to an
uncorrectable beat is not performed, and its job fails (R362-R364). -/
def writeForJob (job t a : Nat) (bs : List Byte) (s : State) : State :=
  let x := mergeBeats job (s.partBeats t a bs.length) s
  x.2.writeBut x.1 t a bs

/-- Write nonets as whole lines for a job. -/
def writeLinesFor (job t line : Nat) (ns : List Nonet) (s : State) : State :=
  writeForJob job t (72 * line) (packNonets (wholeLines ns)) s

end Sys2Proof.Machine
end

