-- ==== Sys2Proof/Machine/Operands.lean ====
section
/-!
DEFINITION. The number formats and the conversions between them (02): what a code means, and the code of
an exact value, rounded once and saturated.
-/
namespace Sys2Proof.Machine

/-- The formats of Table 2-1. -/
inductive Fmt where
  | u8 | s8 | n9 | s4 | s18 | s36 | fp32 | fp16 | bf16 | e4m3 | e5m2 | f18 | f36
deriving DecidableEq, Repr

/-- The codes of Table 6-2; 0x00 and the codes above 0x0D name none. -/
def Fmt.ofCode : Nat → Option Fmt
  | 1 => some .u8 | 2 => some .s8 | 3 => some .n9 | 4 => some .s4 | 5 => some .s18 | 6 => some .s36
  | 7 => some .fp32 | 8 => some .fp16 | 9 => some .bf16 | 10 => some .e4m3 | 11 => some .e5m2
  | 12 => some .f18 | 13 => some .f36 | _ => none

/-- Bits of a code (Table 2-1). -/
def Fmt.bits : Fmt → Nat
  | .u8 => 8 | .s8 => 8 | .n9 => 9 | .s4 => 4 | .s18 => 18 | .s36 => 36 | .fp32 => 32 | .fp16 => 16
  | .bf16 => 16 | .e4m3 => 8 | .e5m2 => 8 | .f18 => 18 | .f36 => 36

/-- Exponent bits, fraction bits and bias of a floating format (Table 2-1). -/
def Fmt.float? : Fmt → Option (Nat × Nat × Int)
  | .fp32 => some (8, 23, 127) | .fp16 => some (5, 10, 15) | .bf16 => some (8, 7, 127)
  | .e4m3 => some (4, 3, 7) | .e5m2 => some (5, 2, 15) | .f18 => some (7, 10, 63) | .f36 => some (8, 27, 127)
  | _ => none

/-- The largest finite code of a floating format (Table 2-2). -/
def Fmt.maxCode : Fmt → Nat
  | .fp32 => 0x7F7FFFFF | .fp16 => 0x7BFF | .bf16 => 0x7F7F | .e4m3 => 0x7E | .e5m2 => 0x7B
  | .f18 => 0x1FBFF | .f36 => 0x7F7FFFFFF | _ => 0

/-- The canonical NaN of a floating format (Table 2-2). -/
def Fmt.nanCode : Fmt → Nat
  | .fp32 => 0x7FC00000 | .fp16 => 0x7E00 | .bf16 => 0x7FC0 | .e4m3 => 0x7F | .e5m2 => 0x7E
  | .f18 => 0x1FE00 | .f36 => 0x7FC000000 | _ => 0

/-- The code of +infinity (Table 2-2); E4M3 has none (R47). -/
def Fmt.infCode : Fmt → Nat
  | .fp32 => 0x7F800000 | .fp16 => 0x7C00 | .bf16 => 0x7F80 | .e5m2 => 0x7C
  | .f18 => 0x1FC00 | .f36 => 0x7F8000000 | _ => 0

/-- Smallest and largest value of an integer format (Table 2-1). -/
def Fmt.range : Fmt → Int × Int
  | .u8 => (0, 255) | .s8 => (-128, 127) | .n9 => (-256, 255) | .s4 => (-8, 7)
  | .s18 => (-131072, 131071) | .s36 => (-34359738368, 34359738367) | _ => (0, 0)

/-- An exact value: (-1)^neg × mag × 2^exp, an infinity, or a NaN. A zero keeps its sign. -/
inductive Val where
  | fin (neg : Bool) (mag : Nat) (exp : Int)
  | inf (neg : Bool)
  | nan
deriving DecidableEq, Repr

/-- An integer as a value. -/
def Val.ofInt (x : Int) : Val := .fin (decide (x < 0)) x.natAbs 0

/-- The value of a floating code (R46, R47). -/
def decodeFloat (f : Fmt) (e : Nat) (m : Nat) (bias : Int) (c : Nat) : Val :=
  let neg := c / 2 ^ (e + m) % 2 == 1
  let ex := c / 2 ^ m % 2 ^ e
  let fr := c % 2 ^ m
  if ex = 2 ^ e - 1 ∧ (f ≠ .e4m3 ∨ fr = 2 ^ m - 1) then
    if f ≠ .e4m3 ∧ fr = 0 then .inf neg else .nan
  else if ex = 0 then .fin neg fr (1 - bias - m)
  else .fin neg (2 ^ m + fr) (ex - bias - m)

/-- The value of a code of any format (R41-R48). -/
def Fmt.value (f : Fmt) (c : Nat) : Val :=
  match f.float? with
  | some (e, m, bias) => decodeFloat f e m bias (c % 2 ^ f.bits)
  | none =>
    let c := c % 2 ^ f.bits
    if f = .u8 then .ofInt c
    else .ofInt (if c < 2 ^ (f.bits - 1) then (c : Int) else (c : Int) - 2 ^ f.bits)

/-- mag × 2^sh rounded to an integer, ties away from zero or to even (R60, R61). -/
def roundShift (mag : Nat) (sh : Int) (away : Bool) : Nat :=
  if 0 ≤ sh then mag * 2 ^ sh.toNat
  else
    let d := 2 ^ (-sh).toNat
    let q := mag / d
    let r := mag % d
    if 2 * r > d ∨ (2 * r = d ∧ (away ∨ q % 2 = 1)) then q + 1 else q

/-- mag1 × 2^e1 > mag2 × 2^e2. -/
def magAbove (mag1 : Nat) (e1 : Int) (mag2 : Nat) (e2 : Int) : Bool :=
  let m := min e1 e2
  decide (mag1 * 2 ^ (e1 - m).toNat > mag2 * 2 ^ (e2 - m).toNat)

/-- The largest finite magnitude of a floating format. -/
def Fmt.maxMag (f : Fmt) : Nat × Int :=
  match f.value f.maxCode with
  | .fin _ m e => (m, e)
  | _ => (0, 0)

/-- The magnitude rounded to the precision of a floating format, as if its exponents were unbounded above
(R58, R60, R63, R66). -/
def roundFloat (e : Nat) (m : Nat) (bias : Int) (mag : Nat) (exp : Int) (away : Bool) : Nat :=
  let _ := e
  if mag = 0 then 0
  else
    let lead : Int := Nat.log2 mag + exp
    let q := max (lead - m) (1 - bias - m)
    let k := roundShift mag (exp - q) away
    ((q + bias + m - 1).toNat) * 2 ^ m + k

/-- The formats whose saturation ieee_overflow governs (R66). -/
def Fmt.overflows (f : Fmt) : Bool := f = .e5m2 || f = .fp16 || f = .bf16 || f = .fp32

/-- A floating code with its sign. -/
def Fmt.signed (f : Fmt) (neg : Bool) (c : Nat) : Nat := if neg then c + 2 ^ (f.bits - 1) else c

/-- An integer as a code. -/
def Fmt.intCode (f : Fmt) (x : Int) : Nat := (x % 2 ^ f.bits).toNat

/-- A narrowing conversion (R58-R69): the code, and whether it counts a saturation event. -/
def Fmt.convert (f : Fmt) (away ovf : Bool) (v : Val) : Nat × Bool :=
  match f.float? with
  | some (e, m, bias) =>
    match v with
    | .nan => (f.nanCode, false)
    | .inf neg => (f.signed neg (if ovf && f.overflows then f.infCode else f.maxCode), true)
    | .fin neg mag exp =>
      let c := roundFloat e m bias mag exp away
      if magAbove mag exp f.maxMag.1 f.maxMag.2 then
        if ovf && f.overflows then (f.signed neg (if c > f.maxCode then f.infCode else c), true)
        else (f.signed neg f.maxCode, true)
      else (f.signed neg c, false)
  | none =>
    match v with
    | .nan => (0, true)
    | .inf neg => (f.intCode (if neg then f.range.1 else f.range.2), true)
    | .fin neg mag exp =>
      let top := if neg then f.range.1.natAbs else f.range.2.natAbs
      if magAbove mag exp top 0 then (f.intCode (if neg then f.range.1 else f.range.2), true)
      else (f.intCode (if neg then - (roundShift mag exp away : Int) else (roundShift mag exp away : Int)), false)

/-- An exact conversion: infinities stay, a NaN becomes the target's canonical NaN (R56). -/
def Fmt.carry (f : Fmt) (v : Val) : Nat :=
  match v with
  | .inf neg => if f.float?.isSome then f.signed neg f.infCode else (f.convert false false v).1
  | _ => (f.convert false false v).1

/-- An IEEE 754 result stored in its own format: a finite result rounds once and saturates, an infinity
stays (R310, log 30). -/
def Fmt.store (f : Fmt) (away : Bool) (v : Val) : Nat × Bool :=
  match v with
  | .inf _ => if f.float?.isSome then (f.carry v, false) else f.convert away false v
  | _ => f.convert away false v

/-! ## Exact arithmetic -/

def Val.neg : Val → Val
  | .fin n m e => .fin (!n) m e
  | .inf n => .inf (!n)
  | .nan => .nan

/-- The signed magnitude over 2^e, for e at most the value's own exponent. -/
def scaled (neg : Bool) (mag : Nat) (exp e : Int) : Int :=
  let x : Int := mag * 2 ^ (exp - e).toNat
  if neg then -x else x

/-- The exact sum (R310, R342): a zero sum is -0 only when both are -0. -/
def Val.add : Val → Val → Val
  | .nan, _ => .nan
  | _, .nan => .nan
  | .inf a, .inf b => if a = b then .inf a else .nan
  | .inf a, _ => .inf a
  | _, .inf b => .inf b
  | .fin na ma ea, .fin nb mb eb =>
    let e := min ea eb
    let x := scaled na ma ea e + scaled nb mb eb e
    if x = 0 then .fin (na && nb && ma == 0 && mb == 0) 0 0 else .fin (decide (x < 0)) x.natAbs e

/-- The exact product (R310, R342): an infinity times zero is NaN. -/
def Val.mul : Val → Val → Val
  | .nan, _ => .nan
  | _, .nan => .nan
  | .inf a, .inf b => .inf (a != b)
  | .inf a, .fin n m _ => if m = 0 then .nan else .inf (a != n)
  | .fin n m _, .inf b => if m = 0 then .nan else .inf (n != b)
  | .fin na ma ea, .fin nb mb eb => .fin (na != nb) (ma * mb) (ea + eb)

/-- a is below b: NaN below every number, -0 below +0 (R310). -/
def Val.below : Val → Val → Bool
  | _, .nan => false
  | .nan, _ => true
  | .inf a, .inf b => a && !b
  | .inf a, .fin _ _ _ => a
  | .fin _ _ _, .inf b => !b
  | .fin na ma ea, .fin nb mb eb =>
    let e := min ea eb
    let x := scaled na ma ea e
    let y := scaled nb mb eb e
    decide (x < y) || (decide (x = y) && na && !nb)

/-- The exact sum of a list; the sum of none is +0. -/
def Val.sum : List Val → Val
  | [] => .fin false 0 0
  | [x] => x
  | x :: xs => Val.add x (Val.sum xs)

/-- The factor (32 + m) × 2^(-e-5) of an SC8 code (R50-R52). -/
def sc8 (n : Nonet) : Val := .fin false (32 + fld n 0 5) (-(fld n 5 3 : Int) - 5)

/-! ## Elements of nonets -/

/-- Elements in a vector register (Table 10-4). -/
def Fmt.elements : Fmt → Nat
  | .n9 | .s8 | .e4m3 | .e5m2 => 64
  | .s18 | .f18 => 32
  | .s36 | .f36 => 16
  | .s4 => 144
  | _ => 0

/-- Element e of a list of nonets laid out as in Table 10-4 (R42-R45). -/
def Fmt.element (f : Fmt) (ns : List Nonet) (e : Nat) : Nat :=
  match f with
  | .s18 | .f18 => joinBits ((ns.drop (2 * e)).take 2)
  | .s36 | .f36 => joinBits ((ns.drop (4 * e)).take 4)
  | .s4 => joinBits ((ns.drop (4 * (e / 9))).take 4) / 2 ^ (4 * (e % 9)) % 16
  | .e4m3 | .e5m2 => (ns.getD e 0).toNat % 256
  | _ => (ns.getD e 0).toNat

/-- The nonets of a list of codes, laid out as in Table 10-4. -/
def Fmt.nonets (f : Fmt) (cs : List Nat) : List Nonet :=
  match f with
  | .s18 | .f18 => cs.flatMap (fun c => [BitVec.ofNat 9 c, BitVec.ofNat 9 (c / 512)])
  | .s36 | .f36 => cs.flatMap (fun c => wordNonets (BitVec.ofNat 36 c))
  | .s4 => (chunks 9 cs.length cs).flatMap (fun g =>
      wordNonets (BitVec.ofNat 36 (joinBits (g.map (fun c => BitVec.ofNat 4 c)))))
  | .s8 => cs.map (fun c => (BitVec.ofNat 8 c).signExtend 9)
  | _ => cs.map (fun c => BitVec.ofNat 9 c)

/-- Nonets of one element, for the formats of whole nonets; 4 for a word of nine S4. -/
def Fmt.elementNonets : Fmt → Nat
  | .s18 | .f18 => 2
  | .s36 | .f36 | .s4 => 4
  | _ => 1

/-- The tile conversions of Table 2-3. -/
def tilePair (src tgt : Fmt) : Bool :=
  match tgt with
  | .f36 => src = .n9 || src = .s18 || src = .f18 || src = .s36
  | .f18 => src = .e4m3 || src = .e5m2 || src = .f36
  | .e4m3 | .e5m2 | .n9 | .s8 | .s4 | .s18 => src = .f36
  | _ => false

/-- The output rows of Table 2-3 and the same-format pairs (R394). -/
def outputPair (card host : Fmt) : Bool :=
  card = host ||
  match card with
  | .n9 => host = .u8 || host = .s8
  | .f36 => host = .fp32 || host = .fp16 || host = .bf16
  | .f18 => host = .fp16
  | _ => false

/-- One conversion between two formats: the rows Table 2-3 marks exact are carried (R56), the others
narrow. -/
def convertCode (src tgt : Fmt) (away ovf : Bool) (c : Nat) : Nat × Bool :=
  let exact := src = tgt || match tgt with
    | .f36 => src = .n9 || src = .s18 || src = .f18 || src = .bf16 || src = .fp32
    | .f18 => src = .e4m3 || src = .e5m2 || src = .fp16
    | _ => false
  if exact then (tgt.carry (src.value c), false)
  else tgt.convert away ovf (src.value c)

/-! ## Loads from and writes to host buffers (R34-R40, R53, R54, R176, R592) -/

/-- The nonets a direct load of a buffer gives: of its bytes, format, layout and zero point (Table 2-3). -/
def loadNonets (f : Fmt) (widened : Bool) (z : Nat) (bs : List Byte) : List Nonet :=
  match f with
  | .u8 => bs.map (fun b => BitVec.ofInt 9 ((b.toNat : Int) - z))
  | .s8 => bs.map (fun b => b.signExtend 9)
  | .e4m3 | .e5m2 => bs.map (fun b => BitVec.ofNat 9 (convertCode f f false false b.toNat).1)
  | .s4 => Fmt.s4.nonets (bs.flatMap (fun b => [b.toNat % 16, b.toNat / 16]))
  | .fp16 => Fmt.f18.nonets ((List.range (bs.length / 2)).map (fun i =>
      (convertCode .fp16 .f18 false false (le bs (2 * i) 2)).1))
  | .bf16 => Fmt.f36.nonets ((List.range (bs.length / 2)).map (fun i =>
      (convertCode .bf16 .f36 false false (le bs (2 * i) 2)).1))
  | .fp32 => Fmt.f36.nonets ((List.range (bs.length / 4)).map (fun i =>
      (convertCode .fp32 .f36 false false (le bs (4 * i) 4)).1))
  | .n9 | .s18 | .s36 | .f18 | .f36 =>
    let n := (if widened then bs.length / 2 else 8 * bs.length / 9) / f.elementNonets
    let ns := (List.range (n * f.elementNonets)).map (if widened then widenedNonet bs else packedNonet bs)
    f.nonets ((List.range n).map (fun i => (convertCode f f false false (f.element ns i)).1))

/-- The bytes output stage 1 writes for the elements of a tensor, and its saturation events (R39, R40,
R55, R176, R394). -/
def outputBytes (card host : Fmt) (widened : Bool) (z : Nat) (ns : List Nonet) : List Byte × Nat :=
  let n := if card = .s4 then ns.length / 4 * 9 else ns.length / card.elementNonets
  let cs := (List.range n).map (card.element ns)
  let out : List (Nat × Bool) := cs.map (fun c =>
    if host = .u8 then Fmt.u8.convert false false (Val.add (card.value c) (.ofInt z))
    else convertCode card host false false c)
  let codes := out.map (·.1)
  let bytes := match host with
    | .n9 | .s18 | .s36 | .f18 | .f36 => if widened then widenNonets (host.nonets codes) else packNonets (host.nonets codes)
    | .s4 => (chunks 2 codes.length codes).map (fun g => BitVec.ofNat 8 (g.getD 0 0 + 16 * g.getD 1 0))
    | .fp16 | .bf16 => codes.flatMap (leBytes 2)
    | .fp32 => codes.flatMap (leBytes 4)
    | _ => codes.map (fun c => BitVec.ofNat 8 c)
  (bytes, out.countP (·.2))

end Sys2Proof.Machine
end

