-- ==== Sys2Proof/Machine/RingOps.lean ====
section
/-!
DEFINITION. What the rings share: when a tenant's work may be fetched, the bytes of a completion entry and
its two writes, and the checks of a descriptor (R144, R175-R205, R385).
-/
namespace Sys2Proof.Machine

/-! ## When the card fetches and writes for a tenant -/

/-- A completion of an abort has still to be written for tenant t (R131, R147). -/
def State.abortsLeft (s : State) (t : Nat) : Bool :=
  ringsOf.any (fun r => (s.ring t r).inflight.any (fun d =>
    (s.decision d).any (fun c => c.status == stAborted)))

/-- The link carries requests of tenant t's function: it is up and in L0, PF0 is in D0 and the function's
Bus Master Enable is 1 (R130, R147, R254). -/
def State.linkOk (s : State) (t : Nat) : Bool :=
  s.hif.linkUp && !s.hif.l1 && decide (s.pwr.dstate = .d0) && s.tenantExists t
    && (s.func t).bme && !(s.func t).flrBusy

/-- Aborted completions of the last entry to D3hot have still to be written, and can be: nothing is fetched before them
(R131, R147, log 129). -/
def State.d3Left (s : State) : Bool := s.pwr.d3Due.any (fun t => s.abortsLeft t && (s.func t).bme && s.tenantExists t)

/-- The card fetches work for tenant t (R119, R144, R161, R166, R582). -/
def State.mayFetch (s : State) (t : Nat) : Bool :=
  s.linkOk t && (s.func t).mse && (s.tenant t).enable && !(s.tenant t).disabling
    && !s.scrubbing t && s.boot.ready && !s.boot.resetting && s.firmware (coreOf t)

/-- Admitted jobs of tenant t. -/
def State.admittedOf (s : State) (t : Nat) : Nat := s.sch.jobs.countP (fun j => j.tenant == t)

/-- The tenant and the card have room for another job (R385). -/
def State.admitRoom (s : State) (t : Nat) : Bool :=
  decide (s.admittedOf t < (s.schTen t).maxAdm.toNat) && decide (s.sch.jobs.length < 4096)

/-! ## Completion entries -/

/-- The phase bit of completion index j (R195). -/
def phaseOf (k : Nat) (j : BitVec 32) : Nat := if j.toNat / 2 ^ k % 2 = 0 then 1 else 0

/-- The 32 bytes of a completion entry (Table 6-5). -/
def entryBytes (phase r : Nat) (jobId : BitVec 32) (stamp : BitVec 48) (c : Cpl) (seq : BitVec 32) : List Byte :=
  leBytes 1 phase ++ leBytes 1 c.status.toNat ++ leBytes 1 c.flags.toNat ++ leBytes 1 r
    ++ leBytes 4 jobId.toNat ++ leBytes 6 stamp.toNat ++ leBytes 2 c.detail.toNat
    ++ leBytes 8 c.tileUs.toNat ++ leBytes 4 c.outBytes.toNat ++ leBytes 4 seq.toNat

/-- The host address of completion index j. -/
def Ring.entryAddr (x : Ring) (j : BitVec 32) : BitVec 64 :=
  x.cqBase + BitVec.ofNat 64 (32 * (j.toNat % 2 ^ x.k.toNat))

/-- The two writes of an entry, in order: bytes 1-31, then the phase byte (R134, R196). -/
def emitEntry (t r : Nat) (j : BitVec 32) (bs : List Byte) (s : State) : State :=
  let a := (s.ring t r).entryAddr j
  (s.emit (.write t (a + 1) (bs.drop 1) false)).emit (.write t a (bs.take 1) false)

/-- The card reads n bytes of a host buffer for tenant t, in requests of at most Max_Read_Request_Size (R133, R142,
log 150). -/
def emitReads (t addr n : Nat) (s : State) : State :=
  let m := (s.func t).mrrs
  forEach (List.range (ceilDiv n m)) (fun k s =>
    s.emit (.readBuf t (BitVec.ofNat 64 (addr + k * m)) (min m (n - k * m)))) s

/-- The card writes bytes of a host buffer for tenant t, in order, in requests of at most Max_Payload_Size (R133, R142,
R201, log 150). -/
def emitWrites (t addr : Nat) (bs : List Byte) (s : State) : State :=
  let m := (s.func 0).mps
  forEach (chunks m bs.length bs).zipIdx (fun p s =>
    s.emit (.write t (BitVec.ofNat 64 (addr + p.2 * m)) p.1 (s.func t).relaxed)) s

/-- The CQ has space for one more entry (R186). -/
def Ring.space (x : Ring) : Bool := decide ((x.cqTail - x.cqCons).toNat < 2 ^ x.k.toNat)

/-- Write one entry to CQ r: it takes a stamp and a completion index, and Carillon counts it (R200, R206,
R251). -/
def writeEntry (t r : Nat) (jobId seq : BitVec 32) (c : Cpl) (s : State) : State :=
  let x := s.ring t r
  let j := x.cqTail
  let bs := entryBytes (phaseOf x.k.toNat j) r jobId s.gng.next c seq
  let s := emitEntry t r j bs (takeStamp s)
  let s := s.setRing t r { s.ring t r with cqTail := j + 1 }
  let s := if s.hif.cxl then s.setTenant t { s.tenant t with hintDue := true } else s
  countCompletion t r s

/-- The job identifier of a descriptor. -/
def Inflight.jobId (d : Inflight) : BitVec 32 := BitVec.ofNat 32 (le d.desc 4 4)

/-- The link, the firmware and the ring's space allow one more entry (R186, R582). -/
def State.mayComplete (s : State) (t : Nat) (x : Ring) : Bool :=
  s.linkOk t && s.firmware (coreOf t) && x.space && x.half.isNone

/-- The oldest descriptor of SQ r is decided and its completion can be written (R186, R199). -/
def State.headDone (s : State) (t r : Nat) : Bool :=
  (match (s.ring t r).inflight with
    | [] => false
    | d :: _ => (s.decision d).isSome) && s.mayComplete t (s.ring t r)

/-- Write the completion of the oldest descriptor of SQ r, if it is decided and space and the link allow;
its job leaves the card (R186, R199, R390). -/
def completeHead (t r : Nat) (s : State) : State :=
  let x := s.ring t r
  match x.inflight with
  | [] => s
  | d :: rest =>
    match s.decision d with
    | none => s
    | some c =>
      if s.mayComplete t x then
        let s := s.setRing t r { x with inflight := rest }
        let s := writeEntry t r d.jobId d.seq c s
        match d.st with
        | .admitted id => removeJob id s
        | _ => s
      else s

/-- Write every completion of SQ r that can be written now, at most n. -/
def drainRing : Nat → Nat → Nat → State → State
  | 0, _, _, s => s
  | n + 1, t, r, s => drainRing n t r (completeHead t r s)

/-- Every tenant. -/
def tenants : List Nat := List.range 64

/-- Write what can be written of every ring, each in its order (R126, R131). -/
def drainAll (s : State) : State :=
  forEach tenants (fun t s => forEach ringsOf (fun r s =>
    drainRing (s.ring t r).inflight.length t r s) s) s

/-! ## Descriptors -/

/-- The first reserved byte that is not 0, by the fields of Table 6-1 that reserve whole bytes or bits. -/
def reservedByte (d : List Byte) : Option Nat :=
  if 8 ≤ le d 1 1 then some 1
  else if le d 2 1 ≠ 0 then some 2
  else if le d 3 1 ≠ 0 then some 3
  else none

/-- The first offending byte of a descriptor with index i (R175, R182; the manifest address is judged with
the manifest, log 41). -/
def badByte (i : BitVec 32) (d : List Byte) : Option Nat :=
  if 1 < le d 0 1 then some 0
  else match reservedByte d with
    | some b => some b
    | none =>
      if 0x0D < le d 28 1 ∨ (le d 28 1 = 0 ∧ le d 24 4 ≠ 0) then some 28
      else if 0x0D < le d 29 1 then some 29
      else if le d 60 4 ≠ i.toNat then some 60
      else none

/-- The descriptor's fence flag (R179). -/
def fenced (d : List Byte) : Bool := le d 1 1 / 4 % 2 == 1

/-- The oldest descriptor of SQ r that is not yet checked: the checks go in ring order. -/
def Ring.unchecked (x : Ring) : Option Inflight := x.inflight.find? (fun d => d.st == .fetched)

/-- No descriptor of SQ r before the one with this index waits for its spanning tag. -/
def Ring.clearBefore (x : Ring) (i : BitVec 32) : Bool :=
  (x.inflight.takeWhile (fun d => d.seq != i)).all (fun d => match d.st with
    | .spanWait _ => false
    | _ => true)

end Sys2Proof.Machine
end

