-- ==== Sys2Proof/Machine/WoodblockOps.lean ====
section
/-!
DEFINITION. A compare channel's match, the level of its pin, and arming (R424-R437).
-/
namespace Sys2Proof.Machine

/-- The position counter of a base: POS0-POS3 for bases 1-4. -/
def basePos (b : BitVec 3) : Nat := b.toNat - 1

/-- A channel counts in time. -/
def Chan.timeBase (x : Chan) : Bool := decide (x.base = 0)

/-- The level WB_OUTk takes from a match (R435). -/
def Chan.act (x : Chan) : Chan :=
  match x.action.toNat with
  | 1 => { x with level := true, pulse := 0 }
  | 2 => { x with level := false, pulse := 0 }
  | 3 => { x with level := !x.level, pulse := 0 }
  | 4 => { x with level := true, pulse := x.pw.toNat + 1 }
  | _ => x

/-- STEP as a match of channel k adds it: P, as read at enable, on the trigger channel of an enabled port (R427,
R447). -/
def State.stepOf (s : State) (k : Nat) : BitVec 32 :=
  match portsAll.find? (fun p => (s.port p).enable && (s.port p).trigCh == k) with
  | some p => (s.port p).pitch
  | none => (s.chan k).step

/-- The channel after a match: auto-add of a step, REMAIN, its output action (R427, R435). -/
def Chan.match (x : Chan) (step : BitVec 32) : Chan :=
  let sum := if x.timeBase then x.cmp + step.zeroExtend 40
             else (x.cmp.extractLsb' 32 8) ++ (x.cmp.extractLsb' 0 32 + step)
  let x := { x with
    cmp := if step = 0 then x.cmp else sum
    remain := if x.remain = 0 then 0 else x.remain - 1
    armed := x.armed && decide (x.remain ≠ 1)
    matched := true }
  x.act

/-- The position a line-trigger request of channel k carries: its own counter's, or where it counts in
time that of the port's trigger channel (log 46). -/
def State.requestPos (s : State) (k p : Nat) : BitVec 32 :=
  let x := s.chan k
  if x.timeBase then (s.pos (basePos (s.chan (s.port p).trigCh).base)).val else (s.pos (basePos x.base)).val

/-- Send one line-trigger request to the port a channel names (R437). -/
def routeTrigger (k : Nat) (s : State) : State :=
  let n := (s.chan k).lport.toNat
  if 1 ≤ n ∧ n ≤ 4 then
    s.setPort (n - 1) { s.port (n - 1) with
      requests := (s.port (n - 1)).requests ++ [s.requestPos k (n - 1)] }
  else s

/-- Channel k matches: its registers, its pin, its events in any order and its trigger (R209, R427, R428, R435,
R437). -/
def matchChannel (k : Nat) (s : State) : State :=
  let x := s.chan k
  routeTrigger k (forEachAny (if x.remain = 1 then [32 + k, 48 + k] else [32 + k]) raise (s.setChan k (x.match (s.stepOf k))))

/-- Arm channel k. A capture's filter starts at its pin's level (log 134). A time base is checked for lateness, and
matches at once when the counter equals CMP (R426). -/
def armChannel (k : Nat) (s : State) : State :=
  let x := { s.chan k with armed := true, edges := 0, matched := false
                           seen := bit s.wbk.pins (s.chan k).capSrc.toNat, seenFor := 0 }
  if x.mode = 1 ∧ x.timeBase then
    let d := x.cmp - s.wbk.time
    if 2 ^ 39 ≤ d.toNat then raise (64 + k) (s.setChan k { x with armed := false, late := true })
    else if d = 0 then matchChannel k (s.setChan k x)
    else s.setChan k x
  else s.setChan k x

/-- The motor-driver stop of R82 holds channel k's pin low: it is the step or direction channel of a port
whose MFLT# is low (R82, R460). -/
def State.motorStop (s : State) (k : Nat) : Bool :=
  [0, 1, 2, 3].any (fun p =>
    let x := s.port p
    decide (x.mflt < 4) && decide (x.kind ≠ 2) && !bit s.car.levels (16 + x.mflt)
      && (x.stepCh == k || x.dirCh == k))

/-- The level on WB_OUTk (R436). -/
def State.wbOut (s : State) (k : Nat) : Bool :=
  let x := s.chan k
  if !s.on domMGT || s.pwr.tripped || s.flt.halted then false
  else if s.motorStop k then false
  else if x.outForce = 1 then false
  else if x.outForce = 2 then true
  else x.level

end Sys2Proof.Machine
end

