-- ==== Sys2Proof/Machine/RollOps.lean ====
section
/-!
DEFINITION. The Roll unit's shared operations: a port's format and ring, the group of a leader, motion, and
the stop, back-up and restart of Table 15-2 (R439-R461).
-/
namespace Sys2Proof.Machine

/-! ## A port's configuration (Table 15-3) -/

def Port.ser (x : Port) : Nat := [1, 2, 4, 0].getD (fld x.fmt 24 2) 0
def Port.lanes (x : Port) : Nat := 2 ^ fld x.fmt 22 2
/-- h, or 0 where the code is refused. -/
def Port.h (x : Port) : Nat := [1, 2, 3, 4, 6, 8].getD (fld x.fmt 19 3) 0
def Port.colour (x : Port) : Bool := bit x.fmt 18
/-- c, the rows of a line. -/
def Port.rows (x : Port) : Nat := if x.colour then 3 else 1
/-- d, the bits of a pixel. -/
def Port.depth (x : Port) : Nat := [8, 10, 12, 16].getD (fld x.fmt 16 2) 8
/-- W, the pixels of a row. -/
def Port.w (x : Port) : Nat := fld x.fmt 0 16 + 1
/-- W_s, the stored pixels of a row (R446). -/
def Port.ws (x : Port) : Nat := x.w / x.h
/-- b, the bytes of a stored pixel (R449). -/
def Port.b (x : Port) : Nat := if x.depth = 8 then 1 else 2
/-- S (R449). -/
def Port.slotBytes (x : Port) : Nat := 72 * (1 + ceilDiv (x.rows * x.ws * x.b) 72)
/-- The bits of a line on one pair (R444). -/
def Port.lineBits (x : Port) : Nat := 16 + x.rows * ceilDiv x.w x.lanes * x.depth
/-- M_p in MB/s (R451). -/
def Port.mbs (x : Port) : Nat := ceilDiv (x.rate.toNat * x.slotBytes) 1000000
/-- EXSYNC ticks, the time in µs to a sync word, and LTRIG ticks. -/
def Port.exp (x : Port) : Nat := fld x.trig 16 16
def Port.solUs (x : Port) : Nat := fld x.trig 8 8
def Port.ltrigW (x : Port) : Nat := fld x.trig 0 8
def Port.fwdHigh (x : Port) : Bool := bit x.mot 31

/-- The rate of a pair keeps R439 and the line rate R444, at a sensor clock in kHz. -/
def Port.rateOk (x : Port) (khz : Nat) : Bool :=
  decide (x.ser ≠ 0) && decide (x.ser * khz * 1000 ≤ 1000000000)
    && decide (x.rate.toNat ≤ 200000) && decide (x.rate.toNat * x.lineBits ≤ x.ser * khz * 1000)

/-- The fill of a port's ring (R450). -/
def Port.fill (x : Port) : Nat := (x.wr - x.rd).toNat

/-- The position counter of port p: that of its trigger channel. -/
def State.posOf (s : State) (p : Nat) : Nat := basePos (s.chan (s.port p).trigCh).base

/-! ## Groups (R459) -/

/-- The leader of port p's group. -/
def State.leaderOf (s : State) (p : Nat) : Nat := if (s.port p).kind = 2 then (s.port p).leader else p

/-- The enabled members of port p's group. -/
def State.group (s : State) (p : Nat) : List Nat :=
  portsAll.filter (fun m => (s.port m).enable && s.leaderOf m == s.leaderOf p)

/-! ## Motion (R454) -/

/-- Set the direction of a port. -/
def setDirection (p : Nat) (fwd : Bool) (s : State) : State :=
  let x := s.port p
  if x.kind = 2 then s else force x.dirCh (if fwd = x.fwdHigh then 2 else 1) s

/-- Start motion in one step (R454). -/
def startMotion (p : Nat) (s : State) : State :=
  let x := s.port p
  if x.kind = 2 then s
  else
    let s := s.setPort p { x with moving := true }
    if x.kind = 0 then
      let c := s.chan x.stepCh
      armChannel x.stepCh (s.setChan x.stepCh { c with cmp := s.wbk.time + 2500, remain := 0 })
    else force x.stepCh 2 s

/-! ## Stop, back-up and restart (Table 15-2) -/

/-- Step 1: the motion of the group stops, and every member in run or in run-up is stopping. A member in
run-up keeps its Q (R457, R459, log 47). -/
def stopBegin (p : Nat) (s : State) : State :=
  forEach (s.group p) (fun m s =>
    let x := s.port m
    if x.state = .run ∨ x.state = .runup then s.setPort m { x with state := .stopping } else s)
    (motionStop (s.leaderOf p) s)

/-- a is at or below b, modulo 2^32 (R452, R457). -/
def atOrBelow (a b : BitVec 32) : Bool := (b - a).toInt ≥ 0

/-- The lower of two positions, modulo 2^32. -/
def lowerPos (a b : BitVec 32) : BitVec 32 := if atOrBelow a b then a else b

/-- A port has gone through step 4 and has not restarted. -/
def PortState.settled (x : PortState) : Bool :=
  match x with
  | .waitLow | .backup | .settleBack | .fault => true
  | _ => false

/-- Step 3: a refused trigger fixes Q and disarms the trigger channel. A line that is lost after a later trigger has
been refused takes Q back to its own position, and RESTART_POS with it after step 4, so that no position is passed
over (R26, R443, R452, log 136). -/
def fixQ (p : Nat) (pos : BitVec 32) (s : State) : State :=
  let x := s.port p
  let q := match x.q with
    | some q => lowerPos q pos
    | none => pos
  disarm x.trigCh (s.setPort p { x with
    q := some q, refusedSince := true, restartPos := if x.state.settled then q else x.restartPos })

/-- A trigger is refused: counted, and a stop begins or goes on (R456, R457 steps 3 and 9). -/
def refuseTrigger (p : Nat) (pos : BitVec 32) (s : State) : State :=
  let x := s.port p
  let s := raise (96 + 16 * p) (s.setPort p { x with refused := satInc x.refused })
  match x.state with
  | .run => fixQ p pos (stopBegin p s)
  | .runup => fixQ p pos (stopBegin p s)
  | .off => s
  | .train => s
  | _ => fixQ p pos s

/-- The fill of a port has reached high water in run (R457). -/
def highWater (p : Nat) (s : State) : State :=
  let x := s.port p
  if x.state = .run ∧ x.hw.toNat ≤ x.fill then raise (96 + 16 * p + 1) (stopBegin p s) else s

/-- Step 4: the position has settled; Q is fixed and the port waits for low water, or is in fault after a fall
of its MFLT# (R457, R460). -/
def settleStop (p : Nat) (s : State) : State :=
  let x := s.port p
  let q := x.q.getD ((s.chan x.trigCh).cmp.extractLsb' 0 32)
  let s := disarm x.trigCh s
  s.setPort p { x with q := some q, restartPos := q, state := if x.mfltStop then .fault else .waitLow }

/-- MFLT# of a port is high, or none is assigned. -/
def State.mfltHigh (s : State) (p : Nat) : Bool :=
  let x := s.port p
  decide (4 ≤ x.mflt) || bit s.car.levels (16 + x.mflt)

/-- B of a group: the lowest Q − RUNUP of its members (R457, R459). -/
def State.groupB (s : State) (ms : List Nat) : BitVec 32 :=
  match ms.map (fun m => (s.port m).restartPos - (s.port m).runup) with
  | [] => 0
  | b :: bs => bs.foldl lowerPos b

/-- The members of a list of ports that are in a state. -/
def State.inState (s : State) (ms : List Nat) (st : PortState) : List Nat := ms.filter (fun m => (s.port m).state == st)

/-- Ports take a state. -/
def setStates (ms : List Nat) (st : PortState) (s : State) : State :=
  forEach ms (fun m s => s.setPort m { s.port m with state := st }) s

/-- Every member of port p's group is at or below its low water and waits there; one that still trains has no part in
the sequence (R459, log 108). -/
def State.groupLow (s : State) (p : Nat) : Bool :=
  (s.group p).all (fun m => let x := s.port m
    (x.state == .waitLow || x.state == .train) && decide (x.fill ≤ x.lw.toNat))

/-- Step 5: every member waits at or below its low water; the leader backs up to B, or is there already. -/
def backUp (p : Nat) (s : State) : State :=
  let l := s.leaderOf p
  let ms := s.inState (s.group p) .waitLow
  if (s.port l).enable ∧ !ms.isEmpty ∧ s.groupLow p ∧ ms.all s.mfltHigh then
    let b := s.groupB ms
    let x := s.port l
    if atOrBelow (s.pos (s.posOf l)).val b then setStates ms .settleBack s
    else
      let c := s.chan x.stopCh
      let s := setDirection l false s
      let s := s.setChan x.stopCh { c with
        cmp := b.zeroExtend 40, base := (s.chan x.trigCh).base, mode := 1, edgeDir := 2, action := 0 }
      let s := startMotion l (armChannel x.stopCh s)
      setStates ms .backup s
  else s

/-- Step 6: stop_ch has matched. -/
def stopMatched (k : Nat) (s : State) : State :=
  forEach portsAll (fun p s =>
    let x := s.port p
    let ms := s.inState (s.group p) .backup
    if x.enable ∧ x.kind ≠ 2 ∧ x.stopCh = k ∧ !ms.isEmpty then
      setStates ms .settleBack (disarm k (motionStop p s))
    else s) s

/-- Step 7: every member's trigger channel is armed at its own Q, and motion starts while CTL.motion is 1. -/
def runUp (l : Nat) (s : State) : State :=
  let ms := s.inState (s.group l) .settleBack
  let s := setDirection l true s
  let s := forEach ms (fun m s =>
    let x := s.port m
    let c := s.chan x.trigCh
    let s := armChannel x.trigCh (s.setChan x.trigCh { c with cmp := x.restartPos.zeroExtend 40 })
    s.setPort m { s.port m with state := .runup, refusedSince := false }) s
  if (s.port l).motion then startMotion l s else s

/-- The back-up of port p's group is given up: its motion stops and its members wait at step 5 again (R460; 15, "MFLT#
falls during back-up", log 108). -/
def leaveBackUp (p : Nat) (s : State) : State :=
  let l := s.leaderOf p
  let ms := s.inState (s.group p) .backup ++ s.inState (s.group p) .settleBack
  if ms.isEmpty then s else setStates ms .waitLow (disarm (s.port l).stopCh (motionStop l s))

/-- The MFLT# of port p has fallen: a stop begins, and a port that is past step 4 is in fault at once (R457, R460). -/
def portFault (p : Nat) (s : State) : State :=
  let x := s.port p
  let s := raise (96 + 16 * p + 6) (s.setPort p { x with mfltStop := true })
  if x.state.settled then
    let s := leaveBackUp p s
    s.setPort p { s.port p with state := .fault }
  else if x.state = .run ∨ x.state = .runup then stopBegin p s
  else s

/-- MFLT# k has fallen: each port it is assigned to stops (R457, R460). -/
def mfltFall (k : Nat) (s : State) : State :=
  forEachAny (portsAll.filter (fun p => (s.port p).enable && (s.port p).mflt == k)) portFault s

/-! ## Matches -/

/-- A match, and what it does to a port whose stop_ch it is (R428, R457 step 6). -/
def matchAndStop (k : Nat) (s : State) : State := stopMatched k (matchChannel k s)

/-- An enabled port owns channel k (R453). -/
def State.owned (s : State) (k : Nat) : Bool :=
  portsAll.any (fun p => (s.port p).enable && (s.port p).channels.contains k)

/-! ## Stored lines -/

/-- The stored pixels of a received row (R446). -/
def average (h d : Nat) (row : List (BitVec 16)) : List Nat :=
  (List.range (row.length / h)).map (fun i =>
    (((row.drop (h * i)).take h).foldl (fun a v => a + v.toNat % 2 ^ d) 0 + h / 2) / h)

/-- The bytes of the rows of a slot (R449). -/
def Port.rowBytes (x : Port) (rows : List (List (BitVec 16))) : List Byte :=
  rows.flatMap (fun r => (average x.h x.depth r).flatMap (leBytes x.b))

/-- A number from its bits, most significant first. -/
def msbFirst (bs : List Bool) : Nat := bs.foldl (fun n b => 2 * n + b.toNat) 0

/-- The sync word of R441. -/
def syncWord : List Bool := (List.range 16).map (fun i => bit (0xB62C : BitVec 16) (15 - i))

/-- Pixel i of colour row c, from the bits that the used pairs carried from the sync word on (R441). -/
def Port.pixel (x : Port) (pairs : List (List Bool)) (c i : Nat) : BitVec 16 :=
  let at' := 16 + (c * ceilDiv x.w x.lanes + i / x.lanes) * x.depth
  BitVec.ofNat 16 (msbFirst (((pairs.getD (i % x.lanes) []).drop at').take x.depth))

/-- The rows of a line, in the order R, G, B (R441). -/
def Port.deframe (x : Port) (pairs : List (List Bool)) : List (List (BitVec 16)) :=
  (List.range x.rows).map (fun c => (List.range x.w).map (x.pixel pairs c))

/-- Bits that the used pairs of a port carry for one line: on each the sync word, in the same bit periods, and its
pixels (R441, R444). -/
def Port.framed (x : Port) (pairs : List (List Bool)) : Bool :=
  decide (pairs.length = x.lanes)
    && pairs.all (fun bs => decide (bs.length = x.lineBits) && decide (bs.take 16 = syncWord))

/-- Every used pair of a port has shown 64 consecutive aligned training words (R440). -/
def Port.aligned (x : Port) (pairs : List (List (BitVec 16))) : Bool :=
  decide (pairs.length = x.lanes)
    && pairs.all (fun ws => decide (64 ≤ ws.length) && (ws.drop (ws.length - 64)).all (· == 0x0F35))

/-- A line record header (Table 15-1). -/
def Port.header (x : Port) (k : BitVec 64) (l : Issued) : List Byte :=
  leBytes 8 k.toNat ++ leBytes 4 l.pos.toNat
    ++ leBytes 2 ((if l.seam then 1 else 0) + (if x.colour then 2 else 0)) ++ leBytes 2 (x.ws - 1)
    ++ leBytes 8 l.time.toNat ++ leBytes 4 x.restarts.toNat ++ leBytes 1 x.depth ++ leBytes 1 x.h
    ++ List.replicate 42 0

/-- The whole slot of a line: header, rows, and zeros to S bytes. -/
def Port.slotOf (x : Port) (k : BitVec 64) (l : Issued) (rows : List (List (BitVec 16))) : List Byte :=
  let bs := x.header k l ++ x.rowBytes rows
  bs ++ List.replicate (x.slotBytes - bs.length) 0

/-- The tenant device address of line k's slot (R449). -/
def Port.slotAddr (x : Port) (k : BitVec 64) : Nat := x.base.toNat + x.slotBytes * (k.toNat % x.size.toNat)

end Sys2Proof.Machine
end

