-- ==== Sys2Proof/Machine/InkOps.lean ====
section
/-!
DEFINITION. A job's descriptor, the fields of an Intake queue, and the checks of a source before admission
(R466-R474, R488, R489, R505, R506, R592).
-/
namespace Sys2Proof.Machine

/-! ## Descriptor fields (Table 6-1) -/

def dJobId (d : List Byte) : Nat := le d 4 4
def dManifest (d : List Byte) : Nat := le d 8 8
def dInAddr (d : List Byte) : Nat := le d 16 8
def dInLen (d : List Byte) : Nat := le d 24 4
def dInFmt (d : List Byte) : Nat := le d 28 1
def dOutFmt (d : List Byte) : Nat := le d 29 1
def dZero (d : List Byte) : Nat := le d 30 1
def dSrc (d : List Byte) : Nat := le d 31 1
def dOutAddr (d : List Byte) : Nat := le d 32 8
def dParam (d : List Byte) : Nat := le d 44 4
def dAuxAddr (d : List Byte) : Nat := le d 48 8
def dAuxLen (d : List Byte) : Nat := le d 56 4
def dInWide (d : List Byte) : Bool := le d 1 1 % 2 == 1
def dOutWide (d : List Byte) : Bool := le d 1 1 / 2 % 2 == 1
/-- The source kind and the queue of src_kind (R466). -/
def dKind (d : List Byte) : Nat := dSrc d % 16
def dQueue (d : List Byte) : Nat := dSrc d / 16

/-! ## Queues (Table 16-6) -/

def Queue.enable (x : Queue) : Bool := bit x.cfg 31
def Queue.aug (x : Queue) : Bool := bit x.cfg 30
def Queue.cache (x : Queue) : Bool := bit x.cfg 29
/-- c, the coarse factor. -/
def Queue.coarse (x : Queue) : Nat := 2 ^ fld x.cfg 26 2
def Queue.kind (x : Queue) : Nat := fld x.cfg 23 3
def Queue.port (x : Queue) : Nat := fld x.cfg 21 2
def Queue.tenant (x : Queue) : Nat := fld x.cfg 0 6

/-- The coarse factor that applies: 1 for kinds 1-3 (R474). -/
def Queue.c (x : Queue) : Nat := if x.kind < 4 then 1 else x.coarse

/-- G, the lines for region crops (R474). -/
def Queue.budget (x : Queue) : Nat := if x.kind < 4 then 0 else x.roiBudget.toNat

/-- W, H and P of a sample. -/
structure Dims where
  w      : Nat
  h      : Nat
  planes : Nat
deriving DecidableEq, Repr

/-- ⌈W_c × H_c / 64⌉ (R476). -/
def Queue.planeLines (x : Queue) (d : Dims) : Nat := ceilDiv ((d.w / x.c) * (d.h / x.c)) 64

/-- Z (R474). -/
def Queue.z (x : Queue) (d : Dims) : Nat := 1 + d.planes * x.planeLines d + x.budget

/-- The enabled decode stream that feeds queue n: the lowest-numbered (R482). -/
def State.feeder (s : State) (n : Nat) : Option Nat :=
  [0, 1, 2, 3, 4, 5, 6, 7].find? (fun k =>
    let y := s.stream k
    y.enable && y.dir && y.ink && y.inkQueue == n)

/-! ## Image headers -/

/-- A big-endian 16-bit field. -/
def be16 (bs : List Byte) (off : Nat) : Nat := (bs.getD off 0).toNat * 256 + (bs.getD (off + 1) 0).toNat

/-- What the search for SOF0 meets: a frame header's marker and contents, or none. A marker of a feature the
subset leaves out is answered as itself (R469). -/
def findSof : Nat → List Byte → Option (Nat × List Byte)
  | 0, _ => none
  | n + 1, bs =>
    match bs with
    | a :: b :: rest =>
      if a ≠ 0xFF then none
      else if b = 0xFF then findSof n (b :: rest)
      else
        let m := b.toNat
        if m = 1 ∨ (0xD0 ≤ m ∧ m ≤ 0xD8) then findSof n rest
        else if m = 0xD9 ∨ m = 0xDA ∨ m = 0 then none
        else
          let l := be16 rest 0
          if l < 2 ∨ rest.length < l then none
          else if (0xC0 ≤ m ∧ m ≤ 0xCF ∧ m ≠ 0xC4) ∨ m = 0xDC ∨ m = 0xDE ∨ m = 0xDF then
            some (m, (rest.take l).drop 2)
          else findSof n (rest.drop l)
    | _ => none

/-- The sampling factors of three components that Table 16-2 supports. -/
def samplingOk (seg : List Byte) : Bool :=
  [0x11, 0x21, 0x22].contains (le seg 7 1) && le seg 10 1 == 0x11 && le seg 13 1 == 0x11

/-- JPEG dimensions from the first bytes of a buffer; none where step 2 of Table 16-4 fails. More than three
components are left to step 3. -/
def jpegDims (bs : List Byte) : Option Dims :=
  match findSof 65536 (bs.take 65536) with
  | none => none
  | some (m, seg) =>
    let d : Dims := { w := be16 seg 3, h := be16 seg 1, planes := le seg 5 1 }
    let shape := decide (seg.length = 6 + 3 * d.planes) && le seg 0 1 == 8 && decide (d.h ≠ 0)
    if m = 0xC0 ∧ shape ∧ (d.planes = 1 ∨ 3 < d.planes ∨ (d.planes = 3 ∧ samplingOk seg)) then some d else none

/-- Prefix dimensions (Table 16-3); none where step 2 of Table 16-4 fails (log 66). -/
def prefixDims (kind len : Nat) (bs : List Byte) : Option Dims :=
  let d : Dims := { w := le bs 0 4, h := le bs 4 4, planes := le bs 8 1 }
  if len < 16 ∨ (slice bs 9 7).any (· ≠ 0) ∨ d.planes = 0 ∨ (kind = 2 ∧ d.planes ≠ 1 ∧ d.planes ≤ 3) then none
  else some d

/-! ## The cache (R488, R489) -/

/-- The sample index and epoch of a job of kind 1-3 (R485). -/
def dIndex (d : List Byte) : Nat := dJobId d % 2 ^ 24
def dEpoch (d : List Byte) : Nat := dJobId d / 2 ^ 24

/-- The slot of a job of kind 1-3, and the first line of a slot (R488). -/
def Queue.slotOf (x : Queue) (d : List Byte) : Nat := dIndex d % x.cacheSlots.toNat
def Queue.slotLine (x : Queue) (slot : Nat) : Nat := x.cacheBase.toNat + slot * x.cacheLines.toNat

/-- A queue that caches (R488). -/
def Queue.caches (x : Queue) : Bool := x.cache && decide (1 ≤ x.kind) && decide (x.kind < 4)

/-- The tag line of a tag: the spec names its fields and gives no layout (log 21). -/
def CacheTag.line (g : CacheTag) : List Byte :=
  slice (Config.tagLine [g.index.toNat, g.len.toNat, g.width, g.height, g.planes]) 0 72

/-- The tag of a slot, as its line in device memory says it; none where the slot has not been filled since the last
enable or flush (R488, R490; log 21, log 75). -/
def State.tagAt (s : State) (x : Queue) (slot : Nat) : Option CacheTag :=
  (x.tags.find? (fun e => e.1 == slot)).bind (fun e =>
    (s.readTen x.tenant (72 * x.slotLine slot) 72).map (fun bs => if bs = e.2.line then e.2 else Config.tagOf bs))

/-- The tag that a job of kind 1-3 hits (R489). -/
def State.hit (s : State) (d : List Byte) : Option CacheTag :=
  let x := s.queue (dQueue d)
  if x.caches then (s.tagAt x (x.slotOf d)).filter (fun g => g.index.toNat == dIndex d && g.len.toNat == dInLen d)
  else none

/-! ## The header checks (Table 16-4) -/

/-- The dimensions of a source: of the tag, the header, the port or the stream (R473, R489). Without a stream that
feeds the queue there are none to judge, and step 7 fails. -/
def State.sourceDims (s : State) (d hdr : List Byte) : Option Dims :=
  let x := s.queue (dQueue d)
  match s.hit d with
  | some t => some { w := t.width, h := t.height, planes := t.planes }
  | none =>
    if x.kind = 1 then jpegDims (hdr.take (dInLen d))
    else if x.kind = 2 ∨ x.kind = 3 then prefixDims x.kind (dInLen d) hdr
    else if x.kind = 4 then
      let p := s.port x.port
      some { w := p.ws, h := x.lines.toNat, planes := p.rows }
    else match s.feeder (dQueue d) with
      | some k => some { w := (s.stream k).width.toNat, h := (s.stream k).height.toNat, planes := 3 }
      | none => some { w := 0, h := 0, planes := 3 }

/-- Step 1 of Table 16-4: R468. -/
def State.sourceStep1 (s : State) (t : Nat) (d : List Byte) : Option Cpl :=
  let x := s.queue (dQueue d)
  if !x.enable ∨ x.tenant ≠ t ∨ x.kind ≠ dKind d then some (cpl stFormat 31)
  else if dInFmt d ≠ 1 then some (cpl stFormat 28)
  else if dKind d < 4 ∧ dInLen d = 0 then some (cpl stFormat 24)
  else none

/-- Steps 3-8 of Table 16-4. -/
def State.sourceSteps (s : State) (t : Nat) (d : List Byte) (m : Dims) : Option Cpl :=
  let x := s.queue (dQueue d)
  if 3 < m.planes then some (cpl stLimit 4)
  else if 32768 < m.w then some (cpl stLimit 1)
  else if 131072 < m.h then some (cpl stLimit 2)
  else if 2 ^ 31 < m.w * m.h then some (cpl stLimit 3)
  else if (x.kind = 4 ∧ !(s.port x.port).enable) ∨ (x.kind = 5 ∧ (s.feeder (dQueue d)).isNone) then
    some (cpl stLimit 5)
  else if !s.mapped t (72 * dParam d) (72 * x.z m) then some (cpl stFormat 44)
  else none

/-- The line that the checks of a source read of device memory: the tag of its cache slot (R489). -/
def State.tagReads (s : State) (t : Nat) (d : List Byte) : List (Nat × Nat) :=
  let x := s.queue (dQueue d)
  if 1 ≤ dKind d ∧ dKind d < 4 ∧ (s.sourceStep1 t d).isNone ∧ x.caches then [(72 * x.slotLine (x.slotOf d), 72)] else []

/-- The bytes that the checks of a source read of the input buffer (R473, R489). -/
def State.headerBytes (s : State) (t : Nat) (d : List Byte) : Nat :=
  if dKind d = 0 ∨ 3 < dKind d ∨ (s.sourceStep1 t d).isSome ∨ (s.hit d).isSome then 0
  else min (dInLen d) (if dKind d = 1 then 65536 else 16)

/-- The checks of a source of kinds 1-5: the rejection, or its dimensions (R473; a bad kind is log 60). -/
def State.sourceCheck (s : State) (t : Nat) (d hdr : List Byte) : Cpl ⊕ Option Dims :=
  if dKind d = 0 then (if dQueue d = 0 then .inr none else .inl (cpl stFormat 31))
  else if 5 < dKind d then .inl (cpl stFormat 31)
  else match s.sourceStep1 t d with
    | some c => .inl c
    | none =>
      match s.sourceDims d hdr with
      | none => .inl (cpl stFormat 16)
      | some m =>
        match s.sourceSteps t d m with
        | some c => .inl c
        | none => .inr (some m)

/-! ## A direct load's size, and the token stream's checks (R592, R505, R506) -/

/-- The nonets that a direct load of len bytes gives. -/
def loadCount (f : Fmt) (widened : Bool) (len : Nat) : Nat :=
  match f with
  | .u8 | .s8 | .e4m3 | .e5m2 => len
  | .s4 => 4 * ceilDiv (2 * len) 9
  | .fp16 => 2 * (len / 2)
  | .bf16 => 4 * (len / 2)
  | .fp32 => 4 * (len / 4)
  | _ => (if widened then len / 2 else 8 * len / 9) / f.elementNonets * f.elementNonets

/-- Z0 (R505; an empty input names no buffer for a kind 0 source, log 67). -/
def State.z0 (s : State) (d : List Byte) (m : Option Dims) : Nat :=
  match m with
  | some m => (s.queue (dQueue d)).z m
  | none =>
    if dInLen d = 0 then 0
    else ceilDiv ((Fmt.ofCode (dInFmt d)).elim 0 (fun f => loadCount f (dInWide d) (dInLen d))) 64

/-- The checks of the auxiliary input (R506). -/
def State.auxCheck (s : State) (t : Nat) (d : List Byte) (m : Option Dims) : Option Cpl :=
  if dAuxLen d = 0 then none
  else if 67108864 < dAuxLen d then some (cpl stFormat 56)
  else if !(s.tokTen t).tokValid then some (cpl stFormat 48)
  else if !s.mapped t (72 * (dParam d + s.z0 d m)) (72 * (ceilDiv (dAuxLen d) 32 + 1)) then some (cpl stFormat 48)
  else none

end Sys2Proof.Machine
end

