-- ==== Sys2Proof/Machine/AdmitOps.lean ====
section
/-!
DEFINITION. The manifest and the admission checks of Table 13-3 (R381-R388, R394, R96, R348, R374).
-/
namespace Sys2Proof.Machine

/-! ## Reading the manifest (R381-R384) -/

/-- A manifest's address: bits [63:40] zero, and a multiple of 72 (R381). -/
def okAddr (a : Nat) : Bool := decide (a % 72 = 0) && decide (a < 2 ^ 40)

/-- A manifest as read: its fields, whether item 1 of R394's order fails, and the regions read. -/
structure Parsed where
  man   : Manifest
  bad   : Bool
  reads : List (Nat × Nat)

/-- Read a region, or nothing where its own count or address is out of range; none where R156 refuses it. -/
def State.readIf (s : State) (ok : Bool) (t a n : Nat) : Option (List Byte) :=
  if ok then s.readTen t a n else some []

/-- A program entry, and whether it is valid (Table 13-2). -/
def progEntry (e : List Byte) : Prog × Bool :=
  ({ image := le e 0 8, words := le e 8 2 },
   okAddr (le e 0 8) && decide (1 ≤ le e 8 2 ∧ le e 8 2 ≤ 16384) && le e 10 6 == 0)

/-- A layer entry, and whether it is valid. -/
def layerEntry (e : List Byte) : LayerEntry × Bool :=
  ({ params := le e 0 8, bpt := le e 8 2 }, okAddr (le e 0 8) && le e 10 6 == 0)

/-- Ranges ascend without overlap from a line on, and stay within the scratchpad (R384). -/
def rangesOk : Nat → List (Nat × Nat) → Bool
  | _, [] => true
  | from_, (f, c) :: rest => decide (from_ ≤ f) && decide (f + c ≤ 4096) && rangesOk (f + c) rest

/-- A declaration's own fields are in range; an unused range list has no address (log 65). -/
def declOk (e : List Byte) : Bool :=
  decide (1 ≤ le e 0 1 ∧ le e 0 1 ≤ 200) && le e 1 1 == 0 && decide (le e 2 2 ≤ 256)
    && decide (le e 4 2 ≤ 4096) && le e 6 2 == 0 && (le e 2 2 == 0 || okAddr (le e 8 8))

/-- Read one declaration with its ranges: the declaration, its validity, and the region of its ranges. -/
def State.readDecl (s : State) (t : Nat) (e : List Byte) : Option (Decl × Bool × List (Nat × Nat)) :=
  let n := le e 2 2
  let ok := declOk e
  (s.readIf ok t (le e 8 8) (4 * n)).map (fun bs =>
    let rs := (chunks 4 n bs).map (fun r => (le r 0 2, le r 2 2))
    ({ interval := le e 0 1, live := le e 4 2, ranges := rs },
     ok && rangesOk 0 rs && (rs.map (·.2)).sum == le e 4 2,
     if ok && n != 0 then [(le e 8 8, 4 * n)] else []))

/-- Read the manifest at an address of tenant t; none where a byte of it is refused (Table 13-3, step 2). A
table is read when its own count and address are in range. -/
def State.readManifest (s : State) (t a : Nat) : Option Parsed :=
  if !okAddr a then none
  else (s.readTen t a 72).bind fun h =>
    let w := le h 2 1
    let ht := le h 3 1
    let nd := le h 8 2
    let np := le h 10 2
    let nl := le h 12 2
    let shape := decide (1 ≤ w ∧ w ≤ 32 ∧ 1 ≤ ht ∧ ht ≤ 32)
    let pOk := okAddr (le h 16 8) && decide (1 ≤ np ∧ np ≤ 1024)
    let dOk := okAddr (le h 24 8) && decide (1 ≤ nd ∧ nd ≤ 4096)
    let tOk := okAddr (le h 32 8) && shape
    let lOk := okAddr (le h 40 8) && decide (1 ≤ nl ∧ nl ≤ 4096)
    let sOk := okAddr (le h 64 8) && le h 64 8 != 0
    (s.readIf pOk t (le h 16 8) (16 * np)).bind fun pb =>
    (s.readIf dOk t (le h 24 8) (16 * nd)).bind fun db =>
    (s.readIf tOk t (le h 32 8) (2 * (w * ht))).bind fun tb =>
    (s.readIf lOk t (le h 40 8) (16 * nl)).bind fun lb =>
    (s.readIf sOk t (le h 64 8) 64).bind fun sb =>
    ((chunks 16 nd db).mapM (s.readDecl t)).map fun ds =>
    let ps := (chunks 16 np pb).map progEntry
    let ls := (chunks 16 nl lb).map layerEntry
    let ts := (chunks 2 (w * ht) tb).map (fun b => le b 0 2)
    let region (ok : Bool) (a n : Nat) : List (Nat × Nat) := if ok then [(a, n)] else []
    { man := {
        width := w, height := ht, bw := le h 4 4, startUs := le h 14 1, spans := le h 15 1 % 2 == 1
        outRegion := le h 48 8, outNonets := le h 56 4, outStage := le h 60 1, outCardFmt := le h 61 1
        progs := ps.map (·.1), decls := ds.map (·.1), tiles := ts, layers := ls.map (·.1)
        sat := (chunks 4 16 sb).map (fun b => BitVec.ofNat 32 (le b 0 4)) }
      bad := le h 0 2 != 1 || !shape || !pOk || !dOk || !tOk || (nl != 0 && !lOk) || (le h 64 8 != 0 && !sOk)
        || !decide (1 ≤ le h 14 1 ∧ le h 14 1 ≤ 200) || decide (2 ≤ le h 15 1) || !okAddr (le h 48 8)
        || decide (2 < le h 60 1) || le h 62 2 != 0
        || ps.any (fun p => !p.2) || ls.any (fun l => !l.2) || ds.any (fun d => !d.2.1)
        || ts.any (fun p => decide (np ≤ p))
      reads := (a, 72) :: region pOk (le h 16 8) (16 * np) ++ region dOk (le h 24 8) (16 * nd)
        ++ region tOk (le h 32 8) (2 * (w * ht)) ++ region lOk (le h 40 8) (16 * nl)
        ++ region sOk (le h 64 8) 64 ++ ds.flatMap (fun d => d.2.2) }

/-! ## Step 3: the output rules (R394) -/

/-- The eight formats that stage 1 reads. -/
def stageFormat (code : Nat) : Bool :=
  match Fmt.ofCode code with
  | some .n9 | some .s4 | some .s18 | some .s36 | some .f18 | some .f36 | some .e4m3 | some .e5m2 => true
  | _ => false

/-- Nonets that out_nonets must be a multiple of. -/
def stageMultiple (f : Fmt) : Nat :=
  match f with
  | .s18 | .f18 => 2
  | .s4 | .s36 | .f36 => 4
  | _ => 1

/-- The formats of R176's layouts. -/
def nonetFormat (f : Fmt) : Bool :=
  match f with
  | .n9 | .s18 | .s36 | .f18 | .f36 => true
  | _ => false

/-- Items 2-4 of R394's order, and then a packed output buffer that is too short (R38, which gives this check no place:
log 142). A buffer of length 0 is unused, whatever its layout (R177, log 143). -/
def outputCheck (d : List Byte) (m : Manifest) : Option Cpl :=
  if m.outStage ≠ 1 then (if m.outCardFmt = 0 then none else some (cpl stLimit 7))
  else if !stageFormat m.outCardFmt then some (cpl stLimit 7)
  else match Fmt.ofCode m.outCardFmt, Fmt.ofCode (dOutFmt d) with
    | some c, some h =>
      if !outputPair c h then some (cpl stFormat 0x100)
      else if m.outNonets % stageMultiple c ≠ 0 then some (cpl stLimit 7)
      else if c = h ∧ nonetFormat c ∧ !dOutWide d ∧ 0 < dOutLen d ∧ dOutLen d < ceilDiv (9 * m.outNonets) 8 then
        some (cpl stFormat 0x101)
      else none
    | _, _ => some (cpl stFormat 0x100)

/-! ## Steps 4-9 -/

/-- Step 5: a domain the job needs is held (R96). What a job says of its need for CYM is its source: a decoded picture
(log 141). -/
def State.domainCheck (s : State) (t : Nat) (d : List Byte) (m : Manifest) : Option Cpl :=
  let tok := dAuxLen d ≠ 0 ∨ m.outStage = 2 ∨ (s.tokTen t).gramValid
  let front := dKind d ≠ 0 ∨ dInLen d ≠ 0
  if (tok ∧ s.held domTOK) ∨ (dKind d = 5 ∧ s.held domCYM) ∨ (front ∧ s.held domFRONT) ∨ (m.spans ∧ s.held domCHN) then
    some (cpl stLimit 6)
  else none

/-- A tile may be allocated at all: not excluded, and outside the held quadrants. -/
def State.allocatable (s : State) (i : Nat) : Bool := !(s.tile i).exclude && !s.held (domGRID (quadrant i))

/-- The width × height rectangle of good tiles with the lowest origin (R392). -/
def lowestRect (w h : Nat) (good : Nat → Bool) : Option Nat :=
  (List.range 1024).find? (fun o => decide (o % 32 + w ≤ 32) && decide (o / 32 + h ≤ 32) && (rect o w h).all good)

/-- Step 6. -/
def State.tileCheck (s : State) (t : Nat) (m : Manifest) : Option Cpl :=
  let limit := (s.schTen t).limit.toNat
  if limit < m.width * m.height ∨ (lowestRect m.width m.height s.allocatable).isNone then
    some (cpl stTiles (min limit ((List.range 1024).countP s.allocatable)))
  else none

/-- Bytes of a parameter block (R338). -/
def blockBytes : Nat := 216

/-- The first 36 bytes of parameter block b of a layer: its channels' words (Table 11-1). -/
def LayerEntry.chan (l : LayerEntry) (b : Nat) : Nat × Nat := (l.params + blockBytes * b, 36)

/-- The blocks that ordinal o uses (R383). -/
def LayerEntry.blocksOf (l : LayerEntry) (o : Nat) : List Nat := (List.range l.bpt).map (fun i => o * l.bpt + i)

/-- The regions that step 7 reads. -/
def Manifest.chanReads (m : Manifest) : List (Nat × Nat) :=
  m.layers.flatMap (fun l => (List.range (m.width * m.height)).flatMap (fun o => (l.blocksOf o).map l.chan))

/-- Flagged channels in a block's first 36 bytes: bit 8 of a nonet. -/
def flagged (bs : List Byte) : Nat := (List.range 32).countP (fun i => bit (packedNonet bs i) 8)

/-- A tile has more than 64 outlier channels in some layer (R348). -/
def State.tooManyOutliers (s : State) (t : Nat) (m : Manifest) : Bool :=
  m.layers.any (fun l => (List.range (m.width * m.height)).any (fun o =>
    decide (64 < ((l.blocksOf o).map (fun b => flagged ((s.readTen t (l.chan b).1 36).getD []))).sum)))

/-- L_max (R388). -/
def Manifest.liveMax (m : Manifest) : Nat := (m.decls.map (·.live)).foldl max 0

/-- S_j (R388); a spanning job needs no spill region. -/
def Manifest.spill (m : Manifest) : Nat := if m.spans then 0 else m.width * m.height * (m.liveMax + 8)

/-- The tenant device address of line i of a tenant's spill area (R388, log 68). -/
def State.spillAddr (s : State) (t i : Nat) : Nat := (s.schTen t).spillBase.toNat * pageBytes + 72 * i

/-- Line f starts a free run of n lines of tenant t's spill area, every page of it mapped (R388). -/
def State.spillFits (s : State) (t n f : Nat) : Bool :=
  decide (f + n ≤ (s.schTen t).spillLines.toNat)
    && s.sch.jobs.all (fun j => j.tenant != t || decide (f + n ≤ j.spillFirst) || decide (j.spillFirst + j.spillLines ≤ f))
    && s.mapped t (s.spillAddr t f) (72 * n)

/-- The lowest line where a run of n lines fits: a run begins at the area's start, after another job's region,
or at a page (log 69). -/
def State.spillRun (s : State) (t n : Nat) : Option Nat :=
  let pages := (List.range ((s.schTen t).spillLines.toNat * 72 / pageBytes + 1)).map (fun p => ceilDiv (p * pageBytes) 72)
  let ends := (s.sch.jobs.filter (fun j => j.tenant == t)).map (fun j => j.spillFirst + j.spillLines)
  ((pages ++ ends).filter (s.spillFits t n)).min?

/-- Step 9: the largest excess among the stacks and the tenant's cap, in MB/s (R374). -/
def State.bandwidthExcess (s : State) (t bw : Nat) : Nat :=
  let parts := placed bw ((s.pages t).map (·.2))
  max (s.excess parts) (s.tenantRes t + bw - (s.mem.tenCap.find 0 t).toNat)

/-! ## A job that fails before it is admitted -/

/-- The places in Table 21-1 of SCH, whose firmware reads a manifest, an image or a spill, and of Intake. -/
def schBlock : Nat := 9
def inkBlock : Nat := 12

/-- A job with a descriptor of ring (t, r), before admission. -/
def newJob (t r : Nat) (d : Inflight) (m : Manifest) : Job :=
  { id := 0, tenant := t, ring := r, seq := d.seq, jobId := d.jobId, desc := d.desc, man := m }

/-- A detector fires for a descriptor whose checks read device memory: the job fails with the record's number
(R156, R364, R576). -/
def failUnadmitted (f : Finding) (t r : Nat) (d : Inflight) (s : State) : State :=
  let n := s.flt.next.toNat
  let s := writeRecord f (some (newJob t r d {})) (countFlt f.detector s)
  raise f.detector (decide1 t r d.seq (.decided (cpl stFault (n % 65536))) s)

/-- Read regions for a descriptor's checks, in order: true where every byte was read. A refused byte or an
uncorrectable beat fails the job. -/
def readChecks (block t r : Nat) (d : Inflight) : List (Nat × Nat) → State → Bool × State
  | [], s => (true, s)
  | (a, n) :: rest, s =>
    if !s.mapped t a n then (false, failUnadmitted (refusedFinding block a) t r d s)
    else match readBeats (s.tenBeats t a n) s with
      | (none, s) => readChecks block t r d rest s
      | (some b, s) => (false, uncorrectableBeat b (failUnadmitted (beatFinding lvlJob b) t r d s))

end Sys2Proof.Machine
end

