-- ==== Sys2Proof/Machine/CarillonOps.lean ====
section
/-!
DEFINITION. What Carillon's commands and the resets share: pin levels, groups, running groups, and which
source is presented next (R225, R229, R234-R243).
-/
namespace Sys2Proof.Machine

/-- A pin source: 384 + k, with a filter and a latch for k below 20 (R230). -/
def isPin (n : Nat) : Bool := decide (384 ≤ n ∧ n < 404)

/-- A source of the range whose state AON holds (R234). -/
def inAon (n : Nat) : Bool := decide (384 ≤ n ∧ n < 448)

/-- A reserved source (Table 21-2). -/
def reservedSource (n : Nat) : Bool :=
  decide (n = 0) || decide (21 ≤ n ∧ n ≤ 30) || decide (85 ≤ n ∧ n ≤ 95)
    || (decide (96 ≤ n ∧ n < 160) && (decide ((n - 96) % 16 = 3) || decide (8 ≤ (n - 96) % 16)))
    || decide (196 ≤ n ∧ n ≤ 223) || (decide (224 ≤ n ∧ n < 256) && decide (n % 4 = 3))
    || decide (267 ≤ n ∧ n ≤ 287) || decide (308 ≤ n ∧ n ≤ 319) || decide (404 ≤ n ∧ n ≤ 447)

/-- The level a level sense senses: high for 3, low for 4 (Table 8-5). -/
def levelSense (sense : BitVec 3) : Option Bool :=
  if sense = 3 then some true else if sense = 4 then some false else none

/-- A level-sensed pin's level still holds (R229). -/
def State.levelHolds (s : State) (n : Nat) : Bool :=
  isPin n && (match levelSense (s.src n).sense with
    | some b => bit s.car.levels (n - 384) == b
    | none => false)

/-- A change of a pin to a level is what its sense selects; 5-7 act as 0 (R225, Table 8-5). -/
def senses (sense : BitVec 3) (level : Bool) : Bool :=
  match sense.toNat with
  | 1 => !level
  | 2 => true
  | 4 => !level
  | _ => level

/-- The event of a source reaches the Gong; while MGT is off it waits there (R215, R216, log 48). -/
def askEvent (n : Nat) (held : Bool) (s : State) : State :=
  askGong (.source n) (held || !s.on domMGT) (raise n) s

/-- The group of a source. -/
def sourceGroup (n : Nat) : Nat := n / 16

/-- Bits of the group priority: g, at most 8 (R235). -/
def State.groupBits (s : State) : Nat := s.car.priSplit.toNat

/-- The group priority of a priority (R235). -/
def State.groupPri (s : State) (pri : Nat) : Nat := pri / 2 ^ (8 - s.groupBits)

/-- Core c's running group (R236). -/
def State.running (s : State) (c : Nat) : Option Nat := (s.claimed c).head?.map (fun x => s.groupPri x.2)

/-- Source n can be presented to its core (R237). -/
def State.presentable (s : State) (n : Nat) : Bool :=
  let x := s.src n
  let c := x.target.toNat
  x.pending && !x.presented && !x.active && decide (c < 4)
    && !bit s.car.inHoldoff (sourceGroup n)
    && (match s.running c with
        | none => true
        | some g => decide (s.groupPri x.priority.toNat < g))
    && decide ((s.claimed c).length < 16)

/-- Source a comes before source b in a selection (R238). -/
def State.before (s : State) (a b : Nat) : Bool :=
  let p := (s.src a).priority.toNat
  let q := (s.src b).priority.toNat
  decide (s.groupPri p < s.groupPri q)
    || (decide (s.groupPri p = s.groupPri q) && (decide (p < q) || (decide (p = q) && decide (a < b))))

/-- The source presented to core c and not yet claimed. -/
def State.presentedTo (s : State) (c : Nat) : Option Nat :=
  (s.car.srcs.find? (fun e => e.2.presented && e.2.target.toNat == c)).map (·.1)

/-- Core c's interrupt input is asserted: a source is presented to it (Table 8-2). -/
def State.irq (s : State) (c : Nat) : Bool := (s.presentedTo c).isSome

/-- The source selected for core c whose mask has landed before its commit (R243). -/
def State.committingFor (s : State) (c : Nat) : Option Nat :=
  (s.car.srcs.find? (fun e => e.2.committing && e.2.target.toNat == c)).map (·.1)

/-- Source n is the one a selection for its core takes: nothing is presented or being committed there (R238, R243, log
49). -/
def State.selected (s : State) (n : Nat) : Bool :=
  let c := (s.src n).target.toNat
  s.presentable n && !(s.src n).mask && (s.presentedTo c).isNone && (s.committingFor c).isNone
    && s.car.srcs.all (fun e => e.1 == n || !(s.presentable e.1 && !e.2.mask && decide (e.2.target = (s.src n).target)
        && s.before e.1 n))

/-- Source n may send its message to the host (R223, R248, R596). -/
def State.hostReady (s : State) (n : Nat) : Bool :=
  let x := s.src n
  x.pending && decide (x.target = 4) && decide (16 ≤ x.vector.toNat) && decide (s.pwr.dstate = .d0)

/-- Present what a selection for core c takes (R237, R238, Tables 8-2 and 8-3). No source is presented before the
firmware runs (R234, log 132). -/
def presentNext (c : Nat) (s : State) : State :=
  if s.boot.stage ≠ .running then s
  else match s.car.srcs.find? (fun e => e.2.target.toNat == c && s.selected e.1) with
    | some e => s.setSrc e.1 { e.2 with presented := true }
    | none => s

/-- Withdraw a source: it stays pending and is not presented (R243). -/
def withdraw (n : Nat) (s : State) : State :=
  s.setSrc n { s.src n with presented := false, committing := false }

/-- An active source ends: it is idle, and a level-sensed pin whose level holds is pending again (R229, Table
8-3). -/
def endActive (n : Nat) (s : State) : State :=
  let s := s.setSrc n { s.src n with active := false }
  if s.levelHolds n then askEvent n false s else s

/-- Core c's claims are released: every source active on it becomes idle and none is delivered again (R240). -/
def releaseClaims (c : Nat) (s : State) : State :=
  (forEach (s.claimed c) (fun x s => s.setSrc x.1 { s.src x.1 with active := false }) s).setClaimed c []

end Sys2Proof.Machine
end

