-- ==== Sys2Proof/Machine/Pins.lean ====
section
/-!
DEFINITION. The LINE input pins: the Woodblock's filters, the position counters and captures they feed, and the Carillon
glitch filters (R81, R225, R230, R415-R417, R431-R434).
-/
namespace Sys2Proof.Machine

/-! ## The Woodblock's filter (R415, R431) -/

/-- The synchronised level of input pin i (R431; the synchroniser's 3 ticks are log 134). -/
def State.pin (s : State) (i : Nat) : Bool := bit s.wbk.pins i

/-- One tick of a filter of n ticks: its output, and for how long its input has differed from it (R415). -/
def filterStep (n : Nat) (level out : Bool) (differed : Nat) : Bool × Nat :=
  if level = out then (out, 0) else if n ≤ differed + 1 then (level, 0) else (out, differed + 1)

/-! ## Position counters (R415-R420, R425) -/

/-- The sequence number of a pair of levels in 00 → 10 → 11 → 01 (R416). -/
def quadIndex (a b : Bool) : Nat := if b then (if a then 2 else 3) else (if a then 1 else 0)

/-- Channels whose compare a counted edge of POSq to v fires: up or down as the edge went (R425). -/
def State.positionMatches (s : State) (p : Nat) (v : BitVec 32) (up : Bool) : List Nat :=
  (List.range 16).filter (fun k =>
    let x := s.chan k
    x.armed && decide (x.mode = 1) && decide (x.base.toNat = p + 1) && decide (x.cmp.extractLsb' 0 32 = v)
      && (if x.edgeDir = 1 then up else if x.edgeDir = 2 then !up else true))

/-- The filtered inputs of POSq take new levels (R416, R417, R425). -/
def posMove (p : Nat) (a b : Bool) (s : State) : State :=
  let x := s.pos p
  let moved := (quadIndex a b + 4 - quadIndex x.a x.b) % 4
  let s := s.setPos p { x with a := a, b := b }
  if !s.on domMGT ∨ moved = 0 then s
  else if moved = 2 then raise (80 + p) (s.setPos p { s.pos p with err := satInc x.err })
  else if !x.enable then s
  else
    let up := (moved == 1) != x.invert
    let v := if up then x.val + 1 else x.val - 1
    let s := s.setPos p { s.pos p with val := v }
    forEachAny (s.positionMatches p v up) matchAndStop s

/-- One tick of the filters of QAp and QBp (R415). -/
def posTick (p : Nat) (s : State) : State :=
  let x := s.pos p
  let fa := filterStep x.filt.toNat (s.pin (16 + 2 * p)) x.a x.na
  let fb := filterStep x.filt.toNat (s.pin (17 + 2 * p)) x.b x.nb
  posMove p fa.1 fb.1 (s.setPos p { x with na := fa.2, nb := fb.2 })

/-- The position counters whose filters have something to do: in a tick, or at once where N is 0. -/
def State.posDue (s : State) (atOnce : Bool) : List Nat :=
  [0, 1, 2, 3].filter (fun p =>
    let x := s.pos p
    (!atOnce || decide (x.filt = 0))
      && (s.pin (16 + 2 * p) != x.a || s.pin (17 + 2 * p) != x.b || decide (x.na ≠ 0) || decide (x.nb ≠ 0)))

/-! ## Capture (R431-R434) -/

/-- An edge counts for a capture channel (R431). -/
def Chan.counts (x : Chan) (rising : Bool) : Bool :=
  if x.edgeDir = 1 then !rising else if x.edgeDir = 2 then true else rising

/-- The value a capture stores (R433). -/
def State.baseValue (s : State) (x : Chan) : BitVec 40 :=
  if x.timeBase then s.wbk.time else (s.pos (basePos x.base)).val.zeroExtend 40

/-- A filtered edge of the pin an armed capture channel watches: every M-th is captured, its events in any order (R209,
R432-R434). -/
def captureEdge (k : Nat) (rising : Bool) (s : State) : State :=
  let x := s.chan k
  if s.on domMGT ∧ x.armed ∧ x.mode = 2 ∧ x.counts rising then
    if x.presc.toNat ≤ x.edges then
      let y := { x with cap := s.baseValue x, captured := true, overrun := x.overrun || x.captured, edges := 0 }
      forEachAny (if x.captured then [32 + k, 64 + k] else [32 + k]) raise (s.setChan k y)
    else s.setChan k { x with edges := x.edges + 1 }
  else s

/-- One tick of the filter of capture channel k (R431). -/
def captureTick (k : Nat) (s : State) : State :=
  let x := s.chan k
  let f := filterStep x.filt.toNat (s.pin x.capSrc.toNat) x.seen x.seenFor
  let s := s.setChan k { x with seen := f.1, seenFor := f.2 }
  if f.1 = x.seen then s else captureEdge k f.1 s

/-- The capture channels whose filters have something to do: in a tick, or at once where N is 0. -/
def State.captureDue (s : State) (atOnce : Bool) : List Nat :=
  (List.range 16).filter (fun k =>
    let x := s.chan k
    x.armed && decide (x.mode = 2) && (!atOnce || decide (x.filt = 0))
      && (s.pin x.capSrc.toNat != x.seen || decide (x.seenFor ≠ 0)))

/-- The position counters and then the captures that are due (their order in one tick is log 134). -/
def runFilters (atOnce : Bool) (s : State) : State :=
  let s := forEachAny (s.posDue atOnce) posTick s
  forEachAny (s.captureDue atOnce) captureTick s

/-- Input pins take levels: a filter with N = 0 passes them at once, another in the ticks to come (R415, R431). -/
def pinLevels (ls : List (Nat × Bool)) (s : State) : State :=
  runFilters true { s with wbk := { s.wbk with pins := ls.foldl (fun v e => setBit v e.1 e.2) s.wbk.pins } }

/-- GPk is an output that the card drives to the other level (R81). -/
def State.drivenOther (s : State) (k : Nat) (level : Bool) : Bool :=
  decide (k < 16) && bit s.brd.gpDir k && bit s.brd.gpOut k != level

/-- The level an input sees where its pin is brought to a level. On an output that the card drives to the other level it is
another driver that brings it there, and the level seen is open: a free value (R81, log 135). -/
def seenLevel (k : Nat) (level : Bool) (s : State) : Bool × State :=
  if s.drivenOther k level then
    let (n, s) := s.draw
    (decide (Config.fresh n % 2 = 1), s)
  else (level, s)

/-- Pin i of R431 takes a level. -/
def pinChange (i : Nat) (level : Bool) (s : State) : State :=
  let (l, s) := seenLevel i level s
  pinLevels [(i, l)] s

/-! ## The Carillon glitch filters (R225, R230) -/

/-- CK_AON runs: AON is supplied, the resonator is stable and the card is not in D3cold (R118, R231). -/
def State.ckAon (s : State) : Bool :=
  s.on domAON && s.boot.stage != .unpowered && s.boot.stage != .aon && s.pwr.dstate != .d3cold

/-- The filter of pin k shows a level: a matching change is an event, and a fall of an MFLT# stops its motor driver
(R225, R230, R460). -/
def filteredLevel (k : Nat) (level held : Bool) (s : State) : State :=
  if bit s.car.levels k = level then s
  else
    let s := { s with car := { s.car with levels := setBit s.car.levels k level } }
    let s := if senses (s.src (384 + k)).sense level then askEvent (384 + k) held s else s
    if 16 ≤ k ∧ !level then mfltFall (k - 16) s else s

/-- The filter of pin k takes a new level, as the pin is seen (R81, R230). -/
def glitchFilterOutput (k : Nat) (level held : Bool) (s : State) : State :=
  if !s.ckAon ∨ bit s.car.levels k = level then s
  else
    let (l, s) := seenLevel k level s
    filteredLevel k l held s

/-! ## GP outputs (R81) -/

/-- GPk is an output: the Woodblock and, through a filter with N = 0, Carillon see the level the card drives (R81). A
longer filter answers with its own command. -/
def driveGp (k : Nat) (s : State) : State :=
  if bit s.brd.gpDir k then
    let level := bit s.brd.gpOut k
    let s := pinLevels [(k, level)] s
    if s.car.filt.find 0 k = 0 then glitchFilterOutput k level false s else s
  else s

/-- The GP outputs whose level a write of BRD_GP_DIR or BRD_GP_OUT changes take it (R81). -/
def driveGps (s : State) : State :=
  forEachAny ((List.range 16).filter (fun k =>
    bit s.brd.gpDir k && (s.pin k != bit s.brd.gpOut k || bit s.car.levels k != bit s.brd.gpOut k))) driveGp s

end Sys2Proof.Machine
end

