-- ==== Sys2Proof/Machine/Rings.lean ====
section
/-!
DEFINITION. The commands of the rings, chime lines and completions (06), but for JOB and FENCED_ADMIT.
-/
namespace Sys2Proof.Machine

/-! ## Ring registers -/

/-- Offset of ring pair r's control register in the tenant page (Table 6-7). -/
def ringCtl (r : Nat) : Nat := 0x110 + 0x20 * r

/-- Read tenant t's chime line into the device cache (R140, R189). -/
def readChime (t : Nat) (s : State) : State :=
  (s.setTenant t { s.tenant t with chime := .reading }).emit (.rdShared (s.tenant t).chimeHpa)

/-- In CXL mode the card holds each enabled tenant's chime line: it asks for one it does not hold (R189,
log 40). -/
def holdChime (t : Nat) (s : State) : State :=
  if s.hif.cxl ∧ s.hif.linkUp ∧ (s.tenant t).enable ∧ (s.tenant t).chime = .absent then readChime t s else s

/-- A write of 1 to TPG_Rr_CTL.enable with a log2_size (R169, R172-R174, R193; the chime values seen so far
are taken as 0, log 40; on an enabled pair, log 107). -/
def enableRing (q : Requester) (t r : Nat) (k : BitVec 5) (s : State) : State :=
  let x := s.ring t r
  let err := regError q (RegAddr.tpg t (ringCtl r)).bar0 s
  if x.enable then
    if k = x.k ∧ x.inflight.isEmpty then
      s.setRing t r { x with sqHead := 0, cqTail := 0, sqProd := 0, cqCons := 0, markerDue := true, half := none }
    else err
  else if !x.inflight.isEmpty ∨ k.toNat < 4 ∨ 16 < k.toNat then err
  else
    holdChime t (s.setRing t r { x with
      k := k, enable := true, stopped := false, err := 0, sqHead := 0, cqTail := 0,
      sqProd := 0, cqCons := 0, markerDue := true, half := none })

/-- RING_ENABLE (R172). -/
def execRingEnable (q : Requester) (t : Fin 64) (r : Fin 8) (k : BitVec 5) (s : State) : Result :=
  .next (regWrite q (.tpg t (ringCtl r)) (enableRing q t r k) s)

/-- A write of 0 to TPG_Rr_CTL.enable: nothing more is fetched (R174). -/
def disableRing (t r : Nat) (s : State) : State :=
  s.setRing t r { s.ring t r with enable := false, markerDue := false }

/-- RING_DISABLE (R174). -/
def execRingDisable (q : Requester) (t : Fin 64) (r : Fin 8) (s : State) : Result :=
  .next (regWrite q (.tpg t (ringCtl r)) (disableRing t r) s)

/-- TPG_POLL.period_us, clamped to 1-1,000 (Table 6-7). -/
def writePoll (t : Nat) (v : BitVec 32) (s : State) : State :=
  s.setTenant t { s.tenant t with pollUs := BitVec.ofNat 10 (clamp 1 1000 (fld v 0 10)) }

/-- POLL_PERIOD_WRITE (R191). -/
def execPollPeriodWrite (q : Requester) (t : Fin 64) (v : BitVec 32) (s : State) : Result :=
  .next (regWrite q (.tpg t 0x308) (writePoll t v) s)

/-- P_eff in 0.1 µs for tenant t: ⌈10 P f⌉ with f = max(1, Σ (1 / P_t) / 16) over enabled tenants (R191).
The sum is taken over a common multiple of the periods. -/
def State.effDus (s : State) (t : Nat) : Nat :=
  let ps := (tenants.filter (fun u => (s.tenant u).enable)).map (fun u => (s.tenant u).pollUs.toNat)
  let m := ps.foldl Nat.lcm 1
  let sum := (ps.map (fun p => m / p)).sum
  max (10 * (s.tenant t).pollUs.toNat) (ceilDiv (10 * (s.tenant t).pollUs.toNat * sum) (16 * m))

/-! ## Noticing new work -/

/-- A host snoop of tenant t's chime line, or of its tail-hint line, in CXL mode: it is answered, and the chime line is
read again (R139, R140, R189, R190). -/
def chimeSnoop (t : Nat) (hint : Bool) (s : State) : State :=
  let x := s.tenant t
  if !s.hif.cxl ∨ !s.hif.linkUp then s
  else if hint then (s.setTenant t { x with hintHeld := false }).emit (.snoopAnswer x.hintHpa)
  else
    let s := s.emit (.snoopAnswer x.chimeHpa)
    match x.chime with
    | .absent => s
    | .held => readChime t s
    | .reading => s.setTenant t { x with chime := .readingAgain }
    | .readingAgain => s

/-- CHIME_SNOOP (R189, R190). -/
def execChimeSnoop (t : Fin 64) (hint : Bool) (s : State) : Result := .next (chimeSnoop t hint s)

/-- One poll of an enabled tenant's chime line in PCIe mode; several may be out at once (R141, R191, R192). -/
def chimePoll (t : Nat) (s : State) : State :=
  if !s.hif.cxl ∧ s.linkOk t ∧ (s.tenant t).enable ∧ s.boot.ready then
    (s.setTenant t { s.tenant t with polls := (s.tenant t).polls + 1 }).emit (.readLine t (s.tenant t).chimeAddr)
  else s

/-- CHIME_POLL (R191). -/
def execChimePoll (t : Fin 64) (s : State) : Result := .next (chimePoll t s)

/-- The condition of R185: more descriptors waiting than the ring holds. -/
def Ring.overrun (x : Ring) : Bool := decide (2 ^ x.k.toNat < (x.sqProd - x.sqHead).toNat)

/-- Ring r sees its two indices of a chime line (R171, R185, R189, R193). -/
def seeIndices (t r : Nat) (prod cons : BitVec 32) (s : State) : State :=
  let x := { s.ring t r with sqProd := prod, cqCons := cons }
  let s := s.setRing t r x
  if x.enable ∧ !x.stopped ∧ x.overrun then stopRing t r 3 s else s

/-- sq_prod and cq_cons of ring r in the 64 bytes of a chime line (Table 6-3). -/
def lineProd (line : List Byte) (r : Nat) : BitVec 32 := BitVec.ofNat 32 (le line (4 * r) 4)
def lineCons (line : List Byte) (r : Nat) : BitVec 32 := BitVec.ofNat 32 (le line (32 + 4 * r) 4)

/-- Every ring of a tenant sees its indices of a chime line. -/
def seeLine (t : Nat) (line : List Byte) (s : State) : State :=
  forEach ringsOf (fun r s => seeIndices t r (lineProd line r) (lineCons line r) s) s

/-- A read of tenant t's chime line is outstanding: a RdShared, or a poll. -/
def State.lineRead (s : State) (t : Nat) : Bool :=
  (s.tenant t).chime = .reading || (s.tenant t).chime = .readingAgain || (!s.hif.cxl && decide (0 < (s.tenant t).polls))

/-- That read has ended: the cache holds the line or not, or one poll less is out. -/
def endLineRead (t : Nat) (held : Bool) (s : State) : State :=
  let x := s.tenant t
  if s.hif.cxl then s.setTenant t { x with chime := if held then .held else .absent }
  else s.setTenant t { x with polls := x.polls - 1 }

/-- The data of a chime line arrives (R183, R185, R189, R190, R192). -/
def chimeLineData (t : Nat) (line : List Byte) (s : State) : State :=
  if s.lineRead t then
    let again := (s.tenant t).chime = .readingAgain
    let s := seeLine t line s
    if again then readChime t s else endLineRead t true s
  else s

/-- CHIME_LINE_DATA (R183, R189). -/
def execChimeLineData (t : Fin 64) (line : List Byte) (s : State) : Result :=
  if line.length = 64 then .next (chimeLineData t line s) else .fault .malformed

/-- The most descriptors one read may bring (R181). The Max_Read_Request_Size is that of the tenant's own function
(log 127). -/
def State.fetchLimit (s : State) (t r : Nat) : Nat :=
  let x := s.ring t r
  min (min 8 ((s.func t).mrrs / 64))
    (min (x.sqProd - x.sqHead).toNat (2 ^ x.k.toNat - x.sqHead.toNat % 2 ^ x.k.toNat))

/-- SQ r may be fetched (R131, R144, R193, R204, R385). -/
def State.fetchable (s : State) (t r : Nat) : Bool :=
  let x := s.ring t r
  s.mayFetch t && x.enable && !x.stopped && !x.markerDue && x.half.isNone && !s.abortsLeft t && !s.d3Left && s.admitRoom t

/-- One read of descriptors (R180, R181). -/
def fetch (t r : Nat) (descs : List (List Byte)) (s : State) : State :=
  let x := s.ring t r
  if s.fetchable t r ∧ descs.length ≤ s.fetchLimit t r then
    let new := descs.mapIdx (fun i d => ({ seq := x.sqHead + BitVec.ofNat 32 i, desc := d, st := .fetched } : Inflight))
    let a := x.sqBase + BitVec.ofNat 64 (64 * (x.sqHead.toNat % 2 ^ x.k.toNat))
    (s.emit (.readDesc t a descs.length)).setRing t r
      { x with inflight := x.inflight ++ new, sqHead := x.sqHead + BitVec.ofNat 32 descs.length }
  else s

/-- DESCRIPTOR_FETCH (R181). -/
def execDescriptorFetch (t : Fin 64) (r : Fin 8) (descs : List (List Byte)) (s : State) : Result :=
  if 1 ≤ descs.length ∧ descs.length ≤ 8 ∧ descs.all (fun d => d.length == 64) then .next (fetch t r descs s)
  else .fault .malformed

/-- A NOP descriptor is checked: it completes with OK, or is rejected (R178, R182). -/
def nopDescriptor (t r : Nat) (s : State) : State :=
  match (s.ring t r).unchecked with
  | none => s
  | some d =>
    if le d.desc 0 1 ≠ 0 ∨ !s.firmware (coreOf t) then s
    else match badByte d.seq d.desc with
      | some b => decide1 t r d.seq (.decided (cpl stFormat b)) s
      | none => decide1 t r d.seq (.decided (cpl stOk 0)) s

/-- NOP (R178). -/
def execNopDescriptor (t : Fin 64) (r : Fin 8) (s : State) : Result := .next (nopDescriptor t r s)

/-! ## Read errors -/

/-- The bit of a failed read in the AER Uncorrectable Error Status register, as the PCI Express base specification
numbers it (log 7). -/
def aerBit : ReadEnd → Nat
  | .timeout => 14
  | .completerAbort => 15
  | .unsupported => 20

/-- Log an error in AER against a function (R135). -/
def logAer (t : Nat) (why : ReadEnd) (s : State) : State :=
  s.setFunc t { s.func t with aer := (s.func t).aer + 1, aerStatus := setBit (s.func t).aerStatus (aerBit why) true }

/-- The card times a read out only while PF0's Completion Timeout Disable is 0, for a VF's reads too (R135). -/
def State.mayEnd (s : State) (why : ReadEnd) : Bool := !(decide (why = .timeout) && (s.func 0).ctoDisable)

/-- The finding of a host access error (Table 20-1). -/
def hostFinding (level t err : Nat) (addr : BitVec 64) : Finding :=
  { detector := 0x09, level := level, location := t, info0 := err, info1 := fld addr 0 32 }

/-- Stop every ring of a tenant whose chime line cannot be read (R193). -/
def stopRings (t : Nat) (s : State) : State := forEach ringsOf (fun r s => stopRing t r 2 s) s

/-- A read that the card issued for a tenant ends in a timeout, Unsupported Request or Completer Abort
(R135, R193). -/
def hostReadFail (what : HostRead) (why : ReadEnd) (addr : BitVec 64) (s : State) : State :=
  if !s.mayEnd why then s
  else match what with
  | .descriptor t r =>
    if s.fetchable t r then
      stopRing t r 1 (fire (hostFinding lvlRing t 1 addr) (logAer t why s))
    else s
  | .chime t =>
    if s.lineRead t then stopRings t (endLineRead t false (fire (hostFinding lvlRing t 2 addr) (logAer t why s)))
    else s
  | .buffer j =>
    match s.job? j with
    | none => s
    | some x => fireJob (hostFinding lvlJob x.tenant 0 addr) j (logAer x.tenant why s)

/-- HOST_READ_FAIL (R135). -/
def execHostReadFail (what : HostRead) (why : ReadEnd) (addr : BitVec 64) (s : State) : Result :=
  .next (hostReadFail what why addr s)

/-! ## Completions -/

/-- The completion of the oldest descriptor of SQ r asks for its stamp once it can be written, and is written with it
(R186, R199, R206, R216). -/
def completionWrite (t r : Nat) (held : Bool) (s : State) : State :=
  if s.headDone t r ∧ !s.gng.held.contains (.completion t r) then
    askGong (.completion t r) held (completeHead t r) s
  else s

/-- COMPLETION_WRITE (R186, R199). -/
def execCompletionWrite (t : Fin 64) (r : Fin 8) (held : Bool) (s : State) : Result := .next (completionWrite t r held s)

/-- A ring's marker is due and can be written (R186, R204). -/
def State.markerReady (s : State) (t r : Nat) : Bool :=
  let x := s.ring t r
  x.enable && x.markerDue && x.inflight.isEmpty && x.half.isNone && x.space && s.mayFetch t

/-- Write the marker of a tenant reset or of an enable, once nothing is left before it (R204; when it is
written is log 42). -/
def epochMarker (t r : Nat) (s : State) : State :=
  let x := s.ring t r
  if s.markerReady t r then
    let s := s.setRing t r { x with markerDue := false }
    writeEntry t r 0 x.sqHead (cpl stMarker (s.tenant t).epoch.toNat) s
  else s

/-- The marker asks for its stamp once it can be written (R204, R206, R216). -/
def markerWrite (t r : Nat) (held : Bool) (s : State) : State :=
  if s.markerReady t r ∧ !s.gng.held.contains (.marker t r) then askGong (.marker t r) held (epochMarker t r) s else s

/-- EPOCH_MARKER (R204). -/
def execEpochMarker (t : Fin 64) (r : Fin 8) (held : Bool) (s : State) : Result := .next (markerWrite t r held s)

/-- The bytes of a tail-hint line (R187). -/
def State.hintBytes (s : State) (t : Nat) : List Byte :=
  ringsOf.flatMap (fun r => leBytes 4 (s.ring t r).cqTail.toNat) ++ List.replicate 32 0

/-- Write a tenant's tail-hint line in CXL mode, while it does not report every completion (R139, R140,
R147, R187). -/
def tailHint (t : Nat) (s : State) : State :=
  let x := s.tenant t
  if s.hif.cxl ∧ s.hif.linkUp ∧ !s.hif.l1 ∧ s.pwr.dstate = .d0 ∧ (s.func t).bme ∧ x.enable ∧ x.hintDue then
    (s.setTenant t { x with hintDue := false, hintHeld := true }).emit (.itoMWr x.hintHpa (s.hintBytes t))
  else s

/-- TAIL_HINT_WRITE (R187). -/
def execTailHintWrite (t : Fin 64) (s : State) : Result := .next (tailHint t s)

end Sys2Proof.Machine
end

