-- ==== Sys2Proof/Machine/ResetOps.lean ====
section
/-!
DEFINITION. What each reset kind clears (Table 4-5), a tenant's function reset, and the power-off of domains
(R109, R125-R132, R166-R168, R234, R260, R594).
-/
namespace Sys2Proof.Machine

/-! ## Power domains -/

/-- The PLLs that lock as a domain comes on, by bit of CLK_PLL_STAT (Table 4-2, Table 4-7); PLL_PCIE waits for REFCLK
(Table 4-4 step 6). -/
def domPlls (d : Nat) : List Nat :=
  if d = domAON then [0] else if d = domMGT then [1, 2]
  else if d = domCHN then [4] else if 3 ≤ d ∧ d ≤ 6 then [5 + (d - 3)]
  else if d = domFRONT then [9, 10, 11, 12] else []

/-- Turn a domain on; its PLLs are locked (log 39). -/
def domainOn (d : Nat) (s : State) : State :=
  let s := s.setDom d true
  forEach (domPlls d) (fun p s =>
    if bit s.clk.disconnected p then s
    else { s with clk := { s.clk with locked := setBit s.clk.locked p true } }) s

/-- Turn a domain off. A relock in it is abandoned (04, "A thermal trip occurs while a sensor clock is
relocking"), with FRONT off LTRIG and EXSYNC are low (R80), the tiles of a quadrant that is off have tag 0
(R284), and CHN_UNIT keeps showing the head and tail it showed last (R594). -/
def domainOff (d : Nat) (s : State) : State :=
  let s := if d = domCHN ∧ s.on d ∧ !s.chn.bypassing then
      { s with chn := { s.chn with head := s.isHead, tail := s.isTail } }
    else s
  let s := s.setDom d false
  let s := if 7 ≤ d ∧ d ≤ 10 then { s with grd := { s.grd with
      tiles := s.grd.tiles.update {} (fun i x => if quadrant i = d - 7 then { x with tag := 0 } else x) } } else s
  let s := if d = domFRONT then forEach portsAll linesLow s else s
  forEach (domPlls d) (fun p s =>
    if bit s.clk.relock p then { s with clk := { s.clk with
      relock := setBit s.clk.relock p false, disconnected := setBit s.clk.disconnected p false } }
    else s) s

/-- GRID0-GRID3, TOK, CYM, FRONT and CHN. -/
def switched : List Nat := [7, 8, 9, 10, 11, 12, 13, 14]

/-- Turn off a list of domains. -/
def domainsOff (ds : List Nat) (s : State) : State := forEach ds domainOff s

/-! ## Clearing blocks -/

/-- A source of MGT takes its reset value; a pin source keeps what AON holds, and what was presented or
active on a core ends (R234). -/
def Src.afterReset (n : Nat) (x : Src) : Src :=
  if inAon n then
    { x with presented := false, committing := false, active := false, pending := x.pending && !x.active
             lost := false, count := 0, stamp := 0, stampHi := 0 }
  else {}

/-- Carillon after a reset of MGT (R234). -/
def Car.afterReset (c : Car) : Car :=
  { c with
    srcs := c.srcs.foldl (fun t e => Tbl.put {} t e.1 (e.2.afterReset e.1)) []
    holdoff := [], inHoldoff := 0, claims := [], mbox := [] }

/-- A stack after a reset of MGT: a fence is cleared, and a stack that was fenced or is off must train again
(R126, R368). -/
def Stack.afterReset (keep : Bool) (x : Stack) : Stack := { trained := x.trained && !x.fenced && keep }

/-- A link whose card is reset: the retimer takes it over, so it stays up and transit goes on; what the card itself
was sending or receiving on it is gone, and its registers are cleared (R560, R594; 19, "A card returns from a card
reset"). -/
def Link.afterReset (l : Link) : Link :=
  { l with
    stat := {}, down := 0, crc := 0, returnDue := false
    rx := (match l.rx with | .own _ => .drained | r => r)
    tx := (match l.tx with | .own _ => .free | t => t) }

/-- What R594 and Table 4-5 clear of the firmware and the MGT blocks, and what AON keeps. `retrain` says that every
stack must train again. HIF_ATTACH goes on showing the width, the speed and the mode of the link where the reset keeps
the link (R126, R137), and not its Reset column (log 145). -/
def clearMgt (retrain : Bool) (s : State) : State :=
  let active := (s.car.srcs.filter (fun e => inAon e.1 && e.2.active)).map (·.1)
  let kept := s.gng.held.filter (fun e => match e with | .source n => inAon n | _ => false)
  let stk : List (Nat × Stack) := [0, 1, 2, 3].map (fun k => (k, (s.stack k).afterReset (s.on (domMEM k) && !retrain)))
  let s := { s with
    pwr := { s.pwr with domHold := 0, holdActive := false, thermalLimited := false, capLimited := false
                        tripped := false, dieHot := false, coolSamples := 0 }
    boot := { s.boot with ready := false, scrubbed := false, fwAddr := 0, fwBusy := false, fwStatus := 0 }
    clk := { locked := s.clk.locked }
    ten := { tenants := s.ten.tenants.foldl (fun t e => Tbl.put {} t e.1 { e.2 with
        enable := false, disabling := false, mapBase := 0, mapCount := 0, chimeHpa := 0, hintHpa := 0
        chime := .absent, polls := 0, hintDue := false, hintHeld := false }) [] }
    gng := { era := s.gng.era + 1, held := kept, passed := (kept.map gongPort).eraseDups.map (fun p => (p, [])) }
    car := s.car.afterReset
    wbk := { pos := s.wbk.pos.foldl (fun t e => Tbl.put {} t e.1 { a := e.2.a, b := e.2.b }) [], pins := s.wbk.pins }
    mem := { cells := s.mem.cells, stk := stk.foldl (fun t e => Tbl.put {} t e.1 e.2) [] }
    sch := { nextJob := s.sch.nextJob }
    grd := { tiles := s.grd.tiles.foldl (fun t e => Tbl.put {} t e.1 { exclude := e.2.exclude }) [] }
    rol := []
    ink := {}
    tok := {}
    cym := {}
    chn := { assigned := s.chn.assigned, unit := s.chn.unit, copy := s.chn.copy, route := s.chn.route, absent := s.chn.absent
             bypassing := true
             links := s.chn.links.foldl (fun t e => Tbl.put {} t e.1 e.2.afterReset) [] }
    flt := { next := s.flt.next, cnt := s.flt.cnt, recs := s.flt.recs, tileHw := s.flt.tileHw } }
  let s := forEach [0, 1] pumpAll s
  forEachAny active (fun n s => if s.levelHolds n then askEvent n false s else s) s

/-- The tenant page of a tenant at its reset values: its rings keep only what AON holds (R152, R255). The lines in the
device cache are PF0's, and stay while the link is up in CXL mode (R138, R189). -/
def clearPage (t : Nat) (s : State) : State :=
  let x := s.tenant t
  let keep := s.hif.cxl && s.hif.linkUp
  let s := s.setTenant t { x with
    chimeAddr := 0, pollUs := 10, polls := 0, chime := if keep then x.chime else .absent
    hintDue := false, hintHeld := keep && x.hintHeld }
  forEach ringsOf (fun r s =>
    let x := s.ring t r
    s.setRing t r { copy := x.copy, uncovered := x.uncovered, firstAt := x.firstAt, firePending := x.firePending }) s

/-- The CQ state that AON holds for a tenant is cleared (R260). -/
def clearCq (t : Nat) (s : State) : State :=
  forEach ringsOf (fun r s => s.setRing t r { s.ring t r with
    copy := {}, uncovered := 0, firstAt := none, firePending := false }) s

/-- HIF and configuration space at their reset values: every tenant page with them. PF0's PME fields are
auxiliary logic and stay (Table 4-1, log 55). -/
def clearHif (s : State) : State :=
  forEach tenants clearPage { s with hif := { pmeEn := s.hif.pmeEn, pmeStatus := s.hif.pmeStatus } }

/-! ## Function reset (R166) -/

/-- An FLR of tenant t's function (R166, R203, R260). -/
def flrTenant (t : Nat) (s : State) : State :=
  let s := dropTenant t s
  let s := queueScrub (some t) ((s.pages t).map (·.2)) s
  let s := tenantLost t s
  let s := clearCq t (clearPage t (s.setFunc t { flrBusy := true }))
  s.setTenant t { s.tenant t with epoch := (s.tenant t).epoch + 1 }

/-- The card gives up the lines of a tenant that its device cache holds (R139, R140). -/
def evictLines (t : Nat) (s : State) : State :=
  let x := s.tenant t
  let s := if x.chime = .held then s.emit (.cleanEvict x.chimeHpa) else s
  if x.hintHeld then s.emit (.cleanEvict x.hintHpa) else s

/-- A tenant is no longer enabled, once disabled or once it has stopped existing (R160, R161; 05, "NumVFs is
reduced"). -/
def tenantGone (t : Nat) (s : State) : State :=
  let s := evictLines t s
  s.setTenant t { s.tenant t with
    enable := false, disabling := false, chime := .absent, polls := 0, hintDue := false, hintHeld := false }

/-- The VFs that exist. -/
def State.existing (s : State) : List Nat := (tenants.drop 1).filter s.tenantExists

/-! ## The stop of a trip and of a halt (R109 steps 1, 2 and 4) -/

/-- Every line port stops, and then the domains turn off; streams stop with their domain, and the card's own
reservations with the stacks' (R109, R378, R464, R546). -/
def stopAll (s : State) : State :=
  let s := forEach portsAll (fun p s => portStop p 7 s) s
  let s := forEach [0, 1, 2, 3, 4, 5, 6, 7] (fun n s => streamStop n 7 s) s
  rescale (domainsOff (switched ++ [3, 4, 5, 6]) s)

end Sys2Proof.Machine
end

