-- ==== Sys2Proof/Machine/Board.lean ====
section
/-!
DEFINITION. The board: auxiliary power, the cable feeds, the BRD_ registers and the LINE connector (03).
-/
namespace Sys2Proof.Machine

/-! ## Connector positions (R78, R79) -/

/-- Position of offset o of line port p's block. -/
def linePosition (p o : Nat) : Nat := 25 * p + o
/-- Positions of the Woodblock, quadrature, GP and motor-driver pins. -/
def wbOutPosition (k : Nat) : Nat := 101 + 2 * k
def qaPosition (q : Nat) : Nat := 133 + 4 * q
def qbPosition (q : Nat) : Nat := 134 + 4 * q
def gpPosition (k : Nat) : Nat := 149 + 2 * k
def mfltPosition (k : Nat) : Nat := 181 + 2 * k

/-! ## Power (R75, R76) -/

/-- The auxiliary limit of Table 3-2. -/
def auxLimit (b : Brd) : Nat :=
  if !b.auxPresent then 0
  else match b.sense0Open, b.sense1Open with
    | false, false => 600
    | true, false => 450
    | false, true => 300
    | true, true => 150

/-- Available power in W (R76). -/
def availW (b : Brd) : Nat := 75 + auxLimit b

/-- The effective cap in W (R76). -/
def State.effectiveCap (s : State) : Nat := min s.pwr.capW.toNat (min (availW s.brd) 420)

/-- The auxiliary input drops below 10.8 V: in D0 the card comes within 75 W by lowering VGRID, and records
it (R77). `fitMv` is the voltage the controller lowers VGRID to (log 53). SENSE0 and SENSE1 keep their last levels
(log 119). -/
def auxPowerLoss (fitMv : Nat) (s : State) : State :=
  if !s.brd.auxPresent then s
  else
    let s := { s with brd := { s.brd with auxPresent := false } }
    if s.pwr.dstate = .d0 ∧ s.on domMGT then
      let fit := max 550 (fitMv / 10 * 10)
      let v := min (min s.pwr.vset.toNat s.pwr.vact.toNat) fit
      let s := { s with pwr := { s.pwr with vact := BitVec.ofNat 10 v
                                            capLimited := decide (fit < s.pwr.vset.toNat) } }
      fire { detector := 0x10, level := lvlNone, info0 := v, info1 := availW s.brd } s
    else s

/-- AUX_POWER_LOSS (R77). -/
def execAuxPowerLoss (fitMv : Nat) (s : State) : Result := .next (auxPowerLoss fitMv s)

/-- AUX_INPUT_PRESENT (R75). -/
def execAuxInputPresent (sense0Open sense1Open : Bool) (s : State) : Result :=
  .next { s with brd := { s.brd with
    auxPresent := true, sense0Open := sense0Open, sense1Open := sense1Open } }

/-- A cage feed overload is recorded (Table 20-1). -/
def recordOverload (cage : Nat) (s : State) : State :=
  fire { detector := 0x12, level := lvlUnit, location := cage } s

/-- A cage feed is overloaded: it turns off, and its fault bit is set (R88). While MGT is off the record waits
(log 118). -/
def feedOverload (cage : Nat) (s : State) : State :=
  let b := s.brd
  if !s.on domAON ∨ !(if cage = 0 then b.feedIn else b.feedOut) then s
  else
    let b := if cage = 0 then { b with feedIn := false, faultIn := true }
             else { b with feedOut := false, faultOut := true }
    let s := { s with brd := b }
    if s.on domMGT then recordOverload cage s
    else { s with brd := { s.brd with feedDue := s.brd.feedDue ++ [cage] } }

/-- CABLE_FEED_OVERLOAD (R88). -/
def execCableFeedOverload (cage : Fin 2) (s : State) : Result := .next (feedOverload cage s)

/-- The bell-core debug port answers on BDBG_CLK and BDBG_IO, and drives BDBG_IO: the port is enabled and the bell cores
are on (R85). -/
def State.debugAnswers (s : State) : Bool := s.brd.dbgEnable && s.on domMGT

/-! ## BRD_ registers (Table 3-7) -/

/-- A BRD_ register; none where the offset is unassigned. -/
def brdRead (off : Nat) (s : State) : Option Reg :=
  let b := s.brd
  match off with
  | 0x000 => some (pack [(16, 0x0036), (8, b.boardRev.toNat), (0, b.stepping.toNat)])
  | 0x010 => some (pack [(16, availW b), (2, b.auxPresent.toNat), (1, b.sense1Open.toNat), (0, b.sense0Open.toNat)])
  | 0x020 => some (pack [(3, b.faultOut.toNat), (2, b.faultIn.toNat), (1, b.feedOut.toNat), (0, b.feedIn.toNat)])
  | 0x030 => some (pack [(0, b.dbgEnable.toNat)])
  | 0x040 => some (b.gpDir.zeroExtend 32)
  | 0x044 => some (b.gpOut.zeroExtend 32)
  | 0x048 => some (s.car.levels.zeroExtend 32)
  | _ => none

/-- The effect of a write of a BRD_ register; none where the offset is unassigned. BRD_DBG_CTL answers PF0
only (Table 3-7; a write of another requester is an error, log 58). -/
def brdWrite (q : Requester) (off : Nat) (v : BitVec 32) (s : State) : Option State :=
  let b := s.brd
  match off with
  | 0x000 => some s
  | 0x010 => some s
  | 0x020 => some { s with brd := { b with
      faultOut := b.faultOut && !bit v 3, faultIn := b.faultIn && !bit v 2
      feedOut := bit v 1, feedIn := bit v 0 } }
  | 0x030 => some (if q = .fn 0 then { s with brd := { b with dbgEnable := bit v 0 } } else regError q 0x30 s)
  | 0x040 => some (driveGps { s with brd := { b with gpDir := fldv v 0 16 } })
  | 0x044 => some (driveGps { s with brd := { b with gpOut := fldv v 0 16 } })
  | 0x048 => some s
  | _ => none

/-- A read by SMBus of command code c: the BRD_ register at offset 4c, or 0 (R86, R150). -/
def smbusRead (port : Fin 2) (code : Nat) (s : State) : State :=
  regRead (.smbus port) (.blk (4 * code)) (fun s => ((brdRead (4 * code) s).getD 0, s)) s

/-- SMBUS_BLOCK_READ (R86). -/
def execSmbusBlockRead (port : Fin 2) (code : Fin 64) (s : State) : Result := .next (smbusRead port code s)

/-- A write by SMBus of command code c (R86, R150). -/
def smbusWrite (port : Fin 2) (code : Nat) (v : BitVec 32) (s : State) : State :=
  regWrite (.smbus port) (.blk (4 * code)) (fun s =>
    match brdWrite (.smbus port) (4 * code) v s with
    | some s => s
    | none => regError (.smbus port) (4 * code) s) s

/-- SMBUS_BLOCK_WRITE (R86). -/
def execSmbusBlockWrite (port : Fin 2) (code : Fin 64) (v : BitVec 32) (s : State) : Result :=
  .next (smbusWrite port code v s)

end Sys2Proof.Machine
end

