-- ==== Sys2Proof/Machine/Carillon.lean ====
section
/-!
DEFINITION. The commands of the Gong (07) and of Carillon (08).
-/
namespace Sys2Proof.Machine

/-! ## The Gong -/

/-- A read of GNG_NEXT_LO latches GNG_NEXT_HI and takes no stamp (R220). -/
def nextRead (s : State) : Reg × State :=
  (s.gng.next.extractLsb' 0 32, { s with gng := { s.gng with nextHi := s.gng.next.extractLsb' 32 16 } })

/-- GNG_NEXT_READ (R220). -/
def execGngNextRead (q : Requester) (s : State) : Result := .next (regRead q (.blk 0x500000) nextRead s)

/-- A read of GNG_HOLD clears it. -/
def holdRead (s : State) : Reg × State := (s.gng.hold, { s with gng := { s.gng with hold := 0 } })

/-- GNG_HOLD_READ (R216). -/
def execGngHoldRead (q : Requester) (s : State) : Result := .next (regRead q (.blk 0x500010) holdRead s)

/-! ## Sources and pins -/

/-- GLITCH_FILTER_OUTPUT (R230). -/
def execGlitchFilterOutput (k : Fin 20) (level held : Bool) (s : State) : Result :=
  .next (glitchFilterOutput k level held s)

/-- An event of source n reaches its port: it is latched, or held there (R206, R215, R226). Reserved sources
and pins have no such event (R222). -/
def sourceEvent (n : Nat) (held : Bool) (s : State) : State :=
  if !s.on domMGT ∨ reservedSource n ∨ isPin n then s else askEvent n held s

/-- SOURCE_EVENT (R226). -/
def execSourceEvent (n : Fin 512) (held : Bool) (s : State) : Result := .next (sourceEvent n held s)

/-- The CAR_ window. -/
def baseCAR : Nat := 0x600000

/-- The RW fields of CAR_SRCn (Table 8-5). -/
def Src.write (x : Src) (v : BitVec 32) : Src :=
  { x with priority := fldv v 24 8, vector := fldv v 18 6, target := fldv v 15 3, sense := fldv v 12 3,
           wake := bit v 11, mask := bit v 10 }

/-- A write of CAR_SRCn. `inWindow` says that it lands between a selection of the source and its commit: a mask then
stops nothing, and a change of target or vector abandons the selection (R224, R225, R242, R243; an event on a sense
that does not change is log 43, a source presented with a claim or a done is log 133). -/
def srcWrite (n : Nat) (v : BitVec 32) (inWindow : Bool) (s : State) : State :=
  let x := s.src n
  let y := x.write v
  let moved := decide (y.target ≠ x.target) || decide (y.vector ≠ x.vector)
  let masked := !x.mask && y.mask
  let inFlight := inWindow && (s.selected n || (s.hostReady n && !x.mask))
  let z := if x.active then y
    else if x.presented then (if moved || (masked && !inWindow) then { y with presented := false } else y)
    else if moved then { y with committing := false }
    else if inFlight && masked then { y with committing := true }
    else y
  let s := s.setSrc n z
  if y.sense ≠ x.sense ∧ (levelSense y.sense).isSome ∧ s.levelHolds n then askEvent n false s else s

/-- CAR_SRC_WRITE (R224). -/
def execCarSrcWrite (q : Requester) (n : Fin 512) (v : BitVec 32) (inWindow : Bool) (s : State) : Result :=
  .next (regWrite q (.blk (baseCAR + 4 * n)) (srcWrite n v inWindow) s)

/-- A selected source is committed: it is presented to its core, one at a time and once the firmware runs, or its
message is sent (R223, R234, R238, R243, R248; one presented source a core is log 49, log 132). -/
def sourceCommit (n : Nat) (s : State) : State :=
  let x := s.src n
  if !s.on domMGT then s
  else if s.hostReady n ∧ (!x.mask ∨ x.committing) then
    fireMsix 0 x.vector.toNat (s.setSrc n { x with pending := false, committing := false })
  else if s.boot.stage = .running ∧ (s.selected n
      ∨ (s.presentable n ∧ x.committing ∧ (s.presentedTo x.target.toNat).isNone)) then
    s.setSrc n { x with presented := true, committing := false }
  else s

/-- SOURCE_COMMIT (R243). -/
def execSourceCommit (n : Fin 512) (s : State) : Result := .next (sourceCommit n s)

/-! ## Claim and done -/

/-- A claim of source n starts its group's hold-off: what the group has presented is withdrawn and what it
has selected is abandoned (R247). -/
def holdOff (g : Nat) (s : State) : State :=
  if s.car.holdoff.find 0 g = 0 then s
  else
    let s := { s with car := { s.car with inHoldoff := setBit s.car.inHoldoff g true } }
    let ns := (s.car.srcs.filter (fun e => sourceGroup e.1 == g && (e.2.presented || e.2.committing))).map (·.1)
    forEach ns withdraw s

/-- Core c reads CAR_CLAIMc (Table 8-2). -/
def claim (c : Nat) (s : State) : Reg × State :=
  match s.presentedTo c with
  | none => (0, s)
  | some n =>
    let x := s.src n
    let s := s.setSrc n { x with presented := false, pending := false, active := true }
    let s := s.setClaimed c ((n, x.priority.toNat) :: s.claimed c)
    (BitVec.ofNat 32 (n + 1), presentNext c (holdOff (sourceGroup n) s))

/-- A register that answers only bell core c (R239). -/
def ownCore (q : Requester) (c : Nat) : Bool :=
  match q with
  | .core d => d.val == c
  | _ => false

/-- A read of CAR_CLAIMc. -/
def claimRead (q : Requester) (c : Nat) (s : State) : Reg × State :=
  if ownCore q c then claim c s else (0, regError q (baseCAR + 0x4000 + 0x10 * c) s)

/-- CAR_CLAIM (R239). -/
def execCarClaim (q : Requester) (c : Fin 4) (s : State) : Result :=
  .next (regRead q (.blk (baseCAR + 0x4000 + 0x10 * c)) (claimRead q c) s)

/-- Core c writes CAR_DONEc (Table 8-3). -/
def done (q : Requester) (c : Nat) (v : BitVec 32) (s : State) : State :=
  let n := fld v 0 9
  if ownCore q c ∧ (s.claimed c).any (fun x => x.1 == n) then
    presentNext c (endActive n (s.setClaimed c ((s.claimed c).filter (fun x => x.1 != n))))
  else regError q (baseCAR + 0x4004 + 0x10 * c) s

/-- CAR_DONE (R239). -/
def execCarDone (q : Requester) (c : Fin 4) (v : BitVec 32) (s : State) : Result :=
  .next (regWrite q (.blk (baseCAR + 0x4004 + 0x10 * c)) (done q c v) s)

/-- Writes of 1 to CAR_SWSETw raise one event each, in any order (R209, R245). -/
def swset (w : Nat) (v : BitVec 32) (s : State) : State :=
  forEachAny ((List.range 32).filter (fun j => bit v j)) (fun j s => raise (32 * w + j) s) s

/-- CAR_SWSET (R245). -/
def execCarSwset (q : Requester) (w : Fin 16) (v : BitVec 32) (s : State) : Result :=
  .next (regWrite q (.blk (baseCAR + 0x800 + 4 * w)) (swset w v) s)

/-- A write of 1 to CAR_LOSTn.lost (R228). -/
def lostClear (n : Nat) (v : BitVec 32) (s : State) : State :=
  if bit v 31 then s.setSrc n { s.src n with lost := false, count := 0 } else s

/-- CAR_LOST_CLEAR (R228). -/
def execCarLostClear (q : Requester) (n : Fin 512) (v : BitVec 32) (s : State) : Result :=
  .next (regWrite q (.blk (baseCAR + 0x1000 + 4 * n)) (lostClear n v) s)

/-- A read of CAR_STAMPn_LO latches the high part. -/
def stampRead (n : Nat) (s : State) : Reg × State :=
  let x := s.src n
  (x.stamp.extractLsb' 0 32, s.setSrc n { x with stampHi := x.stamp.extractLsb' 32 16 })

/-- CAR_STAMP_READ (R206). -/
def execCarStampRead (q : Requester) (n : Fin 512) (s : State) : Result :=
  .next (regRead q (.blk (baseCAR + 0x2000 + 8 * n)) (stampRead n) s)

/-- HOLDOFF_EXPIRE (R247). -/
def execHoldoffExpire (g : Fin 32) (s : State) : Result :=
  .next { s with car := { s.car with inHoldoff := setBit s.car.inHoldoff g false } }

/-! ## Sleep and wake -/

/-- A latched pin with wake set wakes the host while PME_En is 1 (R233). -/
def latchWake (s : State) : State :=
  if s.hif.pmeEn ∧ (List.range 20).any (fun k => bit s.car.latches k && (s.src (384 + k)).wake) then
    { s with hif := { s.hif with pmeStatus := true } }
  else s

/-- An edge of pin k to a level, while CK_AON is stopped (R231, R233). -/
def pinLatchCatch (k : Nat) (level : Bool) (s : State) : State :=
  if s.on domAON ∧ !s.ckAon ∧ !bit s.car.latches k ∧ senses (s.src (384 + k)).sense level then
    latchWake { s with car := { s.car with latches := setBit s.car.latches k true } }
  else s

/-- PIN_LATCH_CATCH (R231). -/
def execPinLatchCatch (k : Fin 20) (level : Bool) (s : State) : Result := .next (pinLatchCatch k level s)

/-- CK_AON runs again: each set latch is one event, stamped now in any order, and is cleared (R209, R232). -/
def pinLatchReplay (s : State) : State :=
  if s.ckAon ∧ s.on domMGT then
    let ks := (List.range 20).filter (fun k => bit s.car.latches k)
    forEachAny ks (fun k s => askEvent (384 + k) false s) { s with car := { s.car with latches := 0 } }
  else s

/-- PIN_LATCH_REPLAY (R232). -/
def execPinLatchReplay (s : State) : Result := .next (pinLatchReplay s)

/-! ## Completion rings -/

/-- T has passed since the first uncovered completion (R251). -/
def coalesceTimer (t r : Nat) (s : State) : State :=
  if (s.ring t r).uncovered = 0 then s else fireCq t r s

/-- COALESCE_TIMER_EXPIRE (R251). -/
def execCoalesceTimerExpire (t : Fin 64) (r : Fin 8) (s : State) : Result := .next (coalesceTimer t r s)

/-- The T of a ring's copy, in ticks, has passed since its first uncovered completion (R251, R255). -/
def State.coalElapsed (s : State) (x : Ring) : Bool :=
  match x.firstAt with
  | some n => decide (n + 250 * x.copy.timeUs.toNat ≤ s.now)
  | none => false

/-- A write of TPG_COALr: it takes effect at once, is copied to AON, and fires where it is already met (R253,
R255). `timeMet` says that the new T has passed since the first uncovered completion, on a clock outside the model
(log 3). -/
def coalWrite (t r : Nat) (v : BitVec 32) (timeMet : Bool) (s : State) : State :=
  let c : Coal := { timeUs := if fld v 16 16 = 0 then 1 else fldv v 16 16, countM1 := fldv v 8 8, wake := bit v 0 }
  let x := { s.ring t r with coal := c, copy := c }
  let s := s.setRing t r x
  if x.uncovered ≠ 0 ∧ (x.c ≤ x.uncovered ∨ timeMet ∨ s.coalElapsed x) then fireCq t r s else s

/-- COAL_WRITE (R253). -/
def execCoalWrite (q : Requester) (t : Fin 64) (r : Fin 8) (v : BitVec 32) (timeMet : Bool) (s : State) : Result :=
  .next (regWrite q (.tpg t (0x400 + 8 * r)) (coalWrite t r v timeMet) s)

/-- Nothing blocks an entry whose pending bit is set: its message is sent once (R250, R256). -/
def msixUnblock (t e : Nat) (s : State) : State :=
  let f := s.func t
  if s.tenantExists t ∧ bit f.pba e ∧ !f.blocked e ∧ s.pwr.dstate = .d0 then
    sendMsix t e (s.setFunc t { f with pba := setBit f.pba e false })
  else s

/-- MSIX_UNBLOCK (R250). -/
def execMsixUnblock (t e : Fin 64) (s : State) : Result := .next (msixUnblock t e s)

/-- The link has left L1 for L0: what was held is sent, or waits for PF0 to enter D0 (R254, R256). -/
def l1Exit (s : State) : State :=
  if s.hif.l1 then sendHeld { s with hif := { s.hif with l1 := false } } else s

/-- L1_EXIT_SEND (R254). -/
def execL1ExitSend (s : State) : Result := .next (l1Exit s)

/-- A write of PF0's PME fields: it drives or releases WAKE# (R233, R257). -/
def pmeConfig (clearStatus en : Bool) (s : State) : State :=
  if !s.hif.linkUp ∨ (s.func 0).flrBusy then s
  else latchWake { s with hif := { s.hif with pmeStatus := s.hif.pmeStatus && !clearStatus, pmeEn := en } }

/-- PME_CONFIG_WRITE (R257). -/
def execPmeConfigWrite (clearStatus en : Bool) (s : State) : Result := .next (pmeConfig clearStatus en s)

end Sys2Proof.Machine
end

