-- ==== Sys2Proof/Machine/Flags.lean ====
section
/-!
DEFINITION. Saturation events: the slots of a tile, their windows and the calibration-drift event
(R336, R350-R353).
-/
namespace Sys2Proof.Machine

/-- Add n events to a saturating 32-bit count. -/
def satAdd (v : Reg) (n : Nat) : Reg := BitVec.ofNat 32 (min 0xFFFFFFFF (v.toNat + n))

/-- The window of a slot that holds the present tick, with the pass of the time counter it lies in (R351, R413). -/
def State.satWindow (s : State) (c : SatCfg) : Nat :=
  s.wbk.wrap.toNat * 2 ^ 40 + s.wbk.time.toNat / (250 * c.windowUs.toNat)

/-- Count n events in one slot of a tile; the window count that reaches the threshold raises the drift
event once, and writes GRD_QSATq (R350-R353). -/
def countSat (i slot n : Nat) (s : State) : State :=
  if n = 0 then s
  else
    let x := s.tile i
    let c := x.satCfg.find {} slot
    let k := s.satWindow c
    let old := x.satWin.find {} slot
    let w : SatWin := if old.count = 0 ∨ old.window ≠ k then { window := k, count := n, raised := false }
                      else { old with count := old.count + n }
    let hit := decide (c.threshold ≠ 0) && !w.raised && decide (c.threshold.toNat ≤ w.count)
    let y := { x with sat := x.sat.put 0 slot (satAdd (x.sat.find 0 slot) n)
                      satWin := x.satWin.put {} slot { w with raised := w.raised || hit } }
    let s := s.setTile i y
    if hit then
      let q := quadrant i
      raise (320 + 16 * q + slot) { s with grd := { s.grd with
        qsat := s.grd.qsat.put {} q { tag := x.tag, tile := BitVec.ofNat 10 i, slot := BitVec.ofNat 4 slot } } }
    else s

end Sys2Proof.Machine
end

