-- ==== Sys2Proof/Machine/TileOps.lean ====
section
/-!
DEFINITION. The tile sequencer: fields of an instruction, registers, scratchpad accesses and their faults,
the interlock, and one step of a tile (R300-R308, R318, R325, R332).
-/
namespace Sys2Proof.Machine

/-! ## Instruction fields (Table 10-2) -/

def wOp (w : Word) : Nat := fld w 30 6
def wRd (w : Word) : Nat := fld w 25 5
def wRs1 (w : Word) : Nat := fld w 20 5
def wRs2 (w : Word) : Nat := fld w 15 5
def wFn (w : Word) : Nat := fld w 0 15
/-- The 20-bit immediate, sign-extended. -/
def wSimm (w : Word) : Word := (w.extractLsb' 0 20).signExtend 36
/-- The 20-bit immediate, zero-extended. -/
def wUimm (w : Word) : Word := (w.extractLsb' 0 20).zeroExtend 36
def wImm (w : Word) : Nat := fld w 0 20
def wImm25 (w : Word) : Nat := fld w 0 25
/-- The branch operands of the B format. -/
def wB1 (w : Word) : Nat := fld w 25 5
def wB2 (w : Word) : Nat := fld w 20 5
def wVd (w : Word) : Nat := fld w 26 4
def wVs1 (w : Word) : Nat := fld w 22 4
def wVs2 (w : Word) : Nat := fld w 18 4
def wVrs (w : Word) : Nat := fld w 13 5
def wVfn (w : Word) : Nat := fld w 0 13
def wVfmt (w : Word) : Nat := fld w 9 4
def wVrnd (w : Word) : Bool := bit w 8
def wVovf (w : Word) : Bool := bit w 7
def wVslot (w : Word) : Nat := fld w 3 4
def wVsub (w : Word) : Nat := fld w 0 3
def wAd (w : Word) : Nat := fld w 28 2
def wM1 (w : Word) : Nat := fld w 23 5
def wM2 (w : Word) : Nat := fld w 18 5
def wMfn (w : Word) : Nat := fld w 0 18
/-- The row count n of a matrix instruction, from its field n − 1 at bit 7. -/
def wRows (w : Word) : Nat := fld w 7 5 + 1
/-- The first row r0 of a matrix instruction. -/
def wR0 (w : Word) : Nat := fld w 2 5

/-! ## Registers -/

/-- g[n]; g0 reads as 0 (R300). -/
def Tile.reg (x : Tile) (n : Nat) : Word := if n = 0 then 0 else x.g.find 0 n

/-- Write g[n]; a write to g0 is discarded (R303). -/
def Tile.setReg (x : Tile) (n : Nat) (v : Word) : Tile := if n = 0 then x else { x with g := x.g.put 0 n v }

/-- The 64 nonets of v[d]. -/
def Tile.vec (x : Tile) (d : Nat) : List Nonet := x.v.getAll 0 (64 * d) 64

def Tile.setVec (x : Tile) (d : Nat) (ns : List Nonet) : Tile :=
  { x with v := x.v.putAll 0 (64 * d) (ns.take 64) }

/-- Row r of a_d. -/
def Tile.accRow (x : Tile) (d r : Nat) : List Word := x.acc.getAll 0 (1024 * d + 32 * r) 32

def Tile.setAccRow (x : Tile) (d r : Nat) (ws : List Word) : Tile :=
  { x with acc := x.acc.putAll 0 (1024 * d + 32 * r) (ws.take 32) }

/-- W[k][j] of a weight bank. -/
def Tile.weight (x : Tile) (b k j : Nat) : Int := (x.w.find 0 (1024 * b + 32 * k + j)).toInt

/-- n nonets of the scratchpad. -/
def Tile.scratch (x : Tile) (a n : Nat) : List Nonet := x.scr.getAll 0 a n

/-- The word at a scratchpad address (R11). -/
def Tile.scratchWord (x : Tile) (a : Nat) : Word := wordOf (x.scratch a 4)

/-- Write nonets to the scratchpad; each is written with good parity (R264). -/
def Tile.setScratch (x : Tile) (a : Nat) (ns : List Nonet) : Tile :=
  { x with scr := x.scr.putAll 0 a ns
           badParity := x.badParity.filter (fun b => !(decide (a ≤ b) && decide (b < a + ns.length))) }

/-- Mailbox m. -/
def Tile.box (x : Tile) (m : Nat) : Mailbox := x.mbox.find {} m

def Tile.setBox (x : Tile) (m : Nat) (b : Mailbox) : Tile := { x with mbox := x.mbox.put {} m b }

/-! ## Scratchpad accesses -/

/-- One access of an instruction: nonets from an address, and the alignment the address must keep (R305). -/
structure Acc where
  write : Bool
  addr  : Nat
  n     : Nat
  align : Nat := 1

/-- Lanes held by a mailbox: the messages accepted and not released. -/
def Mailbox.used (b : Mailbox) : Nat := (b.prod - b.cons).toNat

/-- Lane l lies in the ring of an open mailbox, outside the lanes a program may read (R325). -/
def Mailbox.unread (b : Mailbox) (l : Nat) : Bool :=
  let sz := b.size.toNat
  !(decide ((l - b.base.toNat + sz - b.cons.toNat % sz) % sz < b.used))

/-- The access touches an open mailbox's region against R325. -/
def Mailbox.bars (b : Mailbox) (a : Acc) : Bool :=
  decide (b.size ≠ 0) && decide (0 < a.n) &&
    (List.range ((a.addr + a.n - 1) / 8 - a.addr / 8 + 1)).any (fun i =>
      let l := a.addr / 8 + i
      decide (b.base.toNat ≤ l) && decide (l < b.base.toNat + b.size.toNat) && (a.write || b.unread l))

/-- The fault of a list of accesses: range, then alignment, then mailbox regions (log 35). -/
def Tile.accFault (x : Tile) (as : List Acc) : Option Nat :=
  if as.any (fun a => decide (262144 < a.addr + a.n)) then some 0x12
  else if as.any (fun a => decide (a.addr % a.align ≠ 0)) then some 0x13
  else if x.mbox.any (fun b => as.any (fun a => b.2.bars a)) then some 0x18
  else none

/-- An access waits for an outstanding transfer that writes a line it touches, or that reads a line it
writes (R318). -/
def Xfer.blocks (t : Xfer) (a : Acc) : Bool :=
  (!t.store || a.write) && decide (0 < a.n) && decide (a.addr / 64 < t.sline + t.lines)
    && decide (t.sline ≤ (a.addr + a.n - 1) / 64)

def Tile.interlocked (x : Tile) (as : List Acc) : Bool := x.xfers.any (fun t => as.any t.blocks)

/-- The first nonet with a parity error that the accesses read (R266). -/
def Tile.parity (x : Tile) (as : List Acc) : Option Nat :=
  x.badParity.find? (fun b => as.any (fun a => !a.write && decide (a.addr ≤ b) && decide (b < a.addr + a.n)))

/-! ## One instruction -/

/-- What an instruction does to its tile, before the pc moves. -/
inductive TileOut where
  /-- The tile after it, with saturation events by slot; the next instruction follows. -/
  | done (x : Tile) (sats : List (Nat × Nat))
  /-- The tile after it, and the instruction address it moves to. -/
  | jump (x : Tile) (target : Int)
  /-- It waits, and nothing changes. -/
  | wait
  /-- It faults with a code; `info1` of the record is the pc, or what `at` says. -/
  | fault (code : Nat)
  | faultAt (code info : Nat)

/-- Guard an instruction's effect with its scratchpad accesses: faults, then the interlock, then parity. -/
def Tile.access (x : Tile) (as : List Acc) (f : TileOut) : TileOut :=
  match x.accFault as with
  | some c => .fault c
  | none =>
    if x.interlocked as then .wait
    else match x.parity as with
      | some b => .faultAt 4 b
      | none => f

/-- The tile can run its next instruction. -/
def Tile.ready (x : Tile) : Bool := x.running && x.sending.isNone && !x.atBar

/-- The instruction at the pc. -/
def Tile.instr (x : Tile) : Word := x.imem.find 0 x.pc.toNat

/-- Count saturation events of several slots. -/
def countSats (i : Nat) (sats : List (Nat × Nat)) (s : State) : State :=
  forEach sats (fun p s => countSat i p.1 p.2 s) s

/-- Apply an instruction's result: move the pc, or stop the tile with its fault (R308, R332). Its
handshakes are acknowledged, so its watchdog restarts (R296). -/
def applyOut (i : Nat) (o : TileOut) (s : State) : State :=
  let x := s.tile i
  match o with
  | .wait => s
  | .fault c => tileFault i c x.pc.toNat s
  | .faultAt c info => tileFault i c info s
  | .done y sats =>
    if x.pc = BitVec.allOnes 14 then tileFault i 0x15 x.pc.toNat s
    else countSats i sats (s.setTile i { y with pc := x.pc + 1, wdog := 0 })
  | .jump y t =>
    if 0 ≤ t ∧ t ≤ 16383 then s.setTile i { y with pc := BitVec.ofInt 14 t, wdog := 0 }
    else tileFault i 0x15 x.pc.toNat s

/-- Run the instruction at tile i's pc, if its opcode is op and the tile is ready. -/
def tileRun (op i : Nat) (f : Word → Tile → TileOut) (s : State) : State :=
  let x := s.tile i
  if x.ready ∧ wOp x.instr = op then applyOut i (f x.instr x) s else s

end Sys2Proof.Machine
end

