-- ==== Sys2Proof/Machine/ChainOps.lean ====
section
/-!
DEFINITION. What the mesh and the chain share: routes, flits sent on a link, answers (R551-R555, R561).
-/
namespace Sys2Proof.Machine

/-- Entry of a unit in the route table: 0 unknown, 1 upstream, 2 downstream, 3 self (R554). -/
def State.routeTo (s : State) (u : Nat) : Nat := (s.chn.route.find 0 u).toNat

/-- The link towards a unit, if its entry names one and that link is up (R555). -/
def State.linkTo (s : State) (u : Nat) : Option Nat :=
  if s.routeTo u = 1 ∧ s.linkUsable 0 then some 0
  else if s.routeTo u = 2 ∧ s.linkUsable 1 then some 1
  else none

/-- The flits of a message: its lanes eight at a time, the first FIRST, the others CONT (R551, R564). -/
def flitsOf (ls : List Lane) : List Flit :=
  let cs := chunks 8 ls.length ls
  cs.mapIdx (fun i c => { kind := if i = 0 then 1 else 2, last := decide (i + 1 = cs.length), lanes := c })

/-- Fields of a header handshake lane (Table 9-2). -/
def hdrLength (l : Lane) : Nat := fld l 0 9
def hdrMailbox (l : Lane) : Nat := fld l 10 4
def hdrTile (l : Lane) : Nat := fld l 14 10
def hdrUnit (l : Lane) : Nat := fld l 24 12
def hdrDest (l : Lane) : Nat := fld l 14 22
def hdrSrcTile (l : Lane) : Nat := fld l 36 10
def hdrSrcUnit (l : Lane) : Nat := fld l 46 12
def hdrTag (l : Lane) : Nat := fld l 58 14

/-- Codes of an ANSWER flit (R561). -/
def ansTooLong : Nat := 2
def ansUnreachable : Nat := 3
def ansFence : Nat := 5

/-- Answer a message towards its source unit: lane 0 is its header lane, lane 1 byte 0 the code (R561). -/
def sendAnswer (hdr : Lane) (code : Nat) (s : State) : State :=
  match s.linkTo (hdrSrcUnit hdr) with
  | some x => sendFlit x { kind := 4, lanes := [hdr, BitVec.ofNat 72 code] } s
  | none => s

/-- A message of one of this card's tiles fails with a grid-level code: its tile stops if its tag is still
the message's (R282, R285, R562). -/
def failSender (hdr : Lane) (code : Nat) (s : State) : State :=
  let i := hdrSrcTile hdr
  if (s.tile i).tag.toNat = hdrTag hdr ∧ (s.tile i).tag ≠ 0 then tileFault i code (hdrDest hdr) s else s

end Sys2Proof.Machine
end

