-- ==== Sys2Proof/Machine/SchedOps.lean ====
section
/-!
DEFINITION. Placing, starting, spilling and restoring a job (R386-R411, R565).
-/
namespace Sys2Proof.Machine

/-! ## Admission's end (R385-R388, R399) -/

/-- U_a / w_a is below U_b / w_b (R397). -/
def State.ratioBelow (s : State) (a b : Nat) : Bool :=
  decide ((s.schTen a).used.toNat * (s.schTen b).share.toNat < (s.schTen b).used.toNat * (s.schTen a).share.toNat)

/-- Among tenants, the one with the lowest U / w, the lowest number first. -/
def State.lowestRatio (s : State) : List Nat → Option Nat
  | [] => none
  | t :: ts => match s.lowestRatio ts with
    | none => some t
    | some u => if s.ratioBelow u t then some u else some t

/-- A tenant goes from no admitted job to one: U_t is raised to U_m × w_t / w_m (R399, rounded down, log 61). -/
def catchUp (t : Nat) (s : State) : State :=
  if 0 < s.admittedOf t then s
  else match s.lowestRatio (tenants.filter (fun u => u != t && decide (0 < s.admittedOf u))) with
    | none => s
    | some m =>
      let x := s.schTen t
      let u := (s.schTen m).used.toNat * x.share.toNat / (s.schTen m).share.toNat
      s.setSchTen t { x with used := BitVec.ofNat 64 (max x.used.toNat u) }

/-- The sample of a job as its checks found it (R474, R485, log 148). -/
def Queue.sampleOf (x : Queue) (j : Job) (id : Option Nat) : Sample :=
  let d : Dims := { w := j.srcDims.1, h := j.srcDims.2.1, planes := j.srcDims.2.2 }
  let stored := decide (dKind j.desc < 4)
  { ring := j.ring, seq := j.seq, job := id, lines := x.lines.toNat, budget := x.budget, z := x.z d
    width := d.w, height := d.h
    index := if stored then BitVec.ofNat 32 (dIndex j.desc) else 0
    epoch := if stored then BitVec.ofNat 8 (dEpoch j.desc) else 0 }

/-- A job's sample takes its place at the end of its queue, where it has none yet: in the order in which the
descriptors passed the checks of Table 16-4 (R477). -/
def queueSample (j : Job) (id : Option Nat) (s : State) : State :=
  if dKind j.desc = 0 then s
  else
    let q := dQueue j.desc
    let x := s.queue q
    let mine (y : Sample) : Bool := y.job.isNone && y.ring == j.ring && y.seq == j.seq
    if x.samples.any mine then
      s.setQueue q { x with samples := x.samples.map (fun y => if mine y then { y with job := id } else y) }
    else s.setQueue q { x with samples := x.samples ++ [x.sampleOf j id] }

/-- Accept a job's auxiliary input as a stream (R499, R506). -/
def queueStream (j : Job) (s : State) : State :=
  if dAuxLen j.desc = 0 then s
  else { s with tok := { s.tok with streams := s.tok.streams ++ [{ job := j.id, tenant := j.tenant, detok := false }] } }

/-- A job that passed every check is admitted: it takes its reservation, its spill region and its place in the
queue (R387). -/
def admitJob (j : Job) (s : State) : State :=
  let s := catchUp j.tenant s
  let n := s.sch.nextJob
  let j := { j with
    id := n
    parts := placed j.man.bw ((s.pages j.tenant).map (·.2))
    spillFirst := (s.spillRun j.tenant j.man.spill).getD 0
    spillLines := j.man.spill
    loadDue := dKind j.desc == 0 && dInLen j.desc != 0
    sampleDue := dKind j.desc != 0
    streamDue := dAuxLen j.desc != 0 }
  let s := { s with sch := { s.sch with jobs := s.sch.jobs ++ [j], nextJob := n + 1 } }
  rescale (queueStream j (queueSample j (some n) (decide1 j.tenant j.ring j.seq (.admitted n) s)))

/-- A job is rejected at a check beyond step 4: a spanning job gives its tag back. -/
def rejectJob (j : Job) (c : Cpl) (s : State) : State :=
  spanRelease j (decide1 j.tenant j.ring j.seq (.decided c) s)

/-- Steps 5-9 of Table 13-3, in order; `j` holds its tag where it spans cards. -/
def lateChecks (j : Job) (s : State) : State :=
  let d : Inflight := { seq := j.seq, desc := j.desc, st := .fetched }
  match s.domainCheck j.tenant j.desc j.man with
  | some c => rejectJob j c s
  | none =>
    match s.tileCheck j.tenant j.man with
    | some c => rejectJob j c s
    | none =>
      match readChecks schBlock j.tenant j.ring d j.man.chanReads s with
      | (false, s) => spanRelease j s
      | (true, s) =>
        if s.tooManyOutliers j.tenant j.man then rejectJob j (cpl stLimit 7) s
        else if !j.man.spans ∧ (s.spillRun j.tenant j.man.spill).isNone then rejectJob j (cpl stLimit 7) s
        else
          let x := s.bandwidthExcess j.tenant j.man.bw
          if x ≠ 0 then rejectJob j (cpl stBandwidth (min 0xFFFF (ceilDiv x 1000))) s else admitJob j s

/-! ## Spanning tags (R565) -/

/-- The head grants a key its tag to one more holder: the tag the key already has, or a free one, which one the
spec does not say (log 71). -/
def grantSpan (unit : BitVec 12) (key : BitVec 32) (s : State) : Option Nat × State :=
  match s.chn.tags.find? (fun g => g.key == key) with
  | some g =>
    let ts := s.chn.tags.map (fun h =>
      if h.key = key ∧ !h.holders.contains unit then { h with holders := h.holders ++ [unit] } else h)
    (some g.index, { s with chn := { s.chn with tags := ts } })
  | none =>
    let free := (List.range 8192).filter (fun i => s.chn.tags.all (fun g => g.index != i))
    if free.isEmpty then (none, s)
    else
      let i := free.getD (Config.fresh s.free % free.length) 0
      (some i, { s with free := s.free + 1
                        chn := { s.chn with tags := s.chn.tags ++ [{ key := key, index := i, holders := [unit] }] } })

/-- Step 4 of Table 13-3, and the checks after it (R565). -/
def spanCheck (j : Job) (s : State) : State :=
  let d : Inflight := { seq := j.seq, desc := j.desc, st := .fetched }
  if !j.man.spans then lateChecks j s
  else if !(s.schTen j.tenant).span then decide1 j.tenant j.ring d.seq (.decided (cpl stLimit 7)) s
  else if s.isHead then
    match grantSpan s.chn.unit j.jobId s with
    | (none, s) => decide1 j.tenant j.ring d.seq (.decided (cpl stLimit 7)) s
    | (some i, s) => lateChecks { j with tag := 8192 + i } s
  else sendCtrl 0 (.spanReq s.chn.unit j.jobId) (queueSample j none (decide1 j.tenant j.ring d.seq (.spanWait j) s))

/-- The ordinary tags in use. -/
def State.tagsUsed (s : State) : List Nat := s.sch.jobs.map (·.tag)

/-- A job's tag: the one it holds, or a free one of 1-8,191, which one the spec does not say (log 71). -/
def takeTag (j : Job) (s : State) : Nat × State :=
  if j.tag ≠ 0 then (j.tag, s)
  else
    let free := (List.range 8191).filter (fun i => !s.tagsUsed.contains (i + 1))
    (free.getD (Config.fresh s.free % free.length) 0 + 1, { s with free := s.free + 1 })

/-! ## Starting a job (R392, R393) -/

/-- A list as a table from key 0 on. -/
def Tbl.ofList {α : Type} [DecidableEq α] (d : α) (l : List α) : Tbl α :=
  ((l.zipIdx).filter (fun e => decide (e.1 ≠ d))).map (fun e => (e.2, e.1))

/-- The n words of a program image, two to nine bytes (R382). -/
def imageWords (n : Nat) (bs : List Byte) : List Word :=
  ((chunks 9 n bs).flatMap (fun c => [BitVec.ofNat 36 (ofLe c), BitVec.ofNat 36 (ofLe c / 2 ^ 36)])).take n

/-- The bytes of a program image. -/
def Prog.bytes (p : Prog) : Nat := ceilDiv (36 * p.words) 8

/-- The program of ordinal o. -/
def Manifest.progOf (m : Manifest) (o : Nat) : Prog := m.progs.getD (m.tiles.getD o 0) default

/-- GRD_TILEi_SATCFGs of a value of the manifest: a window of 0 is stored as 1 (Table 11-2). -/
def satCfgOf (v : BitVec 32) : SatCfg :=
  { windowUs := if fld v 16 16 = 0 then 1 else fldv v 16 16, threshold := fldv v 0 16 }

/-- A tile that starts the program of ordinal o of a job: zeroed, with the job's tag, program and saturation
settings (R162, R284, R299, R354, R393). -/
def startTile (j : Job) (tag : Nat) (words : List Word) (x : Tile) : Tile :=
  { exclude := x.exclude, running := true, tag := BitVec.ofNat 14 tag, recent := x.recent
    imem := Tbl.ofList 0 words
    satCfg := if j.man.sat.isEmpty then [] else Tbl.ofList {} (j.man.sat.map satCfgOf)
    interval := j.man.startUs, job := some j.id }

/-- The quadrants of a rectangle are powered (R392). -/
def powerQuadrants (tiles : List Nat) (s : State) : State :=
  forEach [0, 1, 2, 3] (fun q s =>
    if tiles.any (fun i => quadrant i == q) ∧ !s.on (domGRID q) then domainOn (domGRID q) s else s) s

/-- The programs a job's tiles run, each once. -/
def Job.programs (j : Job) : List (Nat × Nat) :=
  ((List.range j.count).map (fun o => ((j.man.progOf o).image, (j.man.progOf o).bytes))).eraseDups

/-- The words of ordinal o's image. -/
def State.programWords (s : State) (j : Job) (o : Nat) : List Word :=
  let p := j.man.progOf o
  imageWords p.words ((s.readTen j.tenant p.image p.bytes).getD [])

/-- Start job j on the rectangle at an origin (R393). -/
def startJob (id origin : Nat) (s : State) : State :=
  match s.job? id with
  | none => s
  | some j =>
    let ts := rect origin j.man.width j.man.height
    if s.claimedAny j.tenant j.programs then s
    else match readRegions schBlock id j.tenant j.programs (powerQuadrants ts s) with
    | (false, s) => s
    | (true, s) =>
      let (tag, s) := takeTag j s
      let s := forEach (List.range j.count) (fun o s =>
        let i := ts.getD o 0
        s.setTile i (startTile j tag (s.programWords j o) (s.tile i))) s
      s.modJob id (fun j => { j with
        phase := .running, origin := origin, tag := tag, kept := none, passedAt := none, starving := false, ran := 0 })

/-! ## The scheduler's choice (R392, R397, R398, R406, R407) -/

/-- A job's class. -/
def State.classOf (s : State) (j : Job) : Nat := (s.schTen j.tenant).cls.toNat

/-- A job waits for tiles: its input is in place, or it has been spilled (R411, R478, R506). -/
def Job.queued (j : Job) : Bool :=
  (decide (j.phase = .waiting) && !j.sampleDue && !j.loadDue && !j.streamDue) || decide (j.phase = .spilled)

/-- a is served before b: class, then U / w, then tenant, then admission (R397). -/
def State.servedBefore (s : State) (a b : Job) : Bool :=
  if s.classOf a ≠ s.classOf b then decide (s.classOf a < s.classOf b)
  else if a.tenant ≠ b.tenant then
    s.ratioBelow a.tenant b.tenant || (!s.ratioBelow b.tenant a.tenant && decide (a.tenant < b.tenant))
  else decide (a.id < b.id)

/-- Insert a job in service order. -/
def State.insertJob (s : State) (a : Job) : List Job → List Job
  | [] => [a]
  | b :: bs => if s.servedBefore a b then a :: b :: bs else b :: s.insertJob a bs

/-- The waiting jobs in service order. -/
def State.order (s : State) : List Nat :=
  ((s.sch.jobs.filter Job.queued).foldr (fun a l => s.insertJob a l) []).map (·.id)

/-- Tile i is kept for a job other than this one (R406). -/
def State.keptFromJob (s : State) (id i : Nat) : Bool :=
  s.sch.jobs.any (fun k => k.id != id && (match k.kept with
    | some o => (rect o k.man.width k.man.height).contains i
    | none => false))

/-- A tile is free for a job (R392); one with transfers still to complete is not, as it is zeroed before another job
(R162, R332, log 140). -/
def State.tileFree (s : State) (id i : Nat) : Bool :=
  (s.tile i).tag == 0 && (s.tile i).job.isNone && (s.tile i).xfers.isEmpty && s.allocatable i && !s.keptFromJob id i

/-- The job that holds a tile may be pre-empted for job j: it runs, does not span cards, and is of a less urgent
class (R405, R406). -/
def State.yieldsTo (s : State) (j k : Job) : Bool :=
  decide (k.phase = .running) && !k.man.spans && decide (s.classOf j < s.classOf k)

/-- The same under the slice rule: a job of the same class that has run its slice, of a tenant with a higher
ratio (R407). -/
def State.sliceYields (s : State) (j k : Job) : Bool :=
  decide (k.phase = .running) && !k.man.spans && decide (s.classOf j = s.classOf k)
    && decide (s.sch.slice ≠ 0) && decide (s.sch.slice.toNat * 250000 ≤ k.ran) && s.ratioBelow j.tenant k.tenant

/-- A tile counts as free for job j where the jobs that `yields` names count as gone. -/
def State.relaxedFree (s : State) (yields : Job → Bool) (j : Job) (i : Nat) : Bool :=
  s.allocatable i && !s.keptFromJob j.id i
    && ((s.tile i).tag == 0 && (s.tile i).job.isNone
        || (((s.tile i).job.bind s.job?).any yields))

/-- The rectangle for a job: its own where it has been spilled, else the lowest (R392, R411). -/
def Job.find (j : Job) (good : Nat → Bool) : Option Nat :=
  if j.phase = .spilled then (if j.tiles.all good then some j.origin else none)
  else lowestRect j.man.width j.man.height good

/-- The jobs that hold a tile of a rectangle. -/
def State.holders (s : State) (ts : List Nat) : List Nat := (ts.filterMap (fun i => (s.tile i).job)).eraseDups

/-- Keep a rectangle for job j; its holders become victims (R406, Table 13-4, step 1). -/
def chooseVictims (id origin : Nat) (s : State) : State :=
  match s.job? id with
  | none => s
  | some j =>
    let vs := s.holders (rect origin j.man.width j.man.height)
    let s := forEach vs (fun v s => s.modJob v (fun k => { k with phase := .preempting, keptFor := some id })) s
    s.modJob id (fun j => { j with kept := some origin })

/-- A job is passed over (R398). -/
def passOver (id : Nat) (s : State) : State :=
  s.modJob id (fun j => { j with passedAt := some (j.passedAt.getD s.now) })

/-- A starving job holds back job j: one of its class or a more urgent class that has starved longer (R398,
log 72). -/
def State.heldBack (s : State) (j : Job) : Bool :=
  s.sch.jobs.any (fun k => k.id != j.id && k.starving && k.queued && decide (s.classOf k ≤ s.classOf j)
    && (!j.starving || decide (s.classOf k < s.classOf j)
        || decide (k.passedAt.getD 0 < j.passedAt.getD 0) || (k.passedAt == j.passedAt && decide (k.id < j.id))))

/-- The card places jobs (R109, R583). -/
def State.placing (s : State) (t : Nat) : Bool :=
  s.firmware (coreOf t) && !s.pwr.tripped && !s.flt.halted && decide (s.boot.stage = .running)
    && decide (s.pwr.dstate = .d0)

/-- Place one waiting job, keep a rectangle for it, or pass it over (R392, R398, R406). A spilled job keeps its
own rectangle, and JOB_RESTORE brings it back. -/
def placeJob (id : Nat) (s : State) : State :=
  match s.job? id with
  | none => s
  | some j =>
    if !j.queued ∨ !s.placing j.tenant ∨ s.heldBack j then s
    else match j.kept with
      | some o =>
        if j.phase = .waiting ∧ (rect o j.man.width j.man.height).all (s.tileFree id) then startJob id o s else s
      | none =>
        match j.find (s.tileFree id) with
        | some o =>
          if j.phase = .waiting then startJob id o s else s.modJob id (fun j => { j with kept := some o })
        | none =>
          match j.find (s.relaxedFree (s.yieldsTo j) j) with
          | some o => chooseVictims id o (passOver id s)
          | none => passOver id s

/-! ## Spill and restore (R389, R408-R411) -/

/-- Numbers as 36-bit words. -/
def word36 (n : Nat) : Word := BitVec.ofNat 36 n

/-- The 128 words of a tile's fixed state (R389). -/
def Tile.fixedWords (x : Tile) : List Word :=
  word36 (x.pc.toNat + (if x.ended then 2 ^ 14 else 0) + x.decl * 2 ^ 16)
    :: (List.range 31).map (fun n => x.reg (n + 1))
    ++ (List.range 16).flatMap (fun m =>
        let b := x.mbox.find {} m
        [word36 (b.base.toNat + b.size.toNat * 2 ^ 15), word36 b.prod.toNat, word36 b.cons.toNat])
    ++ (List.range 16).map (fun n => word36 (x.sat.find 0 n).toNat)
    ++ [x.pace.extractLsb' 0 36, (x.pace.extractLsb' 36 12).zeroExtend 36]
    ++ List.replicate 30 0

/-- The lines of a declaration's live set, ascending (R384). -/
def Decl.lines (d : Decl) : List Nat := d.ranges.flatMap (fun r => (List.range r.2).map (fun i => r.1 + i))

/-- The live lines that a tile spills: none where it stopped at END (R409). -/
def Tile.liveLines (x : Tile) (ds : List Decl) : List Nat := if x.ended then [] else (ds.getD x.decl default).lines

/-- Line k of ordinal o's slot of a job's spill region, as an address (R388, R389). -/
def State.slotAddress (s : State) (j : Job) (o k : Nat) : Nat :=
  s.spillAddr j.tenant (j.spillFirst + o * (j.man.liveMax + 8) + k)

/-- The first nonet with a parity error that the spill of a tile reads (R266, R409). -/
def Tile.spillParity (x : Tile) (ds : List Decl) : Option Nat :=
  x.parity ((x.liveLines ds).map (fun l => { write := false, addr := 64 * l, n := 64 }))

/-- Write one tile into its slot (R389, R409). -/
def spillTile (j : Job) (o : Nat) (s : State) : State :=
  let x := s.tile (j.tiles.getD o 0)
  let s := s.writeTen j.tenant (s.slotAddress j o 0) (packNonets (wordsNonets x.fixedWords))
  forEach (x.liveLines j.man.decls).zipIdx (fun l s =>
    s.writeTen j.tenant (s.slotAddress j o (8 + l.2)) (packNonets (x.scratch (64 * l.1) 64))) s

/-- Word n of a slot's fixed state. -/
def fixedWord (bs : List Byte) (n : Nat) : Word := wordOf ((List.range 4).map (fun k => packedNonet bs (4 * n + k)))

/-- A tile restored from its slot: its program, its fixed state and the live lines; every other line is 0 (R411). Its
window counts are those it was spilled with, which the card keeps with the job (R350, log 73). -/
def restoredTile (s : State) (j : Job) (o : Nat) (words : List Word) (x : Tile) : Tile :=
  let bs := (s.readTen j.tenant (s.slotAddress j o 0) 576).getD []
  let w := fixedWord bs
  let y : Tile := startTile j j.tag words x
  let y : Tile := { y with
    pc := (w 0).extractLsb' 0 14, ended := bit (w 0) 14, running := !bit (w 0) 14, decl := fld (w 0) 16 12
    g := (List.range 31).foldl (fun t n => Tbl.put 0 t (n + 1) (w (n + 1))) []
    mbox := (List.range 16).foldl (fun t m => Tbl.put {} t m
      { base := (w (32 + 3 * m)).extractLsb' 0 15, size := (w (32 + 3 * m)).extractLsb' 15 16
        prod := (w (33 + 3 * m)).extractLsb' 0 32, cons := (w (34 + 3 * m)).extractLsb' 0 32 }) []
    sat := (List.range 16).foldl (fun t n => Tbl.put 0 t n ((w (80 + n)).extractLsb' 0 32)) []
    satWin := j.satKept.getD o []
    pace := (w 97).extractLsb' 0 12 ++ w 96 }
  (y.liveLines j.man.decls).zipIdx.foldl (fun y l =>
    y.setScratch (64 * l.1) (lineNonets ((s.readTen j.tenant (s.slotAddress j o (8 + l.2)) 72).getD []))) y

/-- The region that the restore of ordinal o reads: its fixed state, and the live lines it spilled. -/
def State.slotRegion (s : State) (j : Job) (o : Nat) : Nat × Nat :=
  let w0 := fixedWord ((s.readTen j.tenant (s.slotAddress j o 0) 576).getD []) 0
  let live := if bit w0 14 then 0 else (j.man.decls.getD (fld w0 16 12) default).lines.length
  (s.slotAddress j o 0, 72 * (8 + live))

/-- The regions that a restore reads. -/
def State.slotRegions (s : State) (j : Job) : List (Nat × Nat) := (List.range j.count).map (s.slotRegion j)

end Sys2Proof.Machine
end

