-- ==== Sys2Proof/Machine/Mesh.lean ====
section
/-!
DEFINITION. The mesh: routes, the lanes in the routers' buffers, the outputs a message holds, and the grant of an
output among the inputs that wait for it (R267-R271).
-/
namespace Sys2Proof.Machine

/-- The direction of a hop: from a to b along one axis. -/
def hops (a b : Nat) (up down : Nat) : List (Nat × Nat) :=
  if a ≤ b then (List.range (b - a)).map (fun k => (a + k, up))
  else (List.range (a - b)).map (fun k => (a - k, down))

/-- The router outputs of a route from tile a to tile b, as (tile, port): along the row, then the column (R269). -/
def route (a b : Nat) : List (Nat × Nat) :=
  (hops (a % 32) (b % 32) 1 3).map (fun h => (a / 32 * 32 + h.1, h.2))
    ++ (hops (a / 32) (b / 32) 2 0).map (fun h => (h.1 * 32 + b % 32, h.2))

/-- The links of a message's route (R269). -/
def Msg.links (m : Msg) : List (Nat × Nat) :=
  route (if m.inward then 1023 else m.src) (if m.outward then 1023 else m.dst)

/-- Links its header has passed. -/
def Msg.claimed (m : Msg) : Nat := m.bufs.length - 1

/-- The router port by which a message enters the mesh, and the one by which it leaves. -/
def Msg.source (m : Msg) : Nat × Nat := if m.inward then (1023, 5) else (m.src, 4)
def Msg.sink (m : Msg) : Nat × Nat := if m.outward then (1023, 5) else (m.dst, 4)

/-- The input buffer before link k, by what feeds it: the port of entry, or the link before. -/
def Msg.inputAt (m : Msg) (k : Nat) : Nat × Nat := if k = 0 then m.source else m.links.getD (k - 1) m.source

/-- Lanes of a message lie in an input buffer. -/
def Msg.fills (m : Msg) (i : Nat × Nat) : Bool :=
  m.bufs.zipIdx.any (fun e => decide (0 < e.1) && m.inputAt e.2 == i)

/-- The header lies in the last buffer the message has reached. -/
def Msg.headed (m : Msg) : Bool := decide (0 < m.bufs.getLastD 0)

/-- The header is at the router of the destination tile or of the chain port (R277). -/
def Msg.arrived (m : Msg) : Bool := m.headed && m.claimed == m.links.length

/-- The output a message's header waits for (R271). -/
def Msg.wants (m : Msg) : Option (Nat × Nat) := if m.headed then m.links[m.claimed]? else none

/-- Every lane of a message has entered the mesh. -/
def Msg.whole (m : Msg) : Bool := m.entered == m.lanes.length

/-- The outputs a message holds: claimed, and its last lane has not passed (R270). -/
def Msg.heldLinks (m : Msg) : List (Nat × Nat) :=
  ((m.links.take m.claimed).zipIdx.filter (fun e => !m.whole || (m.bufs.take (e.2 + 1)).any (0 < ·))).map (·.1)

/-- The router ports a message's path holds: its port of entry while it enters, each output it holds, and the last port
once its header waits there (R270, R290, log 63). -/
def Msg.ports (m : Msg) : List (Nat × Nat) :=
  (if 0 < m.entered ∧ !m.whole then [m.source] else []) ++ m.heldLinks ++ (if m.arrived then [m.sink] else [])

/-- One handshake on each link of a path, the far end first: a lane moves against a credit of the buffer before it
(R268). -/
def flow : List Nat → List Nat
  | a :: b :: rest =>
    match flow (b :: rest) with
    | c :: more => if 0 < a ∧ c < 4 then (a - 1) :: (c + 1) :: more else a :: c :: more
    | [] => [a]
  | l => l

/-- The message at place m with the other messages around it. -/
def State.others (s : State) (m : Nat) : List Msg := s.grd.msgs.eraseIdx m

/-- The output o may be granted to a message: no other holds it or still fills the buffer behind it, and no other that
waits for it has been passed over by this one's input (R270, R271; the empty buffer is log 138). -/
def State.grants (s : State) (m : Nat) (x : Msg) (o : Nat × Nat) : Bool :=
  (s.others m).all (fun y => !y.heldLinks.contains o && !y.fills o
    && (y.wants != some o || !y.passedBy.contains (x.inputAt x.claimed)))

/-- The header of message m passes an output, and the others that wait for it have been passed over (R271). -/
def passOutput (m : Nat) (x : Msg) (o : Nat × Nat) (s : State) : State :=
  let i := x.inputAt x.claimed
  let ms := s.grd.msgs.map (fun y => if y.wants = some o then { y with passedBy := i :: y.passedBy } else y)
  { s with grd := { s.grd with msgs := ms.set m { x with
      bufs := x.bufs.dropLast ++ [x.bufs.getLastD 0 - 1, 1], passedBy := [] } } }

/-- One handshake on every link of message m's path: its header takes the next output if that is granted, its lanes move
up, and one more enters (R268-R271). -/
def meshMove (m : Nat) (s : State) : State :=
  match s.grd.msgs[m]? with
  | none => s
  | some x =>
    let s := match x.wants with
      | some o => if s.grants m x o then passOutput m x o s else s
      | none => s
    match s.grd.msgs[m]? with
    | none => s
    | some x =>
      let y := { x with bufs := flow x.bufs }
      let enters := !y.whole && decide (y.bufs.headD 0 < 4)
        && (decide (0 < y.entered) || (s.others m).all (fun z => !z.fills y.source))
      let y := if enters then { y with entered := y.entered + 1, bufs := (y.bufs.headD 0 + 1) :: y.bufs.drop 1 } else y
      { s with grd := { s.grd with msgs := s.grd.msgs.set m y } }

/-- The mesh in one tick: each message's path moves once, in any order (R271; the rate of the handshakes is log 138). -/
def meshTick (s : State) : State := forEachAny (List.range s.grd.msgs.length) meshMove s

end Sys2Proof.Machine
end

