-- ==== Sys2Proof/Machine/TileMessage.lean ====
section
/-!
DEFINITION. Messages and mailboxes (R272-R286, R321-R326).
-/
namespace Sys2Proof.Machine

/-- The header handshake as the sending router completes it (Table 9-2). -/
def headerLane (unit : BitVec 12) (i : Nat) (tag : BitVec 14) (h : Word) : Lane :=
  BitVec.ofNat 72 (h.toNat + i * 2 ^ 36 + unit.toNat * 2 ^ 46 + tag.toNat * 2 ^ 58)

/-- A destination unit is this card (R274). -/
def State.localUnit (s : State) (u : Nat) : Bool :=
  if s.chn.assigned then u = s.chn.unit.toNat else u = 0

/-- SEND's faults and its message (R273, R274, R286, R321). The tile has not moved yet. -/
def sendOut (i : Nat) (s : State) (w : Word) (x : Tile) : TileOut ⊕ Msg :=
  let h := x.reg (wRs1 w)
  let l := headerLane s.chn.unit i x.tag h
  let a := (x.reg (wRs2 w)).toNat
  let payload : Acc := { write := false, addr := a, n := 8 * hdrLength l, align := 8 }
  if wFn w ≠ 0 then .inl (.fault 0x11)
  else if 256 < hdrLength l ∨ bit h 9 then .inl (.fault 0x16)
  else match x.access [payload] (.done x []) with
    | .done _ _ =>
      if !s.chn.assigned ∧ hdrUnit l ≠ 0 then .inl (.faultAt 3 (hdrDest l))
      else if x.pc = BitVec.allOnes 14 then .inl (.fault 0x15)
      else .inr
        { src := i, dst := hdrTile l, unit := BitVec.ofNat 12 (hdrUnit l), tag := x.tag
          mailbox := BitVec.ofNat 4 (hdrMailbox l)
          lanes := l :: (List.range (hdrLength l)).map (fun k => laneOf (x.scratch (a + 8 * k) 8))
          outward := !s.localUnit (hdrUnit l) }
    | o => .inl o

/-- SEND: the message enters the mesh, and the tile waits for its last lane to leave (R321). -/
def send (i : Nat) (s : State) : State :=
  let x := s.tile i
  if x.ready ∧ wOp x.instr = 0x36 then
    match sendOut i s x.instr x with
    | .inl o => applyOut i o s
    | .inr m =>
      let s := s.setTile i { x with sending := some (BitVec.ofNat 5 (wRd x.instr)), choked := false, wdog := 0 }
      { s with grd := { s.grd with msgs := s.grd.msgs ++ [m] } }
  else s

def execSend (i : Fin 1024) (s : State) : Result := .next (send i s)

/-- The last lane of what tile i sends has left its local port, or its message has left the mesh. -/
def State.allLeft (s : State) (i : Nat) : Bool := s.grd.msgs.all (fun m => m.src != i || m.inward || m.left || m.whole)

/-- SEND_DONE: the last lane has left, or the path was choked; SEND writes 0 or 1 (R291, R321). -/
def sendDone (i : Nat) (s : State) : State :=
  let x := s.tile i
  match x.sending with
  | none => s
  | some rd =>
    if !x.choked ∧ !s.allLeft i then s
    else
    let s := s.setTile i
      { (x.setReg rd.toNat (if x.choked then 1 else 0)) with sending := none, choked := false, pc := x.pc + 1, wdog := 0 }
    { s with grd := { s.grd with
      msgs := s.grd.msgs.map (fun m => if m.src = i ∧ !m.inward then { m with left := true } else m) } }

def execSendDone (i : Fin 1024) (s : State) : Result := .next (sendDone i s)

/-- A mailbox number in an immediate: bits [19:4] and the rs1 field must be 0. -/
def boxField (w : Word) : Option Nat := if wImm w / 16 ≠ 0 ∨ wRs1 w ≠ 0 then none else some (wImm w)

/-- The lane at a mailbox's consumer index. -/
def Mailbox.headLane (b : Mailbox) : Nat := b.base.toNat + b.cons.toNat % b.size.toNat

/-- RECV (R322). -/
def recv (w : Word) (x : Tile) : TileOut :=
  match boxField w with
  | none => .fault 0x11
  | some m =>
    let b := x.box m
    if b.size = 0 then .fault 0x17
    else if b.prod = b.cons then .wait
    else .done (x.setReg (wRd w) (BitVec.ofNat 36 (8 * b.headLane))) []

/-- MBPOP (R323). -/
def mbpop (w : Word) (x : Tile) : TileOut :=
  match boxField w with
  | none => .fault 0x11
  | some m =>
    let b := x.box m
    if b.size = 0 ∨ b.prod = b.cons then .fault 0x17
    else
      let n := hdrLength (laneOf (x.scratch (8 * b.headLane) 8)) + 1
      x.access [{ write := false, addr := 8 * b.headLane, n := 8 }]
        (.done (x.setBox m { b with cons := b.cons + BitVec.ofNat 32 n }) [])

/-- MBSTAT. -/
def mbstat (w : Word) (x : Tile) : TileOut :=
  match boxField w with
  | none => .fault 0x11
  | some m => .done (x.setReg (wRd w) (BitVec.ofNat 36 (x.box m).used)) []

/-- MBCFG (R324). A message is written into a mailbox in one step, so there is none to wait for. -/
def mbcfg (w : Word) (x : Tile) : TileOut :=
  let m := wRd w
  let base := (x.reg (wRs1 w)).toNat
  let size := (x.reg (wRs2 w)).toNat
  let b := x.box m
  if 15 < m ∨ wFn w ≠ 0 then .fault 0x11
  else if (b.size ≠ 0 ∧ b.prod ≠ b.cons) ∨ 32768 < base + size
      ∨ x.mbox.any (fun e => decide (e.1 ≠ m) && decide (e.2.size ≠ 0) && decide (size ≠ 0)
          && decide (base < e.2.base.toNat + e.2.size.toNat) && decide (e.2.base.toNat < base + size)) then
    .fault 0x17
  else .done (x.setBox m { base := BitVec.ofNat 15 base, size := BitVec.ofNat 16 size, prod := 0, cons := 0 }) []

def execRecv (i : Fin 1024) (s : State) : Result := .next (tileRun 0x37 i recv s)
def execMbpop (i : Fin 1024) (s : State) : Result := .next (tileRun 0x38 i mbpop s)
def execMbcfg (i : Fin 1024) (s : State) : Result := .next (tileRun 0x39 i mbcfg s)
def execMbstat (i : Fin 1024) (s : State) : Result := .next (tileRun 0x3A i mbstat s)

/-- Two messages are of one sending tile and one mailbox (R275, R566). -/
def Msg.samePair (a b : Msg) : Bool :=
  a.src = b.src && a.dst = b.dst && a.unit = b.unit && a.mailbox = b.mailbox
    && a.inward = b.inward && a.outward = b.outward

/-- Write a message's lanes into a mailbox ring, from its producer index on (R278, R326). -/
def writeRing (b : Mailbox) : Nat → List Lane → Tile → Tile
  | _, [], x => x
  | k, l :: ls, x =>
    writeRing b (k + 1) ls (x.setScratch (8 * (b.base.toNat + (b.prod.toNat + k) % b.size.toNat)) (laneNonets l))

/-- Remove one message from the mesh. -/
def dropMsg (m : Nat) (s : State) : State := { s with grd := { s.grd with msgs := s.grd.msgs.eraseIdx m } }

/-- A message is discarded by the fence of its destination tile (R285). -/
def fenceDiscard (x : Msg) (s : State) : State :=
  let hdr := x.lanes.headD 0
  let s := { s with grd := { s.grd with fenceCount := satInc s.grd.fenceCount, fenceTag := x.tag } }
  if x.inward then sendAnswer hdr ansFence s else failSender hdr 5 s

/-- MESSAGE_ACCEPT: message m, whose header is at its destination router, is accepted whole, discarded, or waits and
holds its path (R270, R275, R277-R279, R285). -/
def messageAccept (m : Nat) (s : State) : State :=
  match s.grd.msgs[m]? with
  | none => s
  | some x =>
    if x.outward || !x.arrived || (s.grd.msgs.take m).any (Msg.samePair x) then s
    else
      let d := s.tile x.dst
      let b := d.box x.mailbox.toNat
      let n := x.lanes.length
      if d.tag = 0 ∨ d.tag ≠ x.tag then fenceDiscard x (dropMsg m s)
      else if b.size = 0 then s
      else if b.size.toNat < n then
        let hdr := x.lanes.headD 0
        let s := tileFault x.dst 2 (hdrDest hdr) (dropMsg m s)
        if x.inward then sendAnswer hdr ansTooLong s else s
      else if b.size.toNat - b.used < n then s
      else
        (dropMsg m s).setTile x.dst
          ((writeRing b 0 x.lanes d).setBox x.mailbox.toNat { b with prod := b.prod + BitVec.ofNat 32 n })

def execMessageAccept (m : Nat) (s : State) : Result := .next (messageAccept m s)

end Sys2Proof.Machine
end

