-- ==== Sys2Proof/Machine/ChainFlits.lean ====
section
/-!
DEFINITION. Flits and links of the chain (R548-R553, R561): the CRC, what a received flit must be, acknowledgement
and replay, and the end of a link's messages when it goes down.
-/
namespace Sys2Proof.Machine

/-! ## Raw flits (Table 19-1) -/

/-- n steps of the CRC-32 register, low bit first (R551, log 97). -/
def crcSteps : Nat → BitVec 32 → BitVec 32
  | 0, c => c
  | n + 1, c => crcSteps n (if c.getLsbD 0 then (c >>> 1) ^^^ 0xEDB88320 else c >>> 1)

/-- The CRC-32 of IEEE 802.3 of a list of bytes (R551). -/
def crc32 (bs : List Byte) : BitVec 32 :=
  ~~~(bs.foldl (fun c b => crcSteps 8 (c ^^^ b.zeroExtend 32)) (BitVec.allOnes 32))

def rawType (raw : List Byte) : Nat := (raw.getD 0 0).toNat % 16
def rawLast (raw : List Byte) : Bool := bit (raw.getD 0 0) 4
def rawSeq (raw : List Byte) : BitVec 8 := raw.getD 1 0
def rawAck (raw : List Byte) : BitVec 8 := raw.getD 2 0

/-- Bytes 4-7 hold the CRC of bytes 0-3 and 8-79 (R551). -/
def rawCrcOk (raw : List Byte) : Bool := crc32 (raw.take 4 ++ raw.drop 8) == BitVec.ofNat 32 (le raw 4 4)

/-- The valid lanes of the payload: info [2:0] + 1 of them. -/
def rawLanes (raw : List Byte) : List Lane :=
  (List.range ((raw.getD 3 0).toNat % 8 + 1)).map (fun j => BitVec.ofNat 72 (le raw (8 + 9 * j) 9))

/-- A receiver keeps a flit: its CRC and type are good and, unless it is IDLE, its seq is the next expected
(R552, R553). -/
def rawGood (l : Link) (raw : List Byte) : Bool :=
  rawCrcOk raw && decide (rawType raw ≤ 5) && (rawType raw == 0 || rawSeq raw == l.rxSeq + 1)

/-- The die or the bypass retimer can end a link (R89, R548, R560). -/
def State.linkEnd (s : State) : Bool := if s.chn.bypassing then s.on domBYP else s.on domCHN

/-- A link is up, and the die or the bypass retimer ends it (R548, R560). -/
def State.carries (s : State) (x : Nat) : Bool := (s.link x).up && s.linkEnd

/-- The unit address that answers for this card: the die's, or the copy of a retimer that bypasses (R560). -/
def State.address (s : State) : Option (BitVec 12) :=
  if s.chn.bypassing then s.chn.copy else if s.chn.assigned then some s.chn.unit else none

/-- CHN_LINKx_STAT takes what the card sees of its link; while the retimer bypasses the card sees nothing of it
(R549, R560, R594). -/
def showLink (x : Nat) (s : State) : State :=
  let l := s.link x
  if s.chn.bypassing then s
  else s.setLink x { l with stat :=
    { up := l.up, bypass := l.partnerBypass, assigned := l.partnerAssigned, unit := l.partnerUnit } }

/-- An event of the chain at a card, which raises its source where MGT is on (Table 19-4). -/
def chainEvent (n : Nat) (s : State) : State := if s.on domMGT then raise n s else s

/-! ## Acknowledgement and replay (R552, R553) -/

/-- The sequence number of a flit in a replay buffer. -/
def Sent.seq : Sent → BitVec 8
  | .flit f => f.seq
  | .ctrl q _ => q
  | .nak a => a

/-- Flits up to and with the one that an ack names; 0 if it names none. -/
def ackedCount (ack : BitVec 8) (l : List Sent) : Nat :=
  match (l.take replayDepth).findIdx? (fun m => m.seq == ack) with
  | some i => i + 1
  | none => 0

/-- An ack: what it covers leaves the replay buffer, and as many waiting flits are sent. -/
def applyAck (x : Nat) (ack : BitVec 8) (s : State) : State :=
  let l := s.link x
  let n := ackedCount ack l.replay
  if n = 0 then s
  else
    forEach ((l.replay.drop replayDepth).take n) (fun m s => s.emit (.chain x m))
      (s.setLink x { l with replay := l.replay.drop n, fails := 0 })

/-- A good flit of a message has been received. -/
def takeFlit (x : Nat) (raw : List Byte) (s : State) : State :=
  applyAck x (rawAck raw) (s.setLink x { s.link x with rxSeq := rawSeq raw })

/-- A good control flit has been received. -/
def takeCtrl (x : Nat) (s : State) : State := s.setLink x { s.link x with rxSeq := (s.link x).rxSeq + 1 }

/-- Send a control flit on a link that the die or the retimer ends. -/
def relayCtrl (x : Nat) (c : Ctrl) (s : State) : State :=
  if s.carries x then transmit x (fun q => .ctrl q c) s else s

/-! ## Messages that cross a link (R555, R561, R567) -/

/-- The other link. -/
def otherLink (x : Nat) : Nat := 1 - x

/-- Pass a flit of a transit message on to a link's output. -/
def forwardFlit (y : Nat) (f : Flit) (s : State) : State :=
  pumpAll y (s.setLink y { s.link y with fwd := (s.link y).fwd ++ [f] })

/-- Answer a message back on the link it came by (R561). -/
def answerBack (x : Nat) (hdr : Lane) (code : Nat) (s : State) : State :=
  if s.carries x then sendFlit x { kind := 4, lanes := [hdr, BitVec.ofNat 72 code] } s else s

def setRx (x : Nat) (r : Rx) (s : State) : State := s.setLink x { s.link x with rx := r }

/-- The messages of this card that are partly sent on a link. -/
def State.partSent (s : State) (x : Nat) : List Msg :=
  s.grd.msgs.filter (fun m => m.outward && decide (0 < m.sent) && m.via == x)

/-- Remove what this card is sending on a link; each sender fails with code 3 where `fail` says so. -/
def dropSending (x : Nat) (fail : Bool) (s : State) : State :=
  let mine := s.partSent x
  let s := { s with grd := { s.grd with
    msgs := s.grd.msgs.filter (fun m => !(m.outward && decide (0 < m.sent) && m.via == x)) } }
  let s := match (s.link x).tx with
    | .own _ => s.setLink x { s.link x with tx := .free }
    | _ => s
  if fail then forEach mine (fun m s => failSender (m.lanes.headD 0) ansUnreachable s) s else s

/-- End every message that crosses a link which goes down (R553, R561): what leaves by it is answered, and what
arrives by it ends with ABORT. -/
def endCrossing (x : Nat) (s : State) : State :=
  let y := otherLink x
  let s := dropSending x true s
  let s := s.setLink x { s.link x with up := false, replay := [], fwd := [], fails := 0, tx := .free }
  let s := match (s.link y).rx with
    | .through hdr => answerBack y hdr ansUnreachable (setRx y .drained s)
    | _ => s
  let s := match (s.link x).rx with
    | .through _ => forwardFlit y abortFlit s
    | _ => s
  setRx x .idle s

/-- A link of this card goes down: source 256 + x. While the retimer bypasses, the card sees none of it (R560,
log 98). -/
def linkFalls (x : Nat) (s : State) : State :=
  let bypass := s.chn.bypassing
  let s := showLink x (endCrossing x s)
  if bypass then s else raise (256 + x) s

/-- Eight consecutive replays of a flit have failed: the link is declared down (R553). -/
def linkDown (x : Nat) (s : State) : State :=
  let l := s.link x
  let n := satInc l.down
  if s.chn.bypassing then linkFalls x s
  else fire { detector := 0x13, level := lvlUnit, location := x, info0 := n.toNat }
    (linkFalls x (s.setLink x { l with down := n }))

/-- Replay every flit after the last good one, or give the link up (R552, R553). -/
def replay (x : Nat) (s : State) : State :=
  let l := s.link x
  if l.replay.isEmpty then s
  else if 8 ≤ l.fails then linkDown x s
  else forEach (l.replay.take replayDepth) (fun m s => s.emit (.chain x m)) (s.setLink x { l with fails := l.fails + 1 })

end Sys2Proof.Machine
end

