-- ==== Sys2Proof/Machine/Power.lean ====
section
/-!
DEFINITION. The commands of power, clocks, start-up and the resets (04, and 05 on function and hot resets).
-/
namespace Sys2Proof.Machine

/-! ## Start-up (Table 4-4) -/

/-- BYP is on while AON or a neighbour's cable feed supplies the retimer (R89, R90, Table 4-1). -/
def powerRetimer (s : State) : State := s.setDom domBYP (s.on domAON || s.cableFed)

/-- Step 1: the AON supply reaches 3.0 V. The retimer takes the address that AON holds, which is none (log 146). -/
def coldPowerOn (s : State) : State :=
  if s.boot.stage = .unpowered then
    let s := { s with boot := { s.boot with stage := .aon }, chn := { s.chn with copy := none } }
    powerRetimer (domainOn domAON s)
  else s

/-- COLD_POWER_ON (R118). -/
def execColdPowerOn (s : State) : Result := .next (coldPowerOn s)

/-- Step 2: the resonator is stable. -/
def memsStable (s : State) : State :=
  if s.boot.stage = .aon then { s with boot := { s.boot with stage := .mems } } else s

/-- MEMS_STABLE (R118). -/
def execMemsStable (s : State) : Result := .next (memsStable s)

/-- The applied VGRID after a reset: the lower of the stored request and the cap-limited voltage, which is open and
here a free value (R101, log 120). -/
def settleVgrid (s : State) : State :=
  let (n, s) := s.draw
  { s with pwr := { s.pwr with vact := BitVec.ofNat 10 (min s.pwr.vset.toNat (550 + 10 * (Config.fresh n % 36))) } }

/-- The overloads that fell while MGT was off are recorded, in their order (R29, R215, log 118). -/
def replayOverloads (s : State) : State :=
  forEach s.brd.feedDue recordOverload { s with brd := { s.brd with feedDue := [] } }

/-- Step 3: the main supplies are good with PERST# asserted, and MGT comes on (R94, R101). -/
def mainPowerGood (s : State) : State :=
  if s.boot.stage = .mems ∧ s.pwr.perst ∧ s.pwr.dstate ≠ .d3cold then
    replayOverloads (settleVgrid (domainOn domMGT { s with boot := { s.boot with stage := .mgt } }))
  else s

/-- MAIN_POWER_GOOD (R118). -/
def execMainPowerGood (s : State) : Result := .next (mainPowerGood s)

/-- What the boot ROM checks of a slot: a staged image, or the one of its facts (R121, R587). -/
def Slot.check (x : Slot) : ImageFacts := if x.written then Config.imageFacts x.facts x.staged else x.facts

/-- The status of a failed check, or 0 (R121, Table 4-6). -/
def ImageFacts.failure (f : ImageFacts) (minimum : Nat) : Nat :=
  if !f.readable then 4 else if !f.digestOk then 1 else if !f.sigOk then 2
  else if f.arb < minimum then 3 else 0

/-- The facts and the failure of slot A (false) or B (true). -/
def State.slot (s : State) (b : Bool) : Slot := if b then s.boot.imgB else s.boot.imgA
def State.slotFailure (s : State) (b : Bool) : Nat := ((s.slot b).check).failure s.boot.fusedArb

/-- A stack begins its training: its PLL relocks with its output disconnected, so its controller issues no command
(R112, R114, log 121). -/
def beginTraining (k : Nat) (s : State) : State :=
  if (s.stack k).trained || (s.stack k).fenced then s
  else { s with clk := { s.clk with
    relock := setBit s.clk.relock (5 + k) true, disconnected := setBit s.clk.disconnected (5 + k) true
    locked := setBit s.clk.locked (5 + k) false } }

/-- PLL_PCIE locks on REFCLK once HIF is on and PERST# is deasserted (Table 4-4 step 6). -/
def pcieLock (s : State) : State :=
  if s.on domHIF && !s.pwr.perst then { s with clk := { s.clk with locked := setBit s.clk.locked 3 true } } else s

/-- Start the image of a slot: all four cores run the firmware, HIF comes on and the stacks begin to train (Table 4-4
steps 5 and 8). -/
def bootSlot (b : Bool) (s : State) : State :=
  let s := { s with boot := { s.boot with
    stage := .running, slotB := b, status := 0, fwVersion := (s.slot b).check.version } }
  let s := forEach [0, 1, 2, 3] (fun c s => s.setBell c { s.bell c with running := true }) s
  forEach [0, 1, 2, 3] beginTraining (pcieLock (domainOn domHIF s))

/-- No slot is accepted: recovery, with the last failure seen (R123). -/
def enterRecovery (failure : Nat) (s : State) : State :=
  pcieLock (domainOn domHIF { s with boot := { s.boot with
    stage := .recovery, status := BitVec.ofNat 4 failure, resetting := false } })

/-- Steps 4 and 5: the active slot is tried first, then the other (R122). -/
def bootVerifyDone (s : State) : State :=
  if s.boot.stage = .mgt then
    let a := s.boot.activeB
    if s.slotFailure a = 0 then bootSlot a s
    else if s.slotFailure (!a) = 0 then bootSlot (!a) s
    else enterRecovery (s.slotFailure (!a)) s
  else s

/-- BOOT_VERIFY_DONE (R121). -/
def execBootVerifyDone (s : State) : Result := .next (bootVerifyDone s)

/-- Step 6, with R120: training waits for HIF. -/
def perstDeassert (s : State) : State :=
  pcieLock { s with pwr := { s.pwr with perst := s.pwr.perst && decide (s.boot.stage = .unpowered) } }

/-- PERST_DEASSERT (R120). -/
def execPerstDeassert (s : State) : Result := .next (perstDeassert s)

/-- Step 10: ready, once configuration is answered and the DRAM is zeroed (R118, R119). -/
def checkReady (s : State) : State :=
  if s.boot.stage = .running ∧ s.boot.scrubbed ∧ s.hif.linkUp then
    { s with boot := { s.boot with ready := true, resetting := false } }
  else s

/-- Every fire-pending flag becomes one firing once PF0 is in D0 (R258). -/
def replayFires (s : State) : State :=
  forEach tenants (fun t s => forEach ringsOf (fun r s =>
    let x := s.ring t r
    if x.firePending then fireMsix t r (s.setRing t r { x with firePending := false }) else s) s) s

/-- The link trains, in PCIe mode or in CXL mode (R118 step 6, R120, R137). -/
def linkTrain (width : BitVec 5) (speed : BitVec 3) (cxl : Bool) (s : State) : State :=
  if !s.hif.linkUp ∧ !s.pwr.perst ∧ s.on domHIF ∧ s.pwr.dstate = .d0 then
    let s := { s with hif := { s.hif with linkUp := true, width := width, speed := speed, cxl := cxl } }
    let s := forEach tenants holdChime s
    replayFires (checkReady s)
  else s

/-- LINK_TRAIN (R137). A link of another width or speed does not exist. -/
def execLinkTrain (width : BitVec 5) (speed : BitVec 3) (cxl : Bool) (s : State) : Result :=
  if [1, 2, 4, 8, 16].contains width.toNat ∧ 1 ≤ speed.toNat ∧ speed.toNat ≤ 5 then
    .next (linkTrain width speed cxl s)
  else .fault .malformed

/-- Step 8: stack k is on and trained, which takes commands and so a connected PLL, or fails training and is fenced
(R114, R118, R366). -/
def memTrained (k : Nat) (ok : Bool) (s : State) : State :=
  if s.boot.stage = .running ∧ !(s.stack k).trained ∧ !(s.stack k).fenced then
    if ok ∧ s.dramHeld k then s
    else if ok then rescaleStack k (domainOn (domMEM k) (s.setStack k { s.stack k with trained := true, patrol := 0 }))
    else fence k causeTraining s
  else s

/-- MEM_TRAINED (R118). -/
def execMemTrained (k : Fin 4) (ok : Bool) (s : State) : Result := .next (memTrained k ok s)

/-- Step 9: device DRAM is zero, with good check bits (R118, Table 4-5). -/
def dramScrubDone (s : State) : State :=
  if s.boot.stage = .running ∧ !s.boot.scrubbed
      ∧ [0, 1, 2, 3].all (fun k => (s.stack k).trained || (s.stack k).fenced) then
    checkReady { s with mem := { s.mem with cells := [], ecc := [] }, boot := { s.boot with scrubbed := true } }
  else s

/-- DRAM_SCRUB_DONE (R118). -/
def execDramScrubDone (s : State) : Result := .next (dramScrubDone s)

/-! ## Resets (Table 4-5) -/

/-- Set a bit of PWR_RESET_CAUSE (R129). -/
def setCause (i : Nat) (s : State) : State := { s with pwr := { s.pwr with cause := setBit s.pwr.cause i true } }

/-- Every tenant's epoch rises by 1 (R203). -/
def bumpEpochs (s : State) : State :=
  forEach tenants (fun t s => s.setTenant t { s.tenant t with epoch := (s.tenant t).epoch + 1 }) s

/-- Every job is dropped with what waits in the rings: no completion is written (R127, R168). -/
def dropRings (s : State) : State :=
  { s with rings := s.rings.foldl (fun t e => Tbl.put {} t e.1 { e.2 with inflight := [], half := none }) [] }

/-- The chain once AON is lost: a retimer that a cable feeds bypasses the card and keeps the links and its copy of the
address; without power the links are down (R89, R560; 19, "A retimer has no power at all"). -/
def Chn.afterLoss (fed : Bool) (c : Chn) : Chn :=
  { copy := if fed then c.copy else none
    links := c.links.foldl (fun t e => Tbl.put {} t e.1 (if fed then e.2.afterReset else { cable := e.2.cable })) [] }

/-- Loss of the AON supply is a cold reset: AON, MGT, HIF and DRAM (R125, R259). The flash, the fuses, the
cables and the 12V-2x6 input are not the card's state to clear. -/
def aonSupplyLoss (s : State) : State :=
  { State.reset with
    pending := s.pending, now := s.now, free := s.free, out := s.out, rdata := s.rdata
    brd := { State.reset.brd with auxPresent := s.brd.auxPresent, sense0Open := s.brd.sense0Open
                                  sense1Open := s.brd.sense1Open, boardRev := s.brd.boardRev
                                  stepping := s.brd.stepping }
    boot := { State.reset.boot with imgA := s.boot.imgA, imgB := s.boot.imgB, activeB := s.boot.activeB
                                    fusedArb := s.boot.fusedArb }
    pwr := { State.reset.pwr with dom := setBit State.reset.pwr.dom domBYP s.cableFed }
    chn := s.chn.afterLoss s.cableFed }

/-- AON_SUPPLY_LOSS (R259). -/
def execAonSupplyLoss (s : State) : Result := .next (aonSupplyLoss s)

/-- What a fundamental reset clears; start-up goes on from step 4 (R125, R128, R203, log 56). -/
def fundamental (s : State) : State :=
  let s := bumpEpochs (setCause 1 (dropRings s))
  let s := clearHif (clearMgt true s)
  let s := domainsOff (switched ++ [3, 4, 5, 6, 2]) s
  let s := settleVgrid s
  { s with pwr := { s.pwr with perst := true, dstate := .d0 }
           clk := { s.clk with locked := setBit s.clk.locked 3 false }
           boot := { s.boot with stage := if s.on domMGT then .mgt else s.boot.stage, resetting := false } }

/-- PERST# is asserted (R125). Before MGT is on, start-up stays where it is. -/
def fundamentalReset (s : State) : State :=
  if s.pwr.perst then s
  else if s.boot.stage = .unpowered then { s with pwr := { s.pwr with perst := true } }
  else fundamental s

/-- FUNDAMENTAL_RESET (R125). -/
def execFundamentalReset (s : State) : Result := .next (fundamentalReset s)

/-- A card reset: what can be written is written, the blocks are cleared, and start-up goes on from step 4
(R126, R203, R204; a completion that cannot be written then is lost, log 57). -/
def cardReset (s : State) : State :=
  let s := setCause 2 { s with boot := { s.boot with resetting := true } }
  let s := drainAll (forEach tenants (fun t s => abortTenant t 1 s) s)
  let s := forEach tenants tenantReset (dropRings s)
  let s := domainsOff switched (clearMgt false s)
  let s := forEach [0, 1, 2, 3] (fun k s => if (s.stack k).trained then s else s.setDom (domMEM k) false) s
  settleVgrid { s with boot := { s.boot with stage := .mgt } }

/-- A write of PWR_RESET (R126, R593). -/
def resetWrite (q : Requester) (v : BitVec 32) (s : State) : State :=
  if !bit v 0 then s
  else if !keyed v then regError q 0x100030 s
  else if s.boot.resetting then s
  else cardReset s

/-- CARD_RESET (R126). -/
def execCardReset (q : Requester) (v : BitVec 32) (s : State) : Result :=
  .next (regWrite q (.blk 0x100030) (resetWrite q v) s)

/-- Every job of every tenant is aborted without a completion (R168). -/
def dropAll (s : State) : State := forEach tenants dropTenant s

/-- A PCIe hot reset, or link down (R168, R203, R260). VFs stop existing with VF Enable. -/
def hotReset (s : State) : State :=
  if s.hif.linkUp then
    let vfs := s.existing
    let s := bumpEpochs (dropAll s)
    let s := forEach vfs tenantLost s
    let h := s.hif
    let s := forEach tenants clearCq (clearHif s)
    { s with hif := { s.hif with width := h.width, speed := h.speed, cxl := h.cxl }
             pwr := { s.pwr with dstate := .d0 } }
  else s

/-- HOT_RESET (R168). -/
def execHotReset (s : State) : Result := .next (hotReset s)

/-- An FLR of PF0 clears VF Enable and acts as an FLR of every tenant (R167). -/
def pf0Flr (s : State) : State :=
  if !s.hif.linkUp ∨ (s.func 0).flrBusy then s
  else
    let vfs := s.existing
    let s := forEach (0 :: vfs) flrTenant s
    let s := { s with hif := { s.hif with vfEnable := false, numVfs := 0, ari := false, vfBar0 := 0 } }
    forEach vfs (fun t s => tenantGone t (s.setFunc t {})) s

/-- PF0_FLR (R167). -/
def execPf0Flr (s : State) : Result := .next (pf0Flr s)

/-- An FLR of one function (R166). -/
def flr (t : Nat) (s : State) : State :=
  if t = 0 then pf0Flr s
  else if s.hif.linkUp ∧ s.tenantExists t ∧ !(s.func t).flrBusy then flrTenant t s
  else s

/-- FLR (R166). -/
def execFlr (t : Fin 64) (s : State) : Result := .next (flr t s)

/-- FLR_COMPLETE: configuration writes take effect again (R166). -/
def execFlrComplete (t : Fin 64) (s : State) : Result :=
  .next (s.setFunc t { s.func t with flrBusy := false })

/-! ## D-states (R130-R132) -/

/-- Write again, first of all, an entry whose phase byte was not written (05, "Bus Master Enable is cleared
in the middle of a completion write"). -/
def flushHalf (t r : Nat) (s : State) : State :=
  let x := s.ring t r
  match x.half with
  | none => s
  | some (j, bs) =>
    if s.linkOk t then
      let s := emitEntry t r j bs s
      let s := s.setRing t r { x with half := none, cqTail := j + 1, inflight := x.inflight.drop 1 }
      let s := if s.hif.cxl then s.setTenant t { s.tenant t with hintDue := true } else s
      let s := countCompletion t r s
      match x.inflight with
      | [] => s
      | d :: _ => match d.st with
        | .admitted id => removeJob id s
        | _ => s
    else s

/-- A tenant has work that an abort ends: an admitted job or a fetched descriptor without a decision. -/
def State.hasWork (s : State) (t : Nat) : Bool :=
  !(s.liveOf t).isEmpty || ringsOf.any (fun r => (s.ring t r).inflight.any (fun d => (s.decision d).isNone))

/-- PF0 enters D3hot: jobs abort, and the switched domains turn off (R130, R131, log 52). -/
def d3hotEnter (s : State) : State :=
  if s.pwr.dstate = .d0 ∧ s.hif.linkUp then
    let due := tenants.filter s.hasWork
    let s := forEach due (fun t s => tenantReset t (abortTenant t 2 s)) s
    domainsOff switched { s with pwr := { s.pwr with dstate := .d3hot, d3Due := due } }
  else s

/-- D3HOT_ENTER (R130). -/
def execD3hotEnter (s : State) : Result := .next (d3hotEnter s)

/-- PF0 enters D0 from D3hot: fire-pending flags become firings (R131, R258). -/
def d0Enter (s : State) : State :=
  if s.pwr.dstate = .d3hot then
    let s := { s with pwr := { s.pwr with dstate := .d0 } }
    replayFires (forEach tenants (fun t s => forEach ringsOf (flushHalf t) s) (sendHeld s))
  else s

/-- D0_ENTER (R258). -/
def execD0Enter (s : State) : Result := .next (d0Enter s)

/-- PF0 enters D3cold: only AON and BYP stay powered, and the content of DRAM is lost: it reads as memory that nothing
has written (R132, log 10). -/
def d3coldEnter (s : State) : State :=
  if s.pwr.dstate = .d3hot then
    let s := domainsOff [1, 2, 3, 4, 5, 6, 7, 8, 9, 10, 11, 12, 13, 14] (dropRings s)
    let s := clearHif (clearMgt true s)
    { s with pwr := { s.pwr with dstate := .d3cold, perst := true }
             mem := { s.mem with cells := [], ecc := [] }
             boot := { s.boot with stage := .mems, resetting := false } }
  else s

/-- D3COLD_ENTER (R132). -/
def execD3coldEnter (s : State) : Result := .next (d3coldEnter s)

/-- Return from D3cold: start-up from step 3, with PERST# asserted, which is a fundamental reset (R132, R203,
log 51). -/
def d3coldExit (s : State) : State :=
  if s.pwr.dstate = .d3cold then
    bumpEpochs (setCause 1 { s with pwr := { s.pwr with dstate := .d0 } })
  else s

/-- D3COLD_EXIT (R132). -/
def execD3coldExit (s : State) : Result := .next (d3coldExit s)

/-! ## Domains (R95, R98) -/

/-- Tiles of a domain's quadrant are held by a job, or kept for one. -/
def State.gridNeeded (s : State) (qd : Nat) : Bool :=
  s.sch.jobs.any (fun j => (j.holds && j.tiles.any (fun i => quadrant i == qd))
    || (match j.kept with
        | some o => (rect o j.man.width j.man.height).any (fun i => quadrant i == qd)
        | none => false)
    || decide (j.phase = .waiting) || decide (j.phase = .spilled))

/-- An admitted job, port, stream or queue needs a switched domain (R95, R550). -/
def State.needed (s : State) (d : Nat) : Bool :=
  if 7 ≤ d ∧ d ≤ 10 then s.gridNeeded (d - 7)
  else if d = domTOK then
    !s.tok.streams.isEmpty || !s.tok.damps.isEmpty || s.sch.jobs.any (fun j => j.streamDue || decide (j.man.outStage = 2))
      || s.tok.tens.any (fun e => decide (e.2.checking ≠ .none))
      || s.sch.jobs.any (fun j => decide ((s.tokTen j.tenant).slots ≠ 0) && (s.tokTen j.tenant).gramValid)
  else if d = domCYM then s.cym.streams.any (fun e => e.2.enable)
  else if d = domFRONT then
    s.rol.any (fun e => e.2.enable) || s.ink.queues.any (fun e => bit e.2.cfg 31)
      || s.sch.jobs.any (fun j => j.loadDue || j.sampleDue)
  else if d = domCHN then s.chn.assigned || (s.link 0).cabled || (s.link 1).cabled || s.sch.jobs.any (fun j => j.man.spans)
  else false

/-- Firmware may turn a switched domain on: it is needed, not held, and its supply is there (R93, R95, R109,
R130). -/
def State.mayPower (s : State) (d : Nat) : Bool :=
  switched.contains d && s.on domMGT && !s.held d && s.needed d && decide (s.boot.stage = .running)
    && !s.pwr.tripped && !s.flt.halted && decide (s.pwr.dstate = .d0)

/-- DOMAIN_POWER_ON (R95). -/
def execDomainPowerOn (d : Fin 16) (s : State) : Result :=
  .next (if s.mayPower d ∧ !s.on d then domainOn d s else s)

/-- Nothing has needed a domain for 10 ms: a switched domain, or a stack that no tenant page maps to (R95,
R98). -/
def domainIdle (d : Nat) (s : State) : State :=
  if switched.contains d ∧ s.on d ∧ !s.needed d then domainOff d s
  else if 3 ≤ d ∧ d ≤ 6 ∧ s.on d ∧ !tenants.any (fun t => s.onStack t (d - 3)) then
    rescale (domainOff d (s.setStack (d - 3) { s.stack (d - 3) with trained := false }))
  else s

/-- DOMAIN_IDLE_OFF (R95). -/
def execDomainIdleOff (d : Fin 16) (s : State) : Result := .next (domainIdle d s)

/-! ## VGRID and temperature (R99-R109) -/

/-- A voltage as R100 stores it: a multiple of 10 mV from 550 to 900. -/
def storedMv (mv : Nat) : Nat := clamp 550 900 (mv / 10 * 10)

/-- The highest step of 10 mV that a measured limit allows, not below 550 mV. -/
def fitStep (mv : Nat) : Nat := max 550 (mv / 10 * 10)

/-- One move of VGRID towards a target: at most 10 mV in each 5 µs of the 50 µs period (R101). -/
def moveVgrid (act target : Nat) : Nat := if target < act then max target (act - 100) else min target (act + 100)

/-- The applied VGRID after an evaluation that finds the cap kept up to `fit` (R101, R108). -/
def State.nextVgrid (s : State) (fit : Nat) : Nat :=
  let act := s.pwr.vact.toNat
  let target := min s.pwr.vset.toNat fit
  if s.pwr.dieHot then min (max 550 (act - 10)) (moveVgrid act target)
  else if s.pwr.thermalLimited then moveVgrid act (min act target)
  else moveVgrid act target

/-- An input power, in 0.1 W, exceeds the effective cap (R99). -/
def State.overCap (s : State) (inputDw : BitVec 16) : Bool := decide (10 * s.effectiveCap < inputDw.toNat)

/-- The highest voltage that keeps the cap, by the controller's measurements: `fitMv`, and below the applied voltage
while the measured input power exceeds the cap, since power does not fall as VGRID rises (R101). -/
def State.capFit (s : State) (fitMv : Nat) (inputDw : BitVec 16) : Nat :=
  if s.overCap inputDw then max 550 (min (fitStep fitMv) (s.pwr.vact.toNat - 10)) else fitStep fitMv

/-- The controller evaluates VGRID: `fitMv` is the highest voltage at which it finds the card within the cap, and
`inputDw` the input power it measures. At 550 mV with the power still above the cap it holds the tiles (R99, R101,
R103, R108). -/
def vgridEvaluate (fitMv : Nat) (inputDw : BitVec 16) (s : State) : State :=
  if s.on domMGT then
    let fit := s.capFit fitMv inputDw
    let v := s.nextVgrid fit
    { s with pwr := { s.pwr with
      vact := BitVec.ofNat 10 v, inputDw := inputDw
      capLimited := decide (fit < s.pwr.vset.toNat)
      thermalLimited := s.pwr.thermalLimited || s.pwr.dieHot
      holdActive := decide (v = 550) && s.overCap inputDw } }
  else s

/-- VGRID_EVALUATE (R101). -/
def execVgridEvaluate (fitMv : Nat) (inputDw : BitVec 16) (s : State) : Result := .next (vgridEvaluate fitMv inputDw s)

/-- The largest of a list of temperatures; 0 where no sensor answers, of which the spec says nothing (log 122). -/
def maxTemp : List Int → Int
  | [] => 0
  | t :: ts => ts.foldl max t

/-- The die's temperature is followed: above 105 °C VGRID is lowered, and 10 ms at or below 100 °C end that
(R108). -/
def Pwr.followDie (p : Pwr) (die : Int) : Pwr :=
  if die > 105 then { p with dieHot := true, thermalLimited := true, coolSamples := 0 }
  else if die ≤ 100 then
    { p with dieHot := false, coolSamples := p.coolSamples + 1
             thermalLimited := p.thermalLimited && decide (p.coolSamples + 1 < 100) }
  else { p with dieHot := false, coolSamples := 0 }

/-- A stack's sensor: above 85 °C it is hot, and samples at or below 82 °C are counted (R369, R370). A sensor
that does not answer fences it (R366). -/
def stackSample (k : Nat) (t : Option Int) (s : State) : State :=
  let x := s.stack k
  if !s.on (domMEM k) ∨ x.fenced then s
  else match t with
    | none => fence k causeSensor s
    | some t =>
      if t > 85 then
        if x.hot then s.setStack k { x with cool := 0 }
        else rescaleStack k (raise (292 + k) (s.setStack k { x with hot := true, cool := 0 }))
      else if t ≤ 82 then s.setStack k { x with cool := x.cool + 1 }
      else s.setStack k { x with cool := 0 }

/-- The four steps of a thermal trip (R109). -/
def trip (stack : Bool) (s : State) : State :=
  let s := stopAll { s with pwr := { s.pwr with tripped := true } }
  let victims := s.live
  let n := s.flt.next.toNat
  let s := fire { detector := 0x11, level := lvlCard, location := if stack then 1 else 0
                  info0 := s.pwr.dieC.toNat, info1 := s.pwr.dramC.toNat } (setCause 3 s)
  failJobs victims n s

/-- The sensors are read (R107-R109, R366, R369, R370). -/
def tempSample (die : List Int) (stackC : List (Option Int)) (s : State) : State :=
  if !s.on domMGT then s
  else
    let d := maxTemp die
    let m := maxTemp (stackC.filterMap id)
    let s := { s with pwr := { (s.pwr.followDie d) with dieC := BitVec.ofInt 8 d, dramC := BitVec.ofInt 8 m } }
    let s := forEach [0, 1, 2, 3] (fun k s => stackSample k (stackC.getD k none) s) s
    if s.pwr.tripped then s
    else if 115 ≤ d then trip false s
    else if 105 ≤ m ∧ stackC.any Option.isSome then trip true s
    else s

/-- TEMP_SAMPLE (R107). The die has 64 sensors, and each stack one. -/
def execTempSample (die : List Int) (stackC : List (Option Int)) (s : State) : Result :=
  if die.length = 64 ∧ stackC.length = 4 then .next (tempSample die stackC s) else .fault .malformed

/-! ## Sensor clocks (R111-R117) -/

/-- A write of CLK_LINEp_FREQ: a relock that holds the port's outputs low, or refused (R111-R113, R117). While FRONT is
off no attempt starts: the PLL is locked once FRONT comes on (log 123). -/
def lineFreq (p : Nat) (v : BitVec 32) (s : State) : State :=
  let khz := fld v 0 18
  if khz < 20000 ∨ 250000 < khz then { s with clk := { s.clk with cfgErr := true } }
  else { linesLow p s with clk := { s.clk with
    lineKhz := Tbl.put 50000 s.clk.lineKhz p (BitVec.ofNat 18 khz)
    relock := setBit s.clk.relock (9 + p) (s.on domFRONT)
    disconnected := setBit s.clk.disconnected (9 + p) (s.on domFRONT)
    locked := if s.on domFRONT then setBit s.clk.locked (9 + p) false else s.clk.locked } }

/-- LINE_FREQ_WRITE (R111). -/
def execLineFreqWrite (q : Requester) (p : Fin 4) (v : BitVec 32) (s : State) : Result :=
  .next (regWrite q (.blk (0x200010 + 4 * p)) (lineFreq p v) s)

/-- The PLL has been locked for 256 reference cycles: its output is reconnected, and an enabled port trains
again or stops if the new clock breaks its configuration (R112, R113, R465). -/
def pllLock (i : Nat) (s : State) : State :=
  if bit s.clk.relock i then
    let s := { s with clk := { s.clk with relock := setBit s.clk.relock i false
                                          disconnected := setBit s.clk.disconnected i false
                                          locked := setBit s.clk.locked i true } }
    if 9 ≤ i ∧ (s.port (i - 9)).enable then
      let x := s.port (i - 9)
      if x.rateOk (s.lineKhz (i - 9)).toNat then s.setPort (i - 9) { x with retrain := true, terminated := true }
      else portStopGroup (i - 9) 1 s
    else s
  else s

/-- PLL_LOCK (R112). -/
def execPllLock (pll : Fin 13) (s : State) : Result := .next (pllLock pll s)

/-- No lock within 40 µs: the output stays disconnected (R116). -/
def pllLockTimeout (i : Nat) (s : State) : State :=
  if bit s.clk.relock i then
    let level := if 5 ≤ i ∧ i ≤ 8 then lvlStack else lvlUnit
    fire { detector := 0x0F, level := level, location := i } { s with clk := { s.clk with
      relock := setBit s.clk.relock i false, lockFail := setBit s.clk.lockFail i true } }
  else s

/-- PLL_LOCK_TIMEOUT (R116). -/
def execPllLockTimeout (pll : Fin 13) (s : State) : Result := .next (pllLockTimeout pll s)

end Sys2Proof.Machine
end

