-- ==== Sys2Proof/Machine/Chain.lean ====
section
/-!
DEFINITION. The commands of the chain's links and messages (19): link training, replay, message flits, answers and
the registers that a read changes.
-/
namespace Sys2Proof.Machine

/-- The CHN_ window. -/
def baseCHN : Nat := 0x1000000

/-! ## Links (R548-R553) -/

/-- Direction of a link in the route table: upstream or downstream (R554). -/
def directionOf (x : Nat) : Nat := x + 1

/-- The link trains: both ends exchange LINKUP, and a die that has just come back sends RETURN (R548, R549,
R560). -/
def linkUp (x : Nat) (s : State) : State :=
  let l := s.link x
  if !l.cabled ∨ l.up ∨ !s.linkEnd then s
  else
    let s := s.setLink x { l with
      up := true, partnerBypass := false, partnerInDown := false, txSeq := 0, rxSeq := 0xFF, replay := []
      fails := 0, rx := .idle, tx := .free, fwd := [], returnDue := false }
    let s := showLink x s
    let s := if s.chn.bypassing then s else raise (258 + x) s
    let inDown := s.chn.bypassing && !(s.link (otherLink x)).up
    let s := relayCtrl x (.linkup (s.address.getD 0) s.address.isSome s.gng.era inDown) s
    if l.returnDue then sendCtrl x (.ret s.chn.unit) s else s

/-- CHAIN_LINK_UP (R548). -/
def execChainLinkUp (x : Fin 2) (s : State) : Result := .next (linkUp x s)

/-- Every 10 ms a link that is down tries again, if ModPrsL shows a cable; a cable that is gone takes its link with
it, and a retimer that nothing feeds any longer takes both (R89, R90, R548). -/
def trainRetry (x : Nat) (cable : Cable) (s : State) : State :=
  let s := powerRetimer (s.setLink x { s.link x with cable := cable })
  let s := if (s.link x).up && !(s.link x).cabled then linkFalls x s else s
  if s.on domBYP then s else forEach [0, 1] (fun y s => if (s.link y).up then linkFalls y s else s) s

/-- LINK_TRAIN_RETRY (R548). -/
def execLinkTrainRetry (x : Fin 2) (cable : Cable) (s : State) : Result := .next (trainRetry x cable s)

/-- The partner's LINKUP (R549): its address and flag are recorded, and source 264 is raised where they differ from
the route table (log 92). -/
def linkupArrives (x : Nat) (unit : BitVec 12) (assigned : Bool) (era : BitVec 16) (inDown bypass : Bool)
    (s : State) : State :=
  if !s.carries x then s
  else
    let s := takeCtrl x s
    let s := s.setLink x { s.link x with
      partnerUnit := unit, partnerAssigned := assigned, partnerEra := era, partnerInDown := inDown
      partnerBypass := bypass }
    let s := showLink x s
    if !s.chn.bypassing && assigned && !s.chn.route.isEmpty && s.routeTo unit.toNat != directionOf x then raise 264 s
    else s

/-- LINKUP (R549). -/
def execLinkup (x : Fin 2) (unit : BitVec 12) (assigned : Bool) (era : BitVec 16) (bypassInDown bypass : Bool)
    (s : State) : Result := .next (linkupArrives x unit assigned era bypassInDown bypass s)

/-- A flit is discarded: it is counted, and a nak names the last good seq (R552). -/
def discardFlit (x : Nat) (raw : List Byte) (s : State) : State :=
  let l := s.link x
  if !s.carries x || rawGood l raw then s
  else (s.setLink x { l with crc := satInc l.crc }).emit (.chain x (.nak l.rxSeq))

/-- FLIT_DISCARD (R552). -/
def execFlitDiscard (x : Fin 2) (raw : List Byte) (s : State) : Result :=
  if raw.length = 80 then .next (discardFlit x raw s) else .fault .malformed

/-- A nak: what its ack covers is done with, and every flit after it is replayed (R552). -/
def nakReplay (x : Nat) (ack : BitVec 8) (s : State) : State :=
  if s.carries x then
    let s := replay x (applyAck x ack s)
    pumpAll x s
  else s

/-- NAK_REPLAY (R552). -/
def execNakReplay (x : Fin 2) (ack : BitVec 8) (s : State) : Result := .next (nakReplay x ack s)

/-- No ack has advanced for 2 µs (R552). -/
def replayTimeout (x : Nat) (s : State) : State := if s.carries x then replay x s else s

/-- REPLAY_TIMEOUT (R552). -/
def execReplayTimeout (x : Fin 2) (s : State) : Result := .next (replayTimeout x s)

/-! ## Messages of this card (R555, R564, R566, R567) -/

/-- Lane 1 of a message on the chain: the send stamp and the sender's era (R564). -/
def stampLane (stamp : BitVec 48) (era : BitVec 16) : Lane := BitVec.ofNat 72 (stamp.toNat + era.toNat * 2 ^ 48)

/-- The flits of a message of this card. -/
def State.outFlits (s : State) (x : Msg) : List Flit :=
  flitsOf (x.lanes.headD 0 :: stampLane x.stamp s.gng.era :: x.lanes.drop 1)

/-- The chain port ends a message itself: it is drained, and its sender stops with code 3 (R282, R555). -/
def answeredAtPort (m : Nat) (x : Msg) (s : State) : State :=
  failSender (x.lanes.headD 0) ansUnreachable (dropMsg m s)

/-- Put the next flit of message m on its link. -/
def sendNext (m : Nat) (x : Msg) (s : State) : State :=
  match (s.outFlits x)[x.sent]? with
  | none => s
  | some f =>
    let s := sendFlit x.via f s
    if f.last then freeOutput x.via (dropMsg m s)
    else
      let s := { s with grd := { s.grd with msgs := s.grd.msgs.set m { x with sent := x.sent + 1 } } }
      s.setLink x.via { s.link x.via with tx := .own x.src }

/-- Message m is the oldest of its pair. -/
def State.oldest (s : State) (m : Nat) (x : Msg) : Bool := !(s.grd.msgs.take m).any x.samePair

/-- The link that the first flit of a message can take now (R555, R567). -/
def State.openLink (s : State) (x : Msg) : Option Nat :=
  (s.linkTo x.unit.toNat).filter (fun v => decide ((s.link v).tx = .free) && (s.link v).fwd.isEmpty)

/-- The header of message m enters the chain port with its send stamp, and its first flit is put on its link (R206,
R555, R564). -/
def sendFirst (m : Nat) (s : State) : State :=
  match s.grd.msgs[m]? with
  | none => s
  | some x =>
    if x.outward ∧ x.arrived ∧ x.sent = 0 ∧ s.oldest m x ∧ !s.chn.absent.contains x.unit then
      match s.openLink x with
      | none => s
      | some v => sendNext m { x with via := v, stamp := s.gng.next } (takeStamp s)
    else s

/-- The oldest message of a tile that waits at the chain port. -/
def sendWaiting (src : Nat) (s : State) : State :=
  match s.grd.msgs.findIdx? (fun x => x.src == src && x.outward && x.arrived && x.sent == 0) with
  | none => s
  | some m => sendFirst m s

/-- The chain port takes one flit of message m: its first, once it is the oldest of its pair, the output is free and the
Gong has granted its stamp, or its next (R216, R555). -/
def chainSend (m : Nat) (held : Bool) (s : State) : State :=
  match s.grd.msgs[m]? with
  | none => s
  | some x =>
    if !x.outward then s
    else if 0 < x.sent then (if s.linkUsable x.via then sendNext m x s else s)
    else if !x.arrived ∨ !s.oldest m x then s
    else if s.chn.absent.contains x.unit ∨ (s.linkTo x.unit.toNat).isNone then answeredAtPort m x s
    else if (s.openLink x).isSome ∧ !s.gng.held.contains (.send x.src) then askGong (.send x.src) held (sendFirst m) s
    else s

/-- CHAIN_SEND (R555). -/
def execChainSend (m : Nat) (held : Bool) (s : State) : Result := .next (chainSend m held s)

/-! ## Flits received (R555, R561-R564) -/

/-- A good flit of one of the four message types arrives. -/
def State.flitOk (s : State) (x kind : Nat) (raw : List Byte) : Bool :=
  s.carries x && rawGood (s.link x) raw && rawType raw == kind

/-- This card's own address is the destination; a bypassing retimer compares its copy (R560). -/
def State.ownUnit (s : State) (u : Nat) : Bool := s.address.any (fun a => a.toNat == u)

/-- The chain port passes a whole message to the mesh without lane 1 (R564). -/
def deliver (ls : List Lane) (s : State) : State :=
  let hdr := ls.headD 0
  { s with grd := { s.grd with msgs := s.grd.msgs ++
    [{ src := hdrSrcTile hdr, dst := hdrTile hdr, unit := BitVec.ofNat 12 (hdrSrcUnit hdr)
       tag := BitVec.ofNat 14 (hdrTag hdr), mailbox := BitVec.ofNat 4 (hdrMailbox hdr)
       lanes := hdr :: ls.drop 2, inward := true }] } }

/-- The arrival record of a message that enters here, with its local stamp (R564). -/
def recordArrival (ls : List Lane) (s : State) : State :=
  let st := ls.getD 1 0
  let a : Arrival := { unit := BitVec.ofNat 12 (hdrSrcUnit (ls.headD 0)), era := fldv st 48 16, send := fldv st 0 48
                       stamp := s.gng.next }
  let s := takeStamp s
  { s with chn := { s.chn with arr := a } }

/-- The lanes of a message for this card are added up; its last flit delivers it. -/
def addLanes (x : Nat) (ls : List Lane) (last : Bool) (s : State) : State :=
  if last then deliver ls (setRx x .idle s) else setRx x (.own ls) s

/-- A FIRST flit: the message enters here, goes on to the other link, or is answered (R555, R561). -/
def firstArrives (x : Nat) (raw : List Byte) (s : State) : State :=
  if !s.flitOk x 1 raw then s
  else
    let ls := rawLanes raw
    let last := rawLast raw
    let hdr := ls.headD 0
    let y := otherLink x
    let refused (s : State) : State := answerBack x hdr ansUnreachable (setRx x (if last then .idle else .drained) s)
    let s := takeFlit x raw s
    if s.ownUnit (hdrUnit hdr) then
      if s.chn.bypassing then refused s else addLanes x ls last (recordArrival ls s)
    else if !s.carries y || (!s.chn.bypassing && s.routeTo (hdrUnit hdr) == 0) then refused s
    else forwardFlit y { kind := 1, last := last, lanes := ls } (setRx x (if last then .idle else .through hdr) s)

/-- FIRST (R564). -/
def execFirstFlit (x : Fin 2) (raw : List Byte) (s : State) : Result :=
  if raw.length = 80 then .next (firstArrives x raw s) else .fault .malformed

/-- A CONT flit goes where its message went. -/
def contArrives (x : Nat) (raw : List Byte) (s : State) : State :=
  if !s.flitOk x 2 raw then s
  else
    let last := rawLast raw
    let s := takeFlit x raw s
    match (s.link x).rx with
    | .idle => s
    | .drained => if last then setRx x .idle s else s
    | .own ls => addLanes x (ls ++ rawLanes raw) last s
    | .through _ =>
      let s := if last then setRx x .idle s else s
      forwardFlit (otherLink x) { kind := 2, last := last, lanes := rawLanes raw } s

/-- CONT (R564). -/
def execContFlit (x : Fin 2) (raw : List Byte) (s : State) : Result :=
  if raw.length = 80 then .next (contArrives x raw s) else .fault .malformed

/-- An ABORT flit ends its message: the destination discards it whole (R278, R561). -/
def abortArrives (x : Nat) (raw : List Byte) (s : State) : State :=
  if !s.flitOk x 3 raw then s
  else
    let s := takeFlit x raw s
    match (s.link x).rx with
    | .through _ => forwardFlit (otherLink x) abortFlit (setRx x .idle s)
    | _ => setRx x .idle s

/-- ABORT (R561). -/
def execAbortFlit (x : Fin 2) (raw : List Byte) (s : State) : Result :=
  if raw.length = 80 then .next (abortArrives x raw s) else .fault .malformed

/-- A unit is marked absent: source 262, and the head frees its part of every spanning tag (R562, Table 20-4). -/
def markAbsent (u : BitVec 12) (s : State) : State :=
  let s := { s with chn := { s.chn with
    absent := if s.chn.absent.contains u then s.chn.absent else s.chn.absent ++ [u] } }
  let s := if s.isHead then forEach (s.chn.tags.map (·.key)) (freeSpan u) s else s
  raise 262 s

/-- An ANSWER reaches the source card (R562). -/
def answered (hdr : Lane) (code : Nat) (s : State) : State :=
  let s := if code = ansUnreachable then markAbsent (BitVec.ofNat 12 (hdrUnit hdr)) s else s
  let t := (s.tile (hdrSrcTile hdr)).tag
  if t.toNat = hdrTag hdr ∧ t ≠ 0 then failSender hdr code s
  else { s with chn := { s.chn with stale := satInc s.chn.stale } }

/-- An ANSWER flit: for this card, or on towards its source unit (R561, R562). -/
def answerArrives (x : Nat) (raw : List Byte) (s : State) : State :=
  if !s.flitOk x 4 raw then s
  else
    let ls := rawLanes raw
    let hdr := ls.headD 0
    let y := otherLink x
    let s := takeFlit x raw s
    if s.ownUnit (hdrSrcUnit hdr) && !s.chn.bypassing then answered hdr (fld (ls.getD 1 0) 0 8) s
    else if s.carries y then sendFlit y { kind := 4, last := rawLast raw, lanes := ls } s
    else s

/-- ANSWER (R562). -/
def execAnswerFlit (x : Fin 2) (raw : List Byte) (s : State) : Result :=
  if raw.length = 80 then .next (answerArrives x raw s) else .fault .malformed

/-- The next flit of a message has not come within 10 µs: it ends with ABORT and is answered with code 3 (R563). -/
def gapTimeout (x : Nat) (s : State) : State :=
  if !s.carries x then s
  else match (s.link x).rx with
    | .own ls => answerBack x (ls.headD 0) ansUnreachable (setRx x .drained s)
    | .through hdr => answerBack x hdr ansUnreachable (forwardFlit (otherLink x) abortFlit (setRx x .drained s))
    | _ => s

/-- FLIT_GAP_TIMEOUT (R563). -/
def execFlitGapTimeout (x : Fin 2) (s : State) : Result := .next (gapTimeout x s)

/-! ## Registers that a read changes (Table 19-3) -/

/-- CHN_ARR_INFO: a read latches the arrival record (R564). -/
def arrRead (s : State) : Reg × State :=
  (pack [(16, s.chn.arr.unit.toNat), (0, s.chn.arr.era.toNat)], { s with chn := { s.chn with arrShown := s.chn.arr } })

/-- CHN_ARR_READ (R564). -/
def execChnArrRead (q : Requester) (s : State) : Result := .next (regRead q (.blk (baseCHN + 0x30)) arrRead s)

/-- CHN_STAT: reading clears stale_answers (R562). -/
def chnStat (s : State) : Reg × State :=
  (pack [(16, s.chn.stale.toNat), (3, s.chn.noAddress.toNat), (2, s.chn.duplicate.toNat), (0, s.chn.enumState.toNat)],
   { s with chn := { s.chn with stale := 0 } })

/-- CHN_STAT_READ (R562). -/
def execChnStatRead (q : Requester) (s : State) : Result := .next (regRead q (.blk (baseCHN + 8)) chnStat s)

/-- CHN_LINKx_STAT: reading clears down_count (R553). -/
def linkStat (x : Nat) (s : State) : Reg × State :=
  let l := s.link x
  (pack [(31, l.stat.up.toNat), (30, l.stat.bypass.toNat), (29, l.stat.assigned.toNat), (12, l.stat.unit.toNat),
         (0, l.down.toNat)],
   s.setLink x { l with down := 0 })

/-- CHN_LINK_STAT_READ (R553). -/
def execChnLinkStatRead (q : Requester) (x : Fin 2) (s : State) : Result :=
  .next (regRead q (.blk (baseCHN + 0x10 + 4 * x)) (linkStat x) s)

/-- CHN_CRCx: reading clears it (R552). -/
def crcCount (x : Nat) (s : State) : Reg × State := ((s.link x).crc, s.setLink x { s.link x with crc := 0 })

/-- CHN_CRC_READ (R552). -/
def execChnCrcRead (q : Requester) (x : Fin 2) (s : State) : Result :=
  .next (regRead q (.blk (baseCHN + 0x18 + 4 * x)) (crcCount x) s)

end Sys2Proof.Machine
end

