-- ==== Sys2Proof/Machine/ChainUnits.lean ====
section
/-!
DEFINITION. The chain as a whole (19): enumeration, spanning tags, the bypass retimer and the chain reset.
-/
namespace Sys2Proof.Machine

/-! ## Spanning jobs (R565) -/

/-- Every spanning job on the card fails; no detector fires, so the detail is a free value (R565, log 93). -/
def failSpanning (s : State) : State :=
  let ids := (s.sch.jobs.filter (fun j => j.man.spans && j.result.isNone)).map (·.id)
  let (v, s) := s.draw
  forEach ids (fun id s => finishJob id stFault (Config.fresh v % 65536) s) s

/-- Jobs whose step 4 waits for the tag of a key. -/
def State.spanWaiting (s : State) (key : Nat) : List Job :=
  s.rings.flatMap (fun e => e.2.inflight.filterMap (fun d =>
    match d.st with
    | .spanWait j => if j.jobId.toNat = key then some j else none
    | _ => none))

/-- The head's answer reaches the unit that asked. -/
def spanAnswered (key : BitVec 32) (index : Option (Fin 8192)) (s : State) : State :=
  forEach (s.spanWaiting key.toNat) (fun j s =>
    match index with
    | none => decide1 j.tenant j.ring j.seq (.decided (cpl stLimit 7)) s
    | some i => lateChecks { j with tag := 8192 + i.val } s) s

/-- SPAN_REQ arrives from downstream, or the head's answer from upstream (R565). -/
def spanReqArrives (unit : BitVec 12) (key : BitVec 32) (answer : Option (Option (Fin 8192))) (s : State) : State :=
  match answer with
  | none =>
    if !s.carries 1 then s
    else
      let s := takeCtrl 1 s
      if s.isHead && !s.chn.bypassing then
        let g := grantSpan unit key s
        sendCtrl 1 (.spanGrant unit key (g.1.map (fun i => ⟨i % 8192, Nat.mod_lt _ (by decide)⟩))) g.2
      else relayCtrl 0 (.spanReq unit key) s
  | some index =>
    if !s.carries 0 then s
    else
      let s := takeCtrl 0 s
      if unit = s.chn.unit && !s.chn.bypassing then spanAnswered key index s
      else relayCtrl 1 (.spanGrant unit key index) s

/-- SPAN_REQ (R565). -/
def execSpanReq (unit : BitVec 12) (key : BitVec 32) (answer : Option (Option (Fin 8192))) (s : State) : Result :=
  .next (spanReqArrives unit key answer s)

/-- SPAN_FREE arrives from downstream (R565). -/
def spanFreeArrives (unit : BitVec 12) (key : BitVec 32) (s : State) : State :=
  if !s.carries 1 then s
  else
    let s := takeCtrl 1 s
    if s.isHead && !s.chn.bypassing then freeSpan unit key s else relayCtrl 0 (.spanFree unit key) s

/-- SPAN_FREE (R565). -/
def execSpanFree (unit : BitVec 12) (key : BitVec 32) (s : State) : Result := .next (spanFreeArrives unit key s)

/-- The head has not answered within 1 ms: the job is rejected, and what the head may still grant is given back
(R565, log 99). -/
def spanTimeout (key : Nat) (s : State) : State :=
  forEach (s.spanWaiting key) (fun j s => rejectJob j (cpl stLimit 7) s) s

/-- SPAN_TIMEOUT (R565). -/
def execSpanTimeout (j : Nat) (s : State) : Result := .next (spanTimeout j s)

/-! ## Enumeration (Table 19-2) -/

/-- Steps 11 and 12: DONE reaches a unit, and at the head the enumeration is done. -/
def doneHere (full : List (BitVec 12)) (count : Nat) (s : State) : State :=
  let entry (u : BitVec 12) : BitVec 2 :=
    if s.ownUnit u.toNat then 3 else if s.routeTo u.toNat = 1 then 1 else 2
  let s := { s with chn := { s.chn with
    route := full.foldl (fun t u => Tbl.put 0 t u.toNat (entry u)) []
    absent := [] } }
  let s := raise 260 s
  if s.isHead then { s with chn := { s.chn with enumState := 2, units := BitVec.ofNat 13 count } }
  else sendCtrl 0 (.done full count) s

/-- Steps 7 and 8: an unassigned unit takes the next address, if there is one; no_address then reads 0 again
(log 101). -/
def takeAddress (next : Nat) (s : State) : Nat × State :=
  if s.chn.assigned then (next, s)
  else if next ≤ 4095 then
    (next + 1, { s with chn := { s.chn with
    assigned := true, unit := BitVec.ofNat 12 next, copy := some (BitVec.ofNat 12 next), noAddress := false } })
  else (next, raise 261 { s with chn := { s.chn with noAddress := true } })

/-- Steps 7-10: ASSIGN reaches a live unit. The head takes it too (log 94). -/
def assignHere (next : Nat) (upset : List (BitVec 12)) (count : Nat) (s : State) : State :=
  let (next, s) := takeAddress next s
  let route := upset.foldl (fun t u => Tbl.put 0 t u.toNat 1) s.chn.route
  let own := if s.chn.assigned then [s.chn.unit] else []
  let s := failSpanning { s with chn := { s.chn with
    route := own.foldl (fun t u => Tbl.put 0 t u.toNat 3) route } }
  if s.isTail then doneHere (upset ++ own) count s else sendCtrl 1 (.assign next (upset ++ own) count) s

/-- The address after the highest claimed one (step 6). -/
def nextAddress (claimed : List (BitVec 12)) : Nat := claimed.foldl (fun a u => max a (u.toNat + 1)) 0

/-- Step 6: the head has the SURVEY back. -/
def surveyBack (claimed : List (BitVec 12)) (count : Nat) (s : State) : State :=
  assignHere (nextAddress claimed) [] count s

/-- Step 1: the head starts, counting itself. A request while enumeration runs joins it (R557). -/
def startEnumeration (s : State) : State :=
  if s.chn.enumState = 1 then s
  else
    let s := failSpanning { s with chn := { s.chn with enumState := 1 } }
    let claimed := if s.chn.assigned then [s.chn.unit] else []
    if s.isTail then surveyBack claimed 1 s else sendCtrl 1 (.survey claimed 1) s

/-- A request for enumeration: a card that is not the head passes it upstream (R557). A card that its retimer
bypasses cannot (log 100). -/
def requestEnumeration (s : State) : State :=
  if s.chn.bypassing then s
  else if s.isHead then startEnumeration s
  else sendCtrl 0 .enumRequest s

/-- SURVEY from upstream: steps 2-5. A duplicate address is cleared (source 266). -/
def surveyHere (claimed : List (BitVec 12)) (count : Nat) (s : State) : State :=
  let dup := s.address.any (fun a => claimed.contains a)
  let own := if dup then [] else s.address.toList
  let s := if dup then chainEvent 266 { s with chn := { s.chn with
      assigned := false, unit := 0, copy := none, route := [], absent := []
      duplicate := s.chn.duplicate || s.on domMGT } } else s
  if s.isTail then relayCtrl 0 (.survey (claimed ++ own) (count + 1)) s
  else relayCtrl 1 (.survey (claimed ++ own) (count + 1)) s

/-- A SURVEY flit: outward through each unit, and back from the tail to the head (Table 19-2). -/
def surveyArrives (x : Nat) (claimed : List (BitVec 12)) (count : Nat) (s : State) : State :=
  if !s.carries x then s
  else
    let s := takeCtrl x s
    if x = 0 then surveyHere claimed count s
    else if s.isHead && !s.chn.bypassing then
      (if s.chn.enumState = 1 then surveyBack claimed count s else s)
    else relayCtrl 0 (.survey claimed count) s

/-- SURVEY (R557). -/
def execSurvey (x : Fin 2) (claimed : List (BitVec 12)) (count : Nat) (s : State) : Result :=
  .next (surveyArrives x claimed count s)

/-- An ASSIGN flit from upstream; a bypassing retimer forwards it unchanged (Table 19-2). -/
def assignArrives (x next : Nat) (upset : List (BitVec 12)) (count : Nat) (s : State) : State :=
  if !s.carries x || x != 0 then s
  else
    let s := takeCtrl x s
    if s.chn.bypassing then relayCtrl 1 (.assign next upset count) s else assignHere next upset count s

/-- ASSIGN (R557). -/
def execAssign (x : Fin 2) (next : Nat) (upset : List (BitVec 12)) (count : Nat) (s : State) : Result :=
  .next (assignArrives x next upset count s)

/-- A DONE flit from downstream; a bypassing retimer forwards it unchanged (Table 19-2). -/
def doneArrives (x : Nat) (full : List (BitVec 12)) (count : Nat) (s : State) : State :=
  if !s.carries x || x != 1 then s
  else
    let s := takeCtrl x s
    if s.chn.bypassing then relayCtrl 0 (.done full count) s else doneHere full count s

/-- DONE (R557). -/
def execDoneFlit (x : Fin 2) (full : List (BitVec 12)) (count : Nat) (s : State) : Result :=
  .next (doneArrives x full count s)

/-- DONE has not reached the head 100 ms after it started (R558). -/
def enumTimeout (s : State) : State :=
  if s.isHead ∧ s.chn.enumState = 1 then raise 261 { s with chn := { s.chn with enumState := 3 } } else s

/-- ENUM_TIMEOUT (R558). -/
def execEnumTimeout (s : State) : Result := .next (enumTimeout s)

/-! ## Bypass (R560, R561) -/

/-- The retimer takes both links over: what this card is sending fails, and what it is receiving is answered. -/
def enterBypass (s : State) : State :=
  if s.chn.bypassing then s
  else
    let s := forEach [0, 1] (fun x s => pumpAll x (dropSending x true s)) s
    let s := { s with chn := { s.chn with bypassing := true } }
    forEach [0, 1] (fun x s =>
      match (s.link x).rx with
      | .own ls => answerBack x (ls.headD 0) ansUnreachable (setRx x .drained s)
      | _ => s) s

/-- BYPASS_ENTER (R560). -/
def execBypassEnter (s : State) : Result := .next (enterBypass s)

/-- The retimer hands the links back: both retrain, and the die announces RETURN once they are up (R560). -/
def exitBypass (s : State) : State :=
  if !s.chn.bypassing ∨ s.chn.bypassReg ∨ !s.on domCHN then s
  else
    let s := { s with chn := { s.chn with bypassing := false } }
    forEach [0, 1] (fun x s =>
      let s := if (s.link x).up then linkFalls x s else s
      s.setLink x { s.link x with returnDue := true }) s

/-- BYPASS_EXIT (R560). -/
def execBypassExit (s : State) : Result := .next (exitBypass s)

/-- A RETURN flit: that unit is no longer absent, and the flit goes on (R560). -/
def returnArrives (x : Nat) (unit : BitVec 12) (s : State) : State :=
  if !s.carries x then s
  else
    let s := takeCtrl x s
    let s := if s.chn.bypassing then s
      else raise 263 { s with chn := { s.chn with absent := s.chn.absent.filter (· ≠ unit) } }
    relayCtrl (otherLink x) (.ret unit) s

/-- RETURN (R560). -/
def execReturnFlit (x : Fin 2) (unit : BitVec 12) (s : State) : Result := .next (returnArrives x unit s)

/-! ## Chain reset (R569) and CHN_CTL -/

/-- What a chain reset does at a card or retimer. -/
def chainResetHere (s : State) : State :=
  let s := forEach [0, 1] (fun x s =>
    let s := if (s.partSent x).isEmpty then s else sendFlit x abortFlit s
    let s := dropSending x false s
    let s := match (s.link x).rx with
      | .through _ => forwardFlit (otherLink x) abortFlit (setRx x .drained s)
      | .own _ => setRx x .drained s
      | _ => s
    pumpAll x s) s
  let s := failSpanning s
  let s := if s.on domAON then setCause 5 s else s
  chainEvent 265 { s with chn := { s.chn with
    assigned := false, unit := 0, copy := none, route := [], absent := [], tags := [] } }

/-- A RESET flit goes on through every card and retimer (R569). -/
def resetArrives (x : Nat) (s : State) : State :=
  if !s.carries x then s
  else relayCtrl (otherLink x) .reset (chainResetHere (takeCtrl x s))

/-- RESET (R569). -/
def execResetFlit (x : Fin 2) (s : State) : Result := .next (resetArrives x s)

/-- CHN_CTL.chain_reset: this card floods RESET both ways and is reset itself (R569, log 95). -/
def startChainReset (s : State) : State := relayCtrl 1 .reset (relayCtrl 0 .reset (chainResetHere s))

/-- CHN_CTL.bypass (R560). -/
def setBypass (on : Bool) (s : State) : State :=
  let s := { s with chn := { s.chn with bypassReg := on } }
  if on then enterBypass s else s

/-- A write of CHN_CTL (R557, R560, R569, R593; where one write sets both, the reset comes first, log 96). -/
def chnCtlWrite (q : Requester) (v : BitVec 32) (s : State) : State :=
  if (bit v 1 || bit v 2) && !keyed v then regError q (baseCHN + 4) s
  else
    let s := setBypass (bit v 0) s
    let s := if bit v 2 then startChainReset s else s
    if bit v 1 then requestEnumeration s else s

/-- ENUMERATE: the keyed write, or a request that a card downstream has passed up (R557). -/
def execEnumerate (q : Requester) (v : BitVec 32) (passed : Bool) (s : State) : Result :=
  .next (if passed then (if s.carries 1 then
      (if s.chn.bypassing then relayCtrl 0 .enumRequest (takeCtrl 1 s) else requestEnumeration (takeCtrl 1 s)) else s)
    else keyWrite q (.blk (baseCHN + 4)) v (chnCtlWrite q v) s)

/-- CHAIN_RESET (R569). -/
def execChainReset (q : Requester) (v : BitVec 32) (s : State) : Result :=
  .next (keyWrite q (.blk (baseCHN + 4)) v (chnCtlWrite q v) s)

/-- CHN_BYPASS (R560). -/
def execChnBypass (q : Requester) (on : Bool) (s : State) : Result :=
  .next (regWrite q (.blk (baseCHN + 4)) (setBypass on) s)

end Sys2Proof.Machine
end

