-- ==== Sys2Proof/Machine/Bitstream.lean ====
section
/-!
DEFINITION. The bit reader that Intake's image decoders share (R469-R471, R475): the bits of the data, most significant
first, each with the offset of its byte, and how a decode fails.
-/
namespace Sys2Proof.Machine

/-- How a decode fails: the input byte offset, and 0 the data ends early, 1 an invalid code, 2 a T.6 run that passes the
width (R475). -/
abbrev DecodeFault := Nat × Nat

/-- Bits still to be read. Where they end, decoding fails with `stop`. -/
structure BitSource where
  bits : List (Bool × Nat)
  stop : DecodeFault

/-- The bits of bytes that stand at their offsets. -/
def bitsOf (bs : List (Nat × Byte)) : List (Bool × Nat) :=
  bs.flatMap (fun b => (List.range 8).map (fun i => (bit b.2 (7 - i), b.1)))

/-- Bytes with their offsets, from one on. -/
def offsets (off : Nat) (bs : List Byte) : List (Nat × Byte) := bs.zipIdx.map (fun b => (off + b.2, b.1))

/-- The offset at which the next bit lies. -/
def BitSource.at (r : BitSource) : Nat := (r.bits.head?.map (·.2)).getD r.stop.1

/-- Read n bits, the first most significant. -/
def BitSource.take (r : BitSource) (n : Nat) : Except DecodeFault (Nat × BitSource) :=
  if r.bits.length < n then .error r.stop
  else .ok ((r.bits.take n).foldl (fun a b => 2 * a + b.1.toNat) 0, { r with bits := r.bits.drop n })

/-- Read on in a prefix code: `acc` is a leading 1 and the bits read of the code that began at `off`. -/
def BitSource.codeFrom (table : List (Nat × Nat)) (off : Nat) :
    Nat → Nat → BitSource → Except DecodeFault (Nat × BitSource)
  | 0, _, _ => .error (off, 1)
  | n + 1, acc, r =>
    match r.bits with
    | [] => .error r.stop
    | b :: bs =>
      let acc := 2 * acc + b.1.toNat
      match table.find? (fun e => e.1 == acc) with
      | some e => .ok (e.2, { r with bits := bs })
      | none => codeFrom table off n acc { r with bits := bs }

/-- Read one code word of a prefix code of at most n bits: the table gives each word with a leading 1, and its value. -/
def BitSource.code (table : List (Nat × Nat)) (n : Nat) (r : BitSource) : Except DecodeFault (Nat × BitSource) :=
  r.codeFrom table r.at n 1

end Sys2Proof.Machine
end

