-- ==== Sys2Proof/Machine/Bilevel.lean ====
section
/-!
DEFINITION. T.6 bilevel decoding (R471, R475): the code words of ITU-T T.4 and T.6, and the decoding of a page row by
row against the row before it. The spec names the standard and does not print it (log 23).
-/
namespace Sys2Proof.Machine

/-! ## Code words, each with a leading 1 (ITU-T T.4, Tables 2 and 3) -/

/-- White runs of 0-63. -/
def whiteShort : List Nat :=
  [309, 71, 23, 24, 27, 28, 30, 31, 51, 52, 39, 40, 72, 67, 116, 117, 106, 107, 167, 140, 136, 151, 131, 132, 168,
   171, 147, 164, 152, 258, 259, 282, 283, 274, 275, 276, 277, 278, 279, 296, 297, 298, 299, 300, 301, 260, 261,
   266, 267, 338, 339, 340, 341, 292, 293, 344, 345, 346, 347, 330, 331, 306, 307, 308]

/-- White runs of 64, 128, ..., 1,728. -/
def whiteLong : List Nat :=
  [59, 50, 87, 183, 310, 311, 356, 357, 360, 359, 716, 717, 722, 723, 724, 725, 726, 727, 728, 729, 730, 731, 664,
   665, 666, 88, 667]

/-- Black runs of 0-63. -/
def blackShort : List Nat :=
  [1079, 10, 7, 6, 11, 19, 18, 35, 69, 68, 132, 133, 135, 260, 263, 536, 1047, 1048, 1032, 2151, 2152, 2156, 2103,
   2088, 2071, 2072, 4298, 4299, 4300, 4301, 4200, 4201, 4202, 4203, 4306, 4307, 4308, 4309, 4310, 4311, 4204,
   4205, 4314, 4315, 4180, 4181, 4182, 4183, 4196, 4197, 4178, 4179, 4132, 4151, 4152, 4135, 4136, 4184, 4185,
   4139, 4140, 4186, 4198, 4199]

/-- Black runs of 64, 128, ..., 1,728. -/
def blackLong : List Nat :=
  [1039, 4296, 4297, 4187, 4147, 4148, 4149, 8300, 8301, 8266, 8267, 8268, 8269, 8306, 8307, 8308, 8309, 8310,
   8311, 8274, 8275, 8276, 8277, 8282, 8283, 8292, 8293]

/-- Runs of 1,792, 1,856, ..., 2,560 of either colour. -/
def longerRuns : List Nat :=
  [2056, 2060, 2061, 4114, 4115, 4116, 4117, 4118, 4119, 4124, 4125, 4126, 4127]

/-- The run lengths of a colour: black is true. -/
def runTable (black : Bool) : List (Nat × Nat) :=
  (if black then blackShort else whiteShort).zipIdx
    ++ ((if black then blackLong else whiteLong) ++ longerRuns).zipIdx.map (fun e => (e.1, 64 * (e.2 + 1)))

/-- The modes of a two-dimensional row: 0 pass, 1 horizontal, and 5 + d for a vertical mode of offset d (ITU-T T.6,
Table 4; the extension code of the uncompressed mode is none of them). -/
def modeTable : List (Nat × Nat) :=
  [(0x11, 0), (0x9, 1), (0x3, 5), (0xB, 6), (0x43, 7), (0x83, 8), (0xA, 4), (0x42, 3), (0x82, 2)]

/-- The longest run code, and the longest mode code. -/
def runBits : Nat := 13
def modeBits : Nat := 7

/-! ## Rows -/

/-- A pixel of a row is black; left of the row and beyond it are white. -/
def inkAt (row : List Bool) (i : Nat) : Bool := row.getD i false

/-- Pixel i of a row differs from the one before it. -/
def changesAt (row : List Bool) (i : Nat) : Bool := inkAt row i != (decide (0 < i) && inkAt row (i - 1))

/-- The first changing element of a row of w from pixel `lo` on that takes the colour c; w where there is none. -/
def nextChange (w : Nat) (row : List Bool) (lo : Nat) (c : Bool) : Nat :=
  ((List.range w).find? (fun i => decide (lo ≤ i) && changesAt row i && inkAt row i == c)).getD w

/-- A run of a colour: make-up codes and then a terminating one. -/
def readRun (black : Bool) : Nat → Nat → BitSource → Except DecodeFault (Nat × BitSource)
  | 0, _, r => .error (r.at, 1)
  | n + 1, sum, r => do
    let (m, r) ← r.code (runTable black) runBits
    if m < 64 then .ok (sum + m, r) else readRun black n (sum + m) r

/-- A row in progress: its pixels so far, the colour that follows, and whether nothing of it is coded yet. -/
structure RowState where
  row   : List Bool := []
  black : Bool := false
  fresh : Bool := true

/-- Fill the row with its colour up to a pixel. -/
def RowState.fill (x : RowState) (upTo : Nat) (black : Bool) : RowState :=
  { row := x.row ++ List.replicate (upTo - x.row.length) x.black, black := black, fresh := false }

/-- One coding mode of a row of w against the row before it (ITU-T T.6, 2.2). -/
def codeMode (w : Nat) (before : List Bool) (x : RowState) (r : BitSource) : Except DecodeFault (RowState × BitSource) := do
  let off := r.at
  let b1 := nextChange w before (if x.fresh then 0 else x.row.length + 1) (!x.black)
  let (m, r) ← r.code modeTable modeBits
  if m = 0 then .ok (x.fill (nextChange w before (b1 + 1) x.black) x.black, r)
  else if m = 1 then do
    let (m1, r) ← readRun x.black w 0 r
    let (m2, r) ← readRun (!x.black) w 0 r
    let a1 := x.row.length + m1
    if w < a1 + m2 then .error (off, 2)
    else .ok ((x.fill a1 (!x.black)).fill (a1 + m2) x.black, r)
  else if b1 + m < 5 + x.row.length ∨ (b1 + m = 5 + x.row.length ∧ !x.fresh) then .error (off, 1)
  else if w < b1 + m - 5 then .error (off, 2)
  else .ok (x.fill (b1 + m - 5) (!x.black), r)

/-- The rest of a row of w. -/
def codeRow (w : Nat) (before : List Bool) : Nat → RowState → BitSource → Except DecodeFault (List Bool × BitSource)
  | 0, x, r => if x.row.length = w then .ok (x.row, r) else .error (r.at, 1)
  | n + 1, x, r =>
    if x.row.length = w then .ok (x.row, r)
    else do
      let (x, r) ← codeMode w before x r
      codeRow w before n x r

/-- The rows of a page. Every mode reads at least one bit. -/
def codeRows (w : Nat) : Nat → List Bool → BitSource → Except DecodeFault (List (List Bool) × BitSource)
  | 0, _, r => .ok ([], r)
  | h + 1, before, r => do
    let (row, r) ← codeRow w before r.bits.length {} r
    let (rows, r) ← codeRows w h row r
    .ok (row :: rows, r)

/-- A T.6 page of w × h pixels whose data begins at an input byte offset: its plane, and the input bytes read. Black
decodes to 0 and white to 255 (R471). -/
def t6Decode (w h off : Nat) (bs : List Byte) : Except DecodeFault (List Byte × Nat) := do
  let r : BitSource := { bits := bitsOf (offsets off bs), stop := (off + bs.length, 0) }
  let (rows, r) ← codeRows w h [] r
  .ok (rows.flatMap (fun row => row.map (fun b => if b then 0 else 255)),
    off + ceilDiv (8 * bs.length - r.bits.length) 8)

end Sys2Proof.Machine
end

