-- ==== Sys2Proof/Machine/Jpeg.lean ====
section
/-!
DEFINITION. Baseline JPEG decoding (R469, R470, R475): markers, Huffman tables, entropy-coded segments with restart
intervals, dequantisation and chroma replication, as ITU-T T.81 gives them; the spec names the standard and does not
print it (log 23). The pixels of the integer IDCT are a free value of the coefficients.
-/
namespace Sys2Proof.Machine

/-- The place of coefficient k of the zigzag order in a block (T.81, Figure A.6). -/
def zigzag : List Nat :=
  [0, 1, 8, 16, 9, 2, 3, 10, 17, 24, 32, 25, 18, 11, 4, 5, 12, 19, 26, 33, 40, 48, 41, 34, 27, 20, 13, 6, 7, 14, 21, 28,
   35, 42, 49, 56, 57, 50, 43, 36, 29, 22, 15, 23, 30, 37, 44, 51, 58, 59, 52, 45, 38, 31, 39, 46, 53, 60, 61, 54, 47,
   55, 62, 63]

/-- The code words of a Huffman table, each with a leading 1, from the number of codes of each length and their values
(T.81, Annex C). -/
def huffCodes : Nat → Nat → List Nat → List Nat → List (Nat × Nat)
  | _, _, [], _ => []
  | l, c, n :: ns, vs =>
    (vs.take n).zipIdx.map (fun e => (2 ^ l + c + e.2, e.1)) ++ huffCodes (l + 1) (2 * (c + n)) ns (vs.drop n)

/-- A component of the frame: its identifier, its sampling factors and its quantisation table. -/
structure JpegComp where
  id : Nat
  h  : Nat
  v  : Nat
  tq : Nat

/-- The blocks of a component as its scan gave them: the data units of an MCU across and down, and the MCUs across. -/
structure JpegBlocks where
  h      : Nat
  v      : Nat
  across : Nat
  blocks : List (List Int)

/-- What a JPEG decoder holds between markers: the quantisation tables, the DC tables (key 0-3) and AC tables (key 4-7),
the restart interval, and the blocks of each component that has been scanned. -/
structure JpegState where
  quant    : List (Nat × List Nat) := []
  huff     : List (Nat × List (Nat × Nat)) := []
  interval : Nat := 0
  done     : List (Nat × JpegBlocks) := []

/-- The frame: its dimensions and its components. -/
structure JpegFrame where
  w     : Nat
  h     : Nat
  comps : List JpegComp

def JpegFrame.hMax (f : JpegFrame) : Nat := (f.comps.map (·.h)).foldl max 1
def JpegFrame.vMax (f : JpegFrame) : Nat := (f.comps.map (·.v)).foldl max 1

/-- The frame of a SOF0 segment. The factors of a single component have no effect (T.81, A.2.2). -/
def frameOf (seg : List Byte) : JpegFrame :=
  let n := le seg 5 1
  { w := be16 seg 3, h := be16 seg 1
    comps := (List.range n).map (fun k =>
      let f := le seg (7 + 3 * k) 1
      { id := le seg (6 + 3 * k) 1, h := if n = 1 then 1 else f / 16, v := if n = 1 then 1 else f % 16
        tq := le seg (8 + 3 * k) 1 }) }

/-! ## Blocks -/

/-- The value of n extra bits (T.81, F.2.2.1). -/
def extended (n v : Nat) : Int := if n ≠ 0 ∧ v < 2 ^ (n - 1) then (v : Int) - (2 ^ n - 1 : Nat) else v

/-- The AC coefficients of a block from coefficient k on, as (k, value) (T.81, F.2.2.2). -/
def acCoefs (ac : List (Nat × Nat)) : Nat → Nat → BitSource → Except DecodeFault (List (Nat × Int) × BitSource)
  | 0, _, r => .ok ([], r)
  | n + 1, k, r =>
    if 63 < k then .ok ([], r)
    else do
      let off := r.at
      let (sym, r) ← r.code ac 16
      let k := k + sym / 16
      if sym % 16 = 0 then
        if sym / 16 = 15 then acCoefs ac n (k + 1) r else if sym = 0 then .ok ([], r) else .error (off, 1)
      else if 63 < k ∨ 10 < sym % 16 then .error (off, 1)
      else do
        let (v, r) ← r.take (sym % 16)
        let (rest, r) ← acCoefs ac n (k + 1) r
        .ok ((k, extended (sym % 16) v) :: rest, r)

/-- The dequantised block of its coefficients in zigzag order, in raster order. -/
def dequantised (q : List Nat) (cs : List (Nat × Int)) : List Int :=
  (List.range 64).map (fun i =>
    let k := zigzag.findIdx (· == i)
    (cs.find? (fun c => c.1 == k)).elim 0 (fun c => c.2 * (q.getD k 0 : Nat)))

/-- A scan's component: its place in the frame, and its tables. -/
structure ScanComp where
  comp : Nat
  h    : Nat
  v    : Nat
  dc   : List (Nat × Nat)
  ac   : List (Nat × Nat)
  q    : List Nat

/-- One block of a component, from the DC value before it. -/
def readBlock (c : ScanComp) (pred : Int) (r : BitSource) : Except DecodeFault ((List Int × Int) × BitSource) := do
  let off := r.at
  let (n, r) ← r.code c.dc 16
  if 11 < n then .error (off, 1)
  else do
    let (v, r) ← r.take n
    let dc := pred + extended n v
    let (cs, r) ← acCoefs c.ac 64 1 r
    .ok ((dequantised c.q ((0, dc) :: cs), dc), r)

/-- The DC predictions of a scan, by component. -/
abbrev Preds := Nat → Int

/-- The blocks of one component in an MCU. -/
def readUnits (c : ScanComp) : Nat → Preds → BitSource → Except DecodeFault (List (Nat × List Int) × Preds × BitSource)
  | 0, p, r => .ok ([], p, r)
  | n + 1, p, r => do
    let ((b, dc), r) ← readBlock c (p c.comp) r
    let (bs, p, r) ← readUnits c n (fun k => if k = c.comp then dc else p k) r
    .ok ((c.comp, b) :: bs, p, r)

/-- The blocks of one MCU. -/
def readMcu : List ScanComp → Preds → BitSource → Except DecodeFault (List (Nat × List Int) × Preds × BitSource)
  | [], p, r => .ok ([], p, r)
  | c :: cs, p, r => do
    let (a, p, r) ← readUnits c (c.h * c.v) p r
    let (b, p, r) ← readMcu cs p r
    .ok (a ++ b, p, r)

/-- The blocks of n MCUs. -/
def readMcus (cs : List ScanComp) : Nat → Preds → BitSource → Except DecodeFault (List (Nat × List Int) × BitSource)
  | 0, _, r => .ok ([], r)
  | n + 1, p, r => do
    let (a, p, r) ← readMcu cs p r
    let (b, r) ← readMcus cs n p r
    .ok (a ++ b, r)

/-! ## Segments -/

/-- Entropy-coded bytes up to the next marker, without their stuffing; what follows, with its offset. -/
def entropy (off : Nat) : List Byte → List (Nat × Byte) × Nat × List Byte
  | [] => ([], off, [])
  | a :: rest =>
    if a ≠ 0xFF then
      let x := entropy (off + 1) rest
      ((off, a) :: x.1, x.2)
    else match rest with
      | [] => ([], off, [a])
      | b :: more =>
        if b = 0 then
          let x := entropy (off + 2) more
          ((off, a) :: x.1, x.2)
        else ([], off, a :: b :: more)

/-- A restart marker (T.81, Table B.1). -/
def restartMarker (bs : List Byte) : Bool := bs.getD 0 0 == 0xFF && (bs.getD 1 0).toNat / 8 == 0x1A

/-- The n MCUs of a scan, interval by interval: their blocks, and what follows them. -/
def readScan (cs : List ScanComp) (interval : Nat) : Nat → Nat → Nat → List Byte →
    Except DecodeFault (List (Nat × List Int) × Nat × List Byte)
  | 0, _, off, bs => .ok ([], off, bs)
  | fuel + 1, n, off, bs => do
    let (data, next, rest) := entropy off bs
    let m := if interval = 0 then n else min interval n
    let r : BitSource := { bits := bitsOf data, stop := (next, if rest.length < 2 then 0 else 1) }
    let (a, r) ← readMcus cs m (fun _ => 0) r
    if n ≤ m then .ok (a, (if r.bits.length < 8 then next else r.at), rest)
    else if !restartMarker rest then .error (next, if rest.length < 2 then 0 else 1)
    else do
      let (b, off, bs) ← readScan cs interval fuel (n - m) (next + 2) (rest.drop 2)
      .ok (a ++ b, off, bs)

/-- The quantisation tables of a DQT segment. -/
def quantTables (seg : List Byte) : List (Nat × List Nat) :=
  (chunks 65 (seg.length / 65) seg).map (fun c => (le c 0 1 % 16, (List.range 64).map (fun k => le c (1 + k) 1)))

/-- The tables of a DHT segment. -/
def huffTables : Nat → List Byte → List (Nat × List (Nat × Nat))
  | 0, _ => []
  | n + 1, seg =>
    if seg.length < 17 then []
    else
      let counts := (List.range 16).map (fun k => le seg (1 + k) 1)
      let sum := counts.sum
      let key := le seg 0 1 % 4 + (if 16 ≤ le seg 0 1 then 4 else 0)
      (key, huffCodes 1 0 counts (((seg.drop 17).take sum).map (·.toNat))) :: huffTables n (seg.drop (17 + sum))

/-- Segments of a DQT and a DHT are whole: 8-bit tables, numbered 0-3 (T.81, Table B.4, B.5). -/
def quantOk (seg : List Byte) : Bool :=
  seg.length % 65 == 0 && (chunks 65 (seg.length / 65) seg).all (fun c => decide (le c 0 1 < 4))

/-- The table with a key. -/
def tableOf {α : Type} (k : Nat) (l : List (Nat × List α)) : Option (List α) := (l.find? (fun e => e.1 == k)).map (·.2)

/-- The components of a SOS segment with their tables; none where one of them is not there (T.81, B.2.3). -/
def scanComps (f : JpegFrame) (x : JpegState) (seg : List Byte) : Option (List ScanComp) :=
  let n := le seg 0 1
  if seg.length ≠ 4 + 2 * n ∨ n = 0 ∨ le seg (1 + 2 * n) 1 ≠ 0 ∨ le seg (2 + 2 * n) 1 ≠ 63 then none
  else (List.range n).mapM (fun k =>
    let t := le seg (2 + 2 * k) 1
    let i := f.comps.findIdx (fun c => c.id == le seg (1 + 2 * k) 1)
    match f.comps[i]? with
    | none => none
    | some c =>
      (tableOf (t / 16) x.huff).bind (fun dc => (tableOf (4 + t % 16) x.huff).bind (fun ac => (tableOf c.tq x.quant).map (fun q =>
        { comp := i, h := if n = 1 then 1 else c.h, v := if n = 1 then 1 else c.v, dc := dc, ac := ac, q := q }))))

/-- Decode a scan whose entropy-coded data begins at an offset. -/
def decodeScan (f : JpegFrame) (cs : List ScanComp) (x : JpegState) (off : Nat) (bs : List Byte) :
    Except DecodeFault (JpegState × Nat × List Byte) := do
  let one (c : ScanComp) : Nat × Nat := match f.comps[c.comp]? with
    | some y => (ceilDiv (ceilDiv (f.w * y.h) f.hMax) 8, ceilDiv (ceilDiv (f.h * y.v) f.vMax) 8)
    | none => (0, 0)
  let (across, down) := match cs with
    | [c] => one c
    | _ => (ceilDiv f.w (8 * f.hMax), ceilDiv f.h (8 * f.vMax))
  let (blocks, off, rest) ← readScan cs x.interval (across * down) (across * down) off bs
  .ok ({ x with done := x.done ++ cs.map (fun c =>
    (c.comp, { h := c.h, v := c.v, across := across
               blocks := (blocks.filter (fun b => b.1 == c.comp)).map (·.2) })) }, off, rest)

/-- Every component of the frame has been scanned. -/
def JpegState.whole (f : JpegFrame) (x : JpegState) : Bool :=
  (List.range f.comps.length).all (fun k => x.done.any (fun d => d.1 == k))

/-- Read markers and scans from an offset on until the last promised pixel is there: the blocks, and the input bytes
read. -/
def readJpeg (f : JpegFrame) : Nat → JpegState → Nat → List Byte → Except DecodeFault (JpegState × Nat)
  | 0, _, off, _ => .error (off, 0)
  | n + 1, x, off, bs =>
    if x.whole f then .ok (x, off)
    else match bs with
      | a :: b :: rest =>
        if a ≠ 0xFF then .error (off, 1)
        else if b = 0xFF then readJpeg f n x (off + 1) (b :: rest)
        else
          let m := b.toNat
          if m = 1 ∨ m / 8 = 0x1A ∨ m = 0xD8 then readJpeg f n x (off + 2) rest
          else if m = 0xD9 then .error (off, 0)
          else
            let l := be16 rest 0
            let seg := (rest.take l).drop 2
            let next := off + 2 + l
            if rest.length < l ∨ rest.length < 2 then .error (off + 2 + rest.length, 0)
            else if l < 2 then .error (off, 1)
            else if m = 0xDB then
              if quantOk seg then readJpeg f n { x with quant := quantTables seg ++ x.quant } next (rest.drop l)
              else .error (off, 1)
            else if m = 0xC4 then
              readJpeg f n { x with huff := huffTables seg.length seg ++ x.huff } next (rest.drop l)
            else if m = 0xDD then readJpeg f n { x with interval := be16 seg 0 } next (rest.drop l)
            else if m = 0xC0 then readJpeg f n x next (rest.drop l)
            else if m = 0xDA then
              match scanComps f x seg with
              | none => .error (off, 1)
              | some cs => do
                let (x, off, bs) ← decodeScan f cs x next (rest.drop l)
                readJpeg f n x off bs
            else if 0xE0 ≤ m ∧ m ≤ 0xEF ∨ m = 0xFE then readJpeg f n x next (rest.drop l)
            else .error (off, 1)
      | _ => .error (off + bs.length, 0)

/-- Sample (x, y) of a component from its blocks. -/
def JpegBlocks.sample (b : JpegBlocks) (x y : Nat) : Byte :=
  let bx := x / 8
  let by_ := y / 8
  let i := (by_ / b.v * b.across + bx / b.h) * (b.h * b.v) + by_ % b.v * b.h + bx % b.h
  Config.idct (b.blocks.getD i []) (8 * (y % 8) + x % 8)

/-- The planes of a frame, each W × H: chroma is replicated to full resolution (R470). -/
def JpegFrame.planes (f : JpegFrame) (x : JpegState) : List (List Byte) :=
  f.comps.mapIdx (fun k c =>
    let b := ((x.done.find? (fun d => d.1 == k)).map (·.2)).getD { h := 1, v := 1, across := 1, blocks := [] }
    (List.range (f.w * f.h)).map (fun i =>
      b.sample (i % f.w * c.h / f.hMax) (i / f.w * c.v / f.vMax)))

/-- Decode a JPEG buffer: its planes of U8 values in raster order, and the input bytes read (R469, R470, R475). -/
def jpegDecode (bs : List Byte) : Except DecodeFault (List (List Byte) × Nat) :=
  match findSof 65536 (bs.take 65536) with
  | none => .error (0, 1)
  | some (_, seg) => do
    let f := frameOf seg
    let (x, off) ← readJpeg f (bs.length + 1) {} 0 bs
    .ok (f.planes x, off)

end Sys2Proof.Machine
end

