-- ==== Sys2Proof/Machine/Intake.lean ====
section
/-!
DEFINITION. The commands of the Intake pipeline (16): queues, samples, the Shaker, the cache and direct loads.
-/
namespace Sys2Proof.Machine

/-- The INK_ block of queue n. -/
def baseINK (n : Nat) : Nat := 0xD00100 + 0x40 * n

/-! ## Enable, disable and flush (R490-R492) -/

/-- The bits of INK_Qq_CFG that a write stores: enable, aug, cache, coarse, kind, port and tenant. -/
def cfgMask : BitVec 32 := 0xEFE0003F

/-- The err of a refused enable, or 0 (R491: whether or not the queue has a region budget or caches, log 76). -/
def State.queueErr (s : State) (x : Queue) : Nat :=
  let t := x.tenant
  let lists := s.mapped t (72 * x.roiBase.toNat) (72 * 32)
  let cache := s.mapped t (72 * x.cacheBase.toNat) (72 * (x.cacheSlots.toNat * x.cacheLines.toNat))
  if !(s.tenant t).enable then 1
  else if ¬lists ∨ ¬cache then 2
  else if x.kind = 0 ∨ 5 < x.kind then 3
  else 0

/-- Every tag of a queue is invalid (R490). -/
def flushCache (n : Nat) (s : State) : State := s.setQueue n { s.queue n with tags := [] }

/-- A write of INK_Qq_CFG while enable is 0: the fields are stored, and enable = 1 is judged (R491; the tags of a
queue that is enabled are invalid, log 75). -/
def configQueue (n : Nat) (v : BitVec 32) (s : State) : State :=
  let x := s.queue n
  let y := { x with cfg := v &&& cfgMask &&& 0x7FFFFFFF, tags := if bit v 28 then [] else x.tags }
  if !bit v 31 then s.setQueue n y
  else
    let e := s.queueErr y
    if e ≠ 0 then s.setQueue n { y with err := BitVec.ofNat 3 e }
    else s.setQueue n { y with cfg := setBit y.cfg 31 true, err := 0, count := 0, samples := [], tags := [] }

/-- A sample belongs to a descriptor that has passed its checks and is not admitted yet: it waits for its spanning tag
(R477, R565). -/
def State.awaits (s : State) (x : Queue) (y : Sample) : Bool :=
  y.job.isNone && (s.ring x.tenant y.ring).inflight.any (fun d => d.seq == y.seq && (match d.st with
    | .spanWait _ => true
    | .fetched => true
    | _ => false))

/-- A sample of queue n has not gone forward; that of a descriptor rejected or aborted since is none. -/
def State.unforwarded (s : State) (n : Nat) : Bool :=
  (s.queue n).samples.any (fun y => y.job.isSome || s.awaits (s.queue n) y)

/-- A write of INK_Qq_CFG (R490, R491; a flush while enable is 1 has no other effect, log 74). -/
def writeQueueCfg (q : Requester) (n : Nat) (v : BitVec 32) (s : State) : State :=
  let x := s.queue n
  if !x.enable then configQueue n v s
  else if bit v 28 then flushCache n s
  else if bit v 31 ∨ s.unforwarded n then regError q (baseINK n) s
  else s.setQueue n { x with cfg := setBit x.cfg 31 false }

/-- QUEUE_ENABLE (R491). -/
def execQueueEnable (q : Requester) (n : Fin 16) (v : BitVec 32) (s : State) : Result :=
  .next (regWrite q (.blk (baseINK n)) (writeQueueCfg q n v) s)

/-- CACHE_FLUSH (R490). -/
def execCacheFlush (q : Requester) (n : Fin 16) (s : State) : Result :=
  .next (regWrite q (.blk (baseINK n)) (flushCache n) s)

/-! ## The Shaker (R485-R487) -/

/-- One round of a draw. -/
def shakerRound (k0 k1 : BitVec 32) (i : Nat) (x : BitVec 32 × BitVec 32) : BitVec 32 × BitVec 32 :=
  let rot := [13, 17, 5, 24].getD i 0
  let x0 := x.1 + x.2 + (if i % 2 = 1 then k1 else k0) + BitVec.ofNat 32 i * 0x9E3779B9
  (x0, x.2.rotateLeft rot ^^^ x0)

/-- Draw n of a sample. -/
def shaker (seed : BitVec 64) (index : BitVec 32) (epoch : BitVec 8) (n : Nat) : BitVec 32 × BitVec 32 :=
  let x1 : BitVec 32 := (epoch.zeroExtend 32 <<< 16) ||| BitVec.ofNat 32 n
  [0, 1, 2, 3].foldl (fun x i => shakerRound (seed.extractLsb' 0 32) (seed.extractLsb' 32 32) i x) (index, x1)

/-- (x mod (2J + 1)) − J. -/
def drawn (x : BitVec 32) (j : Nat) : Int := (x.toNat % (2 * j + 1) : Int) - j

/-- (256 + a) × u / 256 + o, rounded ties-to-even and limited to 0-255. -/
def gained (a o : Int) (u : Nat) : Nat :=
  let n := (256 + a) * u + 256 * o
  let q := n / 256
  let r := n % 256
  let y := if 128 < r ∨ (r = 128 ∧ q % 2 = 1) then q + 1 else q
  (max 0 (min 255 y)).toNat

/-- Fields of INK_Qq_AUG. -/
def Queue.pad (x : Queue) : Nat := fld x.augCfg 24 8
def Queue.jitter (x : Queue) : Nat := fld x.augCfg 16 8
def Queue.gain (x : Queue) : Nat := fld x.augCfg 8 7
def Queue.offset (x : Queue) : Nat := fld x.augCfg 0 7

/-- Pixel (i, j) of a plane of width w. -/
def pixel (w : Nat) (p : List Byte) (i j : Nat) : Nat := (p.getD (i * w + j) 0).toNat

/-- A base plane of w × h after the augmentation (R487). -/
def augment (x : Queue) (d0 d1 : BitVec 32 × BitVec 32) (w h : Nat) (p : List Byte) : List Nat :=
  let dx := drawn d0.1 x.jitter
  let dy := drawn d0.2 x.jitter
  let a := drawn d1.1 x.gain
  let o := drawn d1.2 x.offset
  (List.range (w * h)).map (fun k =>
    let i : Int := (k / w : Nat) + dy
    let j : Int := (k % w : Nat) + dx
    gained a o (if 0 ≤ i ∧ i < h ∧ 0 ≤ j ∧ j < w then pixel w p i.toNat j.toNat else x.pad))

/-! ## Planes (R472, R476, R481) -/

/-- A value of d bits as U8 (R472). -/
def toU8 (d x : Nat) : Nat := if 8 < d then min 255 ((x + 2 ^ (d - 9)) / 2 ^ (d - 8)) else x

/-- Each c × c block of a plane of width w and height h as its mean (R481). -/
def coarsen (c w h : Nat) (p : List Byte) : List Byte :=
  (List.range ((w / c) * (h / c))).map (fun k =>
    let i := k / (w / c) * c
    let j := k % (w / c) * c
    let sum := ((List.range (c * c)).map (fun m => pixel w p (i + m / c) (j + m % c))).sum
    BitVec.ofNat 8 ((sum + c * c / 2) / (c * c)))

/-- A row of w values. -/
def fitRow (w : Nat) (row : List Byte) : List Byte := (List.range w).map (fun k => row.getD k 0)

/-- Values as N9 nonets, each less the zero point (R54, R472). -/
def zeroed (z : Nat) (us : List Nat) : List Nonet := us.map (fun (u : Nat) => BitVec.ofInt 9 ((u : Int) - z))

/-- A rectangle of a plane of width w, in raster order. -/
def crop (w : Nat) (p : List Byte) (r : Nat × Nat × Nat × Nat) : List Nat :=
  (List.range (r.2.2.1 * r.2.2.2)).map (fun k => pixel w p (r.2.1 + k / r.2.2.1) (r.1 + k % r.2.2.1))

/-! ## Cutting a sample (R481-R485) -/

/-- Change the sample of a job in queue n. -/
def modSample (n job : Nat) (f : Sample → Sample) (s : State) : State :=
  let x := s.queue n
  s.setQueue n { x with samples := x.samples.map (fun y => if y.job = some job then f y else y) }

/-- The sample of a job in queue n. -/
def State.sampleFor (s : State) (n job : Nat) : Option Sample := (s.queue n).samples.find? (fun y => y.job == some job)

/-- A sample of queue n counts as complete: it is, its job has failed or gone, or its descriptor will get no job (R477,
R492). -/
def State.sampleDone (s : State) (n : Nat) (y : Sample) : Bool :=
  y.complete || (match y.job with
    | some id => !((s.job? id).any (fun j => j.result.isNone))
    | none => !s.awaits (s.queue n) y)

/-- The oldest sample of queue n that is not complete, with its job. -/
def State.cutting (s : State) (n : Nat) : Option (Sample × Job) :=
  ((s.queue n).samples.find? (fun y => !s.sampleDone n y)).bind (fun y =>
    (y.job.bind s.job?).map (fun j => (y, j)))

/-- Intake serves a tenant: before it serves another than the last one, its stores are zeroed (R163). -/
def serveInk (t : Nat) (s : State) : State :=
  if s.ink.lastTenant = some t then s else { s with ink := { s.ink with lastTenant := some t, store := [] } }

/-- What Intake's stores hold of its work for a tenant. -/
def storeInk (t : Nat) (rows : List (List Byte)) (s : State) : State :=
  let s := serveInk t s
  { s with ink := { s.ink with store := rows } }

/-- Intake serves a queue: FRONT is on and the queue is enabled. -/
def State.inkServes (s : State) (n : Nat) : Bool := s.on domFRONT && (s.queue n).enable

/-- The list buffer of the sample before one (R483, R484). -/
def Queue.listRegion (x : Queue) (index : BitVec 32) : Nat × Nat :=
  (72 * (x.roiBase.toNat + 16 * ((index - 1).toNat % 2)), 72 * 16)

/-- The rectangles of a list buffer, if it names the sample before this one (R483, R484). -/
def State.regionList (s : State) (x : Queue) (index : BitVec 32) : Option (List (Nat × Nat × Nat × Nat)) :=
  let prev := index - 1
  let bs := (s.readTen x.tenant (x.listRegion index).1 (x.listRegion index).2).getD []
  if le bs 0 4 = prev.toNat then
    some ((List.range (min 64 (le bs 4 1))).map (fun r =>
      let o := 72 + 16 * r
      (le bs o 4, le bs (o + 4) 4, le bs (o + 8) 4, le bs (o + 12) 4)))
  else none

/-- The regions that the cut of a sample reads: its list buffer, where it has a region budget. -/
def Queue.cutReads (x : Queue) (y : Sample) : List (Nat × Nat) := if y.budget = 0 then [] else [x.listRegion x.count]

/-- Intake begins to cut the oldest sample of a queue of kind 4 or 5: it takes its index and the region list
(R484, R485). A claimed line of the list is waited for (R519). -/
def cutStart (n : Nat) (s : State) : State :=
  let x := s.queue n
  match s.cutting n with
  | none => s
  | some (y, j) =>
    if !s.inkServes n ∨ x.kind < 4 ∨ y.cut ∨ s.claimedAny x.tenant (x.cutReads y) then s
    else match readRegions inkBlock j.id x.tenant (x.cutReads y) (serveInk x.tenant s) with
      | (false, s) => s
      | (true, s) =>
        let list := if y.budget = 0 then some [] else s.regionList x x.count
        let s := s.setQueue n { s.queue n with count := x.count + 1 }
        let s := modSample n j.id (fun y => { y with
          cut := true, index := x.count, roiStale := list.isNone, rects := list.getD [] }) s
        if list.isNone then raise (176 + n) s else s

/-- SAMPLE_CUT_START (R484). -/
def execSampleCutStart (n : Fin 16) (s : State) : Result := .next (cutStart n s)

/-- The rows of a line slot, as U8 values (R449, R472). -/
def Port.slotRows (x : Port) (bs : List Byte) : List (List Byte) :=
  (List.range x.rows).map (fun r => (List.range x.ws).map (fun k =>
    BitVec.ofNat 8 (toU8 x.depth (le bs (72 + x.b * (r * x.ws + k)) x.b % 2 ^ x.depth))))

/-- Intake consumes the next line of the ring into the sample it cuts, and RD advances (R450, R481). -/
def consumeLine (n : Nat) (s : State) : State :=
  let x := s.queue n
  let p := s.port x.port
  match s.cutting n with
  | none => s
  | some (y, j) =>
    let t := p.tenant.toNat
    let slot := (p.slotAddr p.rd, p.slotBytes)
    if !s.inkServes n ∨ x.kind ≠ 4 ∨ !y.cut ∨ y.lines ≤ y.taken ∨ p.fill = 0 ∨ p.hostRead ∨ s.claimedAny t [slot] then s
    else match readRegions inkBlock j.id t [slot] s with
      | (false, s) => s.setPort x.port { s.port x.port with rd := p.rd + 1 }
      | (true, s) =>
        let bs := (s.readTen t slot.1 slot.2).getD []
        let seam := le bs 12 2 % 2 == 1
        let rows := (List.range j.srcDims.2.2).map (fun k => fitRow j.srcDims.1 ((p.slotRows bs).getD k []))
        let s := storeInk x.tenant rows (s.setPort x.port { p with rd := p.rd + 1 })
        let s := modSample n j.id (fun y => { y with
          taken := y.taken + 1, seam := y.seam || seam
          firstSeq := if y.taken = 0 then BitVec.ofNat 64 (le bs 0 8) else y.firstSeq
          planes := rows.mapIdx (fun k row => y.planes.getD k [] ++ row) }) s
        s.modJob j.id (fun j => { j with seam := j.seam || seam })

/-- RING_LINE_CONSUME (R481). -/
def execRingLineConsume (n : Fin 16) (s : State) : Result := .next (consumeLine n s)

/-- The three planes of a picture slot as U8 values, chroma replicated to full resolution (R472, R482, R539). -/
def picturePlanes (w h b d : Nat) (bs : List Byte) : List (List Byte) :=
  let cw := w / 2
  let ch := h / 2
  let yOff := 72
  let cbOff := yOff + 72 * ceilDiv (w * h * b) 72
  let crOff := cbOff + 72 * ceilDiv (cw * ch * b) 72
  let value (off : Nat) : Byte := BitVec.ofNat 8 (toU8 d (le bs off b % 2 ^ d))
  let luma := (List.range (w * h)).map (fun k => value (yOff + b * k))
  let chroma (off : Nat) : List Byte := (List.range (w * h)).map (fun k =>
    value (off + b * (min (k / w / 2) (ch - 1) * cw + min (k % w / 2) (cw - 1))))
  [luma, chroma cbOff, chroma crOff]

/-- The address and bytes of a slot of a stream's output ring (R543). -/
def Stream.slotAt (x : Stream) (k : BitVec 32) : Nat × Nat :=
  (72 * (x.out.toNat + k.toNat % x.outSlots.toNat * (1 + x.p)), 72 * (1 + x.p))

/-- Intake takes the oldest picture of the stream that feeds the queue (R482). -/
def takePicture (n : Nat) (s : State) : State :=
  let x := s.queue n
  match s.cutting n, s.feeder n with
  | some (y, j), some k =>
    let c := s.stream k
    let slot := c.slotAt c.outRd
    if !s.inkServes n ∨ x.kind ≠ 5 ∨ !y.cut ∨ y.taken ≠ 0 ∨ c.outWr = c.outRd ∨ s.claimedAny c.tenant [slot] then s
    else match readRegions inkBlock j.id c.tenant [slot] s with
      | (false, s) => s.setStream k { s.stream k with outRd := c.outRd + 1 }
      | (true, s) =>
        let bs := (s.readTen c.tenant slot.1 slot.2).getD []
        let w := le bs 4 2
        let h := le bs 6 2
        let planes := picturePlanes w h c.b (le bs 8 1) bs
        let s := storeInk x.tenant planes (s.setStream k { c with outRd := c.outRd + 1 })
        modSample n j.id (fun y => { y with
          taken := 1, width := w, height := h
          firstSeq := (BitVec.ofNat 32 (le bs 0 4)).signExtend 64
          planes := planes }) s
  | _, _ => s

/-- PICTURE_TAKE (R482). -/
def execPictureTake (n : Fin 16) (s : State) : Result := .next (takePicture n s)

/-! ## Decoding and completing a sample (R470-R479, R488, R489) -/

/-- The decoded planes of a sample of kind 1-3 from the input bytes, and the input bytes read; or how the data fails
(R470, R471, R475). A JPEG whose frame is no longer the one that was checked fails there (log 147). -/
def decodePlanes (kind : Nat) (m : Nat × Nat × Nat) (bs : List Byte) : Except DecodeFault (List (List Byte) × Nat) :=
  let w := m.1
  let h := m.2.1
  let n := 16 + m.2.2 * w * h
  if kind = 1 then
    if (jpegDims bs).any (fun d => (d.w, d.h, d.planes) == m) then jpegDecode bs else .error (0, 1)
  else if kind = 2 then (t6Decode w h 16 (bs.drop 16)).map (fun p => ([p.1], p.2))
  else if bs.length < n then .error (bs.length, 0)
  else .ok ((List.range m.2.2).map (fun p => (bs.drop (16 + p * w * h)).take (w * h)), n)

/-- Image data fails: the job fails and the sample counts as complete (R475, R477). -/
def decodeFail (n id : Nat) (f : DecodeFault) (s : State) : State :=
  let f : Finding := { detector := 0x0A, level := lvlJob, location := n, info0 := f.1, info1 := f.2 + 1 }
  raise (160 + n) (fireJob f id (modSample n id (fun y => { y with complete := true, failed := true, planes := [] }) s))

/-- Intake decodes the input of job id, which missed the cache, for queue n of kind 1-3. -/
def State.decodes (s : State) (n : Nat) (y : Sample) (j : Job) : Bool :=
  s.inkServes n && decide (1 ≤ (s.queue n).kind) && decide ((s.queue n).kind < 4) && !s.sampleDone n y && !j.srcHit
    && s.linkOk j.tenant

/-- The data of a stored image fails, if it does (R475). -/
def storedFail (n id : Nat) (input : List Byte) (s : State) : State :=
  match s.sampleFor n id, s.job? id with
  | some y, some j =>
    if s.decodes n y j then
      match decodePlanes (s.queue n).kind j.srcDims (input.take (dInLen j.desc)) with
      | .error f =>
        decodeFail n id f (emitReads j.tenant (dInAddr j.desc) (min (dInLen j.desc) (f.1 + 1)) (serveInk (s.queue n).tenant s))
      | .ok _ => s
    else s
  | _, _ => s

/-- DECODE_FAIL (R475). -/
def execDecodeFail (n : Fin 16) (j : Nat) (input : List Byte) (s : State) : Result := .next (storedFail n j input s)

/-- The lines of the U8 planes in a cache slot: each plane starts on a line, one value a nonet (log 79). -/
def slotPlaneLines (w h : Nat) : Nat := ceilDiv (w * h) 64

/-- The region of the planes of w × h in a cache slot. -/
def Queue.planeRegion (x : Queue) (slot : Nat) (m : Nat × Nat × Nat) : Nat × Nat :=
  (72 * (x.slotLine slot + 1), 72 * (m.2.2 * slotPlaneLines m.1 m.2.1))

/-- The planes kept in a cache slot. -/
def State.cachedPlanes (s : State) (x : Queue) (slot : Nat) (m : Nat × Nat × Nat) : List (List Byte) :=
  (List.range m.2.2).map (fun p =>
    let line := x.slotLine slot + 1 + p * slotPlaneLines m.1 m.2.1
    let bs := (s.readTen x.tenant (72 * line) (72 * slotPlaneLines m.1 m.2.1)).getD []
    (List.range (m.1 * m.2.1)).map (fun k => (packedNonet bs k).truncate 8))

/-- The lines that the fill of a cache slot writes for a job: none where the planes exceed the slot (R489). -/
def Queue.fillLines (x : Queue) (j : Job) : Nat :=
  let n := 1 + j.srcDims.2.2 * slotPlaneLines j.srcDims.1 j.srcDims.2.1
  if x.caches ∧ n ≤ x.cacheLines.toNat then n else 0

/-- Fill the cache slot of a miss, unless the planes exceed it (R488, R489). -/
def fillCache (n : Nat) (j : Job) (ps : List (List Byte)) (s : State) : State :=
  let x := s.queue n
  let (w, h, p) := j.srcDims
  if x.fillLines j = 0 then s
  else
    let slot := x.slotOf j.desc
    let first := x.slotLine slot
    let tag : CacheTag := { index := BitVec.ofNat 32 (dIndex j.desc), len := BitVec.ofNat 32 (dInLen j.desc)
                            width := w, height := h, planes := p }
    let s := forEach ps.zipIdx (fun e s =>
      writeLinesFor j.id x.tenant (first + 1 + e.2 * slotPlaneLines w h) (e.1.map (fun b => b.zeroExtend 9)) s) s
    let s := writeForJob j.id x.tenant (72 * first) tag.line s
    s.setQueue n { s.queue n with tags := (slot, tag) :: x.tags.filter (fun e => e.1 != slot) }

/-- A rectangle of the list can be cropped from a sample of W × H (R484). -/
def rectOk (w h : Nat) (r : Nat × Nat × Nat × Nat) : Bool :=
  decide (r.2.2.1 ≠ 0) && decide (r.2.2.2 ≠ 0) && decide (r.1 + r.2.2.1 ≤ w) && decide (r.2.1 + r.2.2.2 ≤ h)

/-- The crops that fit in G lines, in list order up to the first that does not (R484, log 78). -/
def fitting (planes w h : Nat) : Nat → List (Nat × Nat × Nat × Nat) → List (Nat × Nat × Nat × Nat)
  | _, [] => []
  | room, r :: rest =>
    if !rectOk w h r then fitting planes w h room rest
    else
      let need := planes * ceilDiv (r.2.2.1 * r.2.2.2) 64
      if need ≤ room then r :: fitting planes w h (room - need) rest else []

/-- The nonets of the crops, each plane filling whole lines. -/
def cropNonets (z w : Nat) (ps : List (List Byte)) (rs : List (Nat × Nat × Nat × Nat)) : List Nonet :=
  rs.flatMap (fun r => ps.flatMap (fun p => wholeLines (zeroed z (crop w p r))))

/-- The header line of a sample (Table 16-5; the draws are given with or without augmentation, log 77). -/
def sampleHeader (x : Queue) (y : Sample) (planes w h lines used : Nat) (cached dropped : Bool) : List Byte :=
  let d0 := shaker x.seed y.index y.epoch 0
  let d1 := shaker x.seed y.index y.epoch 1
  let flags := (if cached then 1 else 0) + (if x.aug then 2 else 0) + (if y.seam then 4 else 0)
    + (if y.roiStale then 8 else 0) + (if dropped then 16 else 0)
  leBytes 4 y.index.toNat ++ leBytes 1 y.epoch.toNat ++ leBytes 1 planes ++ leBytes 1 x.c ++ leBytes 1 flags
    ++ leBytes 4 w ++ leBytes 4 h ++ leBytes 4 lines ++ leBytes 1 used ++ leBytes 3 0
    ++ leBytes 8 y.firstSeq.toNat ++ leBytes 4 d0.1.toNat ++ leBytes 4 d0.2.toNat ++ leBytes 4 d1.1.toNat
    ++ leBytes 4 d1.2.toNat ++ List.replicate 24 0

/-- Write a sample of its planes: the planes and the crops, within the sample region, then the header line (R474, R476,
R479, R484, R487). -/
def writeSample (n : Nat) (j : Job) (y : Sample) (ps : List (List Byte)) (cached : Bool) (s : State) : State :=
  let x := s.queue n
  let w := if x.kind < 4 then j.srcDims.1 else y.width
  let h := if x.kind < 4 then j.srcDims.2.1 else y.height
  let z := dZero j.desc
  let line := dParam j.desc
  let wc := w / x.c
  let hc := h / x.c
  let base := ps.map (coarsen x.c w h)
  let d0 := shaker x.seed y.index y.epoch 0
  let d1 := shaker x.seed y.index y.epoch 1
  let out := base.map (fun p => if x.aug then augment x d0 d1 wc hc p else p.map (·.toNat))
  let crops := fitting ps.length w h y.budget y.rects
  let body := out.flatMap (fun p => wholeLines (zeroed z p)) ++ cropNonets z w ps crops
  let s := writeLinesFor j.id j.tenant (line + 1) (body.take (64 * (y.z - 1))) s
  writeForJob j.id j.tenant (72 * line)
    (sampleHeader x y ps.length wc hc (ceilDiv (wc * hc) 64) crops.length cached (decide (crops.length < y.rects.length))) s

/-- The regions that a sample's completion writes: the sample's own, and its cache slot where it is filled. -/
def State.sampleWrites (s : State) (n : Nat) (j : Job) (y : Sample) : List (Nat × Nat) :=
  let x := s.queue n
  let fill := if j.srcHit then 0 else x.fillLines j
  (72 * dParam j.desc, 72 * y.z) :: (if fill = 0 then [] else [(72 * x.slotLine (x.slotOf j.desc), 72 * fill)])

/-- A sample completes from its planes: a region without a valid entry fails the job (R156, R479, R488). -/
def finishSample (n : Nat) (j : Job) (y : Sample) (ps : List (List Byte)) (cached : Bool) (s : State) : State :=
  match (s.sampleWrites n j y).find? (fun r => !s.mapped j.tenant r.1 r.2) with
  | some r => fireJob (refusedFinding inkBlock r.1) j.id s
  | none =>
    let s := storeInk j.tenant ps s
    let s := writeSample n j y ps cached (if cached then s else fillCache n j ps s)
    modSample n j.id (fun y => { y with complete := true, planes := [] }) s

/-- The sample of job id in queue n completes (R479): a stored image is decoded or comes from the cache, and one whose
data fails the job with it (R475); lines and pictures have all been taken. A claimed line is waited for (R519). -/
def sampleComplete (n id : Nat) (input : List Byte) (s : State) : State :=
  match s.sampleFor n id, s.job? id with
  | some y, some j =>
    let x := s.queue n
    if !s.inkServes n ∨ s.sampleDone n y ∨ s.claimedAny j.tenant (s.sampleWrites n j y) then s
    else if 4 ≤ x.kind then
      if y.cut ∧ y.taken = (if x.kind = 4 then y.lines else 1) then finishSample n j y y.planes false s else s
    else if j.srcHit then
      let region := x.planeRegion (x.slotOf j.desc) j.srcDims
      if s.claimedAny x.tenant [region] then s
      else match readRegions inkBlock id x.tenant [region] s with
        | (false, s) => s
        | (true, s) => finishSample n j y (s.cachedPlanes x (x.slotOf j.desc) j.srcDims) true s
    else if !s.decodes n y j then s
    else match decodePlanes x.kind j.srcDims (input.take (dInLen j.desc)) with
      | .error _ => storedFail n id input s
      | .ok (ps, used) => finishSample n j y ps false (emitReads j.tenant (dInAddr j.desc) used s)
  | _, _ => s

/-- SAMPLE_COMPLETE (R479). -/
def execSampleComplete (n : Fin 16) (j : Nat) (input : List Byte) (s : State) : Result :=
  .next (sampleComplete n j input s)

/-- The oldest sample of queue n goes forward once it is complete (R477, R478). -/
def sampleForward (n : Nat) (s : State) : State :=
  let x := s.queue n
  match x.samples with
  | [] => s
  | y :: rest =>
    if s.sampleDone n y then
      let s := s.setQueue n { x with samples := rest }
      match y.job with
      | some id => s.modJob id (fun j => { j with sampleDue := false })
      | none => s
    else s

/-- SAMPLE_FORWARD (R477). -/
def execSampleForward (n : Fin 16) (s : State) : Result := .next (sampleForward n s)

/-! ## Direct loads (R467, R592) -/

/-- A direct load completes: the converted tensor fills lines from src_param on (R467, R478, R592). A buffer whose
address or length is not aligned for its layout is read as it lies (R35 and R39 only bind the host, log 144). A claimed
line is waited for (R519). -/
def directLoad (id : Nat) (input : List Byte) (s : State) : State :=
  match s.job? id with
  | none => s
  | some j =>
    if !j.loadDue ∨ j.result.isSome ∨ !s.on domFRONT ∨ !s.linkOk j.tenant then s
    else match Fmt.ofCode (dInFmt j.desc) with
      | none => s
      | some f =>
        let ns := loadNonets f (dInWide j.desc) (dZero j.desc) (input.take (dInLen j.desc))
        let region := (72 * dParam j.desc, 72 * ceilDiv ns.length 64)
        if s.claimedAny j.tenant [region] then s
        else
          let s := emitReads j.tenant (dInAddr j.desc) (dInLen j.desc) s
          if !s.mapped j.tenant region.1 region.2 then fireJob (refusedFinding inkBlock region.1) id s
          else (writeLinesFor id j.tenant (dParam j.desc) ns s).modJob id (fun j => { j with loadDue := false })

/-- DIRECT_LOAD_DONE (R478). -/
def execDirectLoadDone (j : Nat) (input : List Byte) (s : State) : Result := .next (directLoad j input s)

/-- A read of INK_Qq_HITS: the counts, then 0 (R489). -/
def inkHits (n : Nat) (s : State) : Reg × State :=
  let x := s.queue n
  (pack [(16, x.hits.toNat), (0, x.misses.toNat)], s.setQueue n { x with hits := 0, misses := 0 })

/-- INK_HITS_READ (R489). -/
def execInkHitsRead (q : Requester) (n : Fin 16) (s : State) : Result :=
  .next (regRead q (.blk (baseINK n + 0x2C)) (inkHits n) s)

end Sys2Proof.Machine
end

