-- ==== Sys2Proof/Machine/Motion.lean ====
section
/-!
DEFINITION. The motion search of the encoder (R538, Table 18-5) and the QP of a CTB (R536). Which blocks are searched, a
vector's bits, λ, the pyramid's filter and the samples between samples are the encoder's or the standard's: free values
(log 24, log 151).
-/
namespace Sys2Proof.Machine

/-- A motion vector in quarter luma samples: x, y. -/
abbrev Vec := Int × Int

/-- The luma samples of a picture of width w and height h, in raster order. -/
structure Luma where
  w  : Nat
  h  : Nat
  samples : List Nat

/-- The sample at (x, y); outside the picture, the nearest one. -/
def Luma.full (p : Luma) (x y : Int) : Nat :=
  p.samples.getD ((min (max y 0) ((p.h : Int) - 1)).toNat * p.w + (min (max x 0) ((p.w : Int) - 1)).toNat) 0

/-- The sample at a position in quarter samples. -/
def Luma.quarter (p : Luma) (x y : Int) : Nat :=
  if x % 4 = 0 ∧ y % 4 = 0 then p.full (x / 4) (y / 4) else Config.fraction p.w p.h p.samples (x, y)

/-- Level l of the pyramid of a picture: 0 full, 1 half and 2 quarter resolution. -/
def Luma.level (p : Luma) (l : Nat) : Luma :=
  if l = 0 then p else { w := p.w / 2 ^ l, h := p.h / 2 ^ l, samples := Config.pyramid l p.w p.h p.samples }

/-- A block that is predicted: its place and size in luma samples, and its merge and AMVP candidates. -/
structure PredBlock where
  x     : Nat
  y     : Nat
  w     : Nat
  h     : Nat
  cands : List Vec

/-- The sum of absolute differences of a block at level l for a vector in quarter samples of that level. -/
def sad (cur ref : Luma) (l : Nat) (b : PredBlock) (v : Vec) : Nat :=
  let w := max 1 (b.w / 2 ^ l)
  let h := max 1 (b.h / 2 ^ l)
  ((List.range (w * h)).map (fun k =>
    let x : Int := (b.x / 2 ^ l + k % w : Nat)
    let y : Int := (b.y / 2 ^ l + k / w : Nat)
    ((cur.full x y : Int) - ref.quarter (4 * x + v.1) (4 * y + v.2)).natAbs)).sum

/-- The cost of a vector: SAD plus λ(qp) times the vector's bits (R538). At level l of the pyramid the vector stands for
2^l times itself. -/
def vecCost (cur ref : Luma) (l qp : Nat) (b : PredBlock) (v : Vec) : Rat :=
  sad cur ref l b v + Config.lambda qp * Config.vectorBits b.cands (v.1 * 2 ^ l, v.2 * 2 ^ l)

/-- u is picked over v: the lower cost, and at equal cost the lower component, x first (R538). -/
def pickedOver (cost : Vec → Rat) (u v : Vec) : Bool :=
  decide (cost u < cost v) || (decide (cost u = cost v) && (decide (u.1 < v.1) || (decide (u.1 = v.1) && decide (u.2 < v.2))))

/-- The vector picked of a list, the zero vector of an empty one. -/
def bestVec (cost : Vec → Rat) (vs : List Vec) : Vec :=
  match vs with
  | [] => (0, 0)
  | v :: vs => vs.foldl (fun a b => if pickedOver cost b a then b else a) v

/-- The n vectors of a list that are picked first. -/
def bestVecs (cost : Vec → Rat) : Nat → List Vec → List Vec
  | 0, _ => []
  | n + 1, vs =>
    if vs.isEmpty then []
    else
      let v := bestVec cost vs
      v :: bestVecs cost n (vs.filter (fun u => decide (u ≠ v)))

/-- The vectors at most r steps from one, in each component. -/
def around (r step : Nat) (v : Vec) : List Vec :=
  (List.range (2 * r + 1)).flatMap (fun i => (List.range (2 * r + 1)).map (fun j =>
    (v.1 + step * ((i : Int) - r), v.2 + step * ((j : Int) - r))))

/-- Half and then quarter samples around a vector. -/
def refineFraction (cost : Vec → Rat) (v : Vec) : Vec := bestVec cost (around 1 1 (bestVec cost (around 1 2 v)))

/-- Survey (mode 0): a full search of ±32 at quarter resolution, ±2 around the four best at half resolution, ±2 at full
resolution, and then half and quarter samples (Table 18-5). -/
def surveySearch (cur ref : Luma) (qp : Nat) (b : PredBlock) : Vec :=
  let cost (l : Nat) : Vec → Rat := vecCost (cur.level l) (ref.level l) l qp b
  let twice (v : Vec) : Vec := (2 * v.1, 2 * v.2)
  let best := bestVecs (cost 2) 4 (around 32 4 (0, 0))
  let half := bestVec (cost 1) (best.flatMap (fun v => around 2 4 (twice v)))
  refineFraction (cost 0) (bestVec (cost 0) (around 2 4 (twice half)))

/-- Candidate (mode 1): the merge and AMVP candidates, the zero vector and gmv, ±8 integer samples around the best of
them, and then half and quarter samples (Table 18-5). -/
def candidateSearch (cur ref : Luma) (gmv : Vec) (qp : Nat) (b : PredBlock) : Vec :=
  let cost := vecCost cur ref 0 qp b
  refineFraction cost (bestVec cost (around 8 4 (bestVec cost (b.cands ++ [(0, 0), gmv]))))

/-- The vector of a block under CFG.search (R538). -/
def motionSearch (candidate : Bool) (cur ref : Luma) (gmv : Vec) (qp : Nat) (b : PredBlock) : Vec :=
  if candidate then candidateSearch cur ref gmv qp b else surveySearch cur ref qp b

/-! ## The QP of a CTB (R536) -/

/-- A region of an encode request: x, y, w and h in CTBs, and the offset. -/
def roiOf (w0 w1 : Word) : (Nat × Nat × Nat × Nat) × Int :=
  ((fld w0 0 9, fld w0 9 9, fld w0 18 9, fld w0 27 9), (fldv w1 0 6).toInt)

/-- CTBs of a picture, across or down. -/
def ctbs (n : Nat) : Nat := ceilDiv n 64

/-- A region that is not skipped (R536). -/
def roiUsed (across down : Nat) (r : (Nat × Nat × Nat × Nat) × Int) : Bool :=
  decide (r.1.2.2.1 ≠ 0) && decide (r.1.2.2.2 ≠ 0) && decide (-12 ≤ r.2) && decide (r.2 ≤ 12)
    && decide (r.1.1 + r.1.2.2.1 ≤ across) && decide (r.1.2.1 + r.1.2.2.2 ≤ down)

/-- A region contains CTB (x, y). -/
def roiHolds (x y : Nat) (r : (Nat × Nat × Nat × Nat) × Int) : Bool :=
  decide (r.1.1 ≤ x) && decide (x < r.1.1 + r.1.2.2.1) && decide (r.1.2.1 ≤ y) && decide (y < r.1.2.1 + r.1.2.2.2)

/-- The QP of CTB (x, y): qp plus the offset of the last region in list order that contains it, clamped to 0-51. -/
def ctbQp (qp across down : Nat) (rs : List ((Nat × Nat × Nat × Nat) × Int)) (x y : Nat) : Nat :=
  match ((rs.filter (roiUsed across down)).reverse.find? (roiHolds x y)) with
  | none => qp
  | some r => (max 0 (min 51 ((qp : Int) + r.2))).toNat

/-- The regions of the words of a list. -/
def roiList (ws : List Word) : List ((Nat × Nat × Nat × Nat) × Int) :=
  (List.range (ws.length / 2)).map (fun k => roiOf (ws.getD (2 * k) 0) (ws.getD (2 * k + 1) 0))

/-- The QP of every CTB of a picture of w × h, in raster order. -/
def qpMap (qp w h : Nat) (ws : List Word) : List Nat :=
  (List.range (ctbs w * ctbs h)).map (fun k =>
    ctbQp qp (ctbs w) (ctbs h) (roiList ws) (k % ctbs w) (k / ctbs w))

end Sys2Proof.Machine
end

