-- ==== Sys2Proof/Machine/Jobs.lean ====
section
/-!
DEFINITION. The commands of jobs and the scheduler (13), with JOB and FENCED_ADMIT of the rings.
-/
namespace Sys2Proof.Machine

/-! ## Admission (Table 13-3) -/

/-- A descriptor with a cached source hits or misses (R489). -/
def countLookup (d : List Byte) (s : State) : State :=
  let q := dQueue d
  let x := s.queue q
  if 0 < dKind d ∧ dKind d < 4 ∧ x.cache then
    if (s.hit d).isSome then s.setQueue q { x with hits := satInc x.hits }
    else s.setQueue q { x with misses := satInc x.misses }
  else s

/-- Steps 2-4 and what follows, for a descriptor whose source and auxiliary input passed (R386). -/
def manifestChecks (t r : Nat) (d : Inflight) (m : Option Dims) (s : State) : State :=
  let reject (c : Cpl) (s : State) : State := decide1 t r d.seq (.decided c) s
  match s.readManifest t (dManifest d.desc) with
  | none => reject (cpl stFormat 8) s
  | some p =>
    match readChecks schBlock t r d p.reads s with
    | (false, s) => s
    | (true, s) =>
      if p.bad then reject (cpl stLimit 7) s
      else match outputCheck d.desc p.man with
        | some c => reject c s
        | none =>
          let hit := decide (0 < dKind d.desc) && (s.hit d.desc).isSome
          spanCheck { newJob t r d p.man with
            srcDims := m.elim (0, 0, 0) (fun m => (m.w, m.h, m.planes)), srcHit := hit } s

/-- Check one JOB descriptor in the order of Table 13-3; Intake's and Paradiddle's checks come after step 1
(R386, R473, R506; their order is log 59). `hdr` is what Intake read of the input buffer. -/
def checkJob (t r : Nat) (d : Inflight) (hdr : List Byte) (s : State) : State :=
  let reject (c : Cpl) (s : State) : State := decide1 t r d.seq (.decided c) s
  match badByte d.seq d.desc with
  | some b => reject (cpl stFormat b) s
  | none =>
    match readChecks inkBlock t r d (s.tagReads t d.desc) s with
    | (false, s) => s
    | (true, s) =>
      let c := s.sourceCheck t d.desc hdr
      let s := emitReads t (dInAddr d.desc) (s.headerBytes t d.desc) s
      match c with
      | .inl c => reject c s
      | .inr m =>
        let s := countLookup d.desc s
        match s.auxCheck t d.desc m with
        | some c => reject c s
        | none => manifestChecks t r d m s

/-- The checks of a descriptor wait: for the link, where they read the input buffer, and for a claimed line of what they
read of device memory (R130, R147, R519). -/
def State.checkWaits (s : State) (t : Nat) (d : List Byte) : Bool :=
  (s.headerBytes t d != 0 && !s.linkOk t)
    || (!s.mem.claims.isEmpty && (s.claimedAny t (s.tagReads t d) || (match s.readManifest t (dManifest d) with
      | some p => s.claimedAny t (p.reads ++ p.man.chanReads)
      | none => false)))

/-- The bell core of tenant t checks descriptors: its firmware runs and the card admits (R109, R582, R583). -/
def State.checking (s : State) (t : Nat) : Bool := s.firmware (coreOf t) && !s.pwr.tripped && !s.flt.halted

/-- The oldest unchecked descriptor of SQ r is a JOB without fence: it is checked (R178, R182, R386). -/
def jobDescriptor (t r : Nat) (hdr : List Byte) (s : State) : State :=
  let x := s.ring t r
  match x.unchecked with
  | none => s
  | some d =>
    if le d.desc 0 1 ≠ 0 ∧ !fenced d.desc ∧ x.clearBefore d.seq ∧ s.checking t ∧ !s.checkWaits t d.desc then checkJob t r d hdr s else s

/-- JOB (R386). -/
def execJob (t : Fin 64) (r : Fin 8) (hdr : List Byte) (s : State) : Result := .next (jobDescriptor t r hdr s)

/-- The same for a descriptor with fence, once every descriptor before it has had its completion written (R179). -/
def fencedDescriptor (t r : Nat) (hdr : List Byte) (s : State) : State :=
  match (s.ring t r).inflight with
  | [] => s
  | d :: _ =>
    if d.st = .fetched ∧ le d.desc 0 1 ≠ 0 ∧ fenced d.desc ∧ s.checking t ∧ !s.checkWaits t d.desc then checkJob t r d hdr s else s

/-- FENCED_ADMIT (R179). -/
def execFencedAdmit (t : Fin 64) (r : Fin 8) (hdr : List Byte) (s : State) : Result :=
  .next (fencedDescriptor t r hdr s)

/-! ## Placing and the slice (R392-R398, R407) -/

/-- Serve jobs in order up to the first that is placed, or for which a rectangle is kept. -/
def placeOne : List Nat → State → Bool × State
  | [], s => (false, s)
  | id :: ids, s =>
    let t := placeJob id s
    if (t.job? id).map (fun j => (j.phase, j.kept)) = (s.job? id).map (fun j => (j.phase, j.kept)) then placeOne ids t
    else (true, t)

/-- Serve the waiting jobs from the first on, again after each that is placed, at most n times. -/
def placeRounds : Nat → State → State
  | 0, s => s
  | n + 1, s => match placeOne s.order s with
    | (true, s) => placeRounds n s
    | (false, s) => s

/-- Serve the waiting jobs in order until none can be placed; each changes at most twice (R397). -/
def placeAll (s : State) : State := placeRounds (2 * s.order.length + 1) s

/-- JOB_PLACE (R392, R397). -/
def execJobPlace (s : State) : Result := .next (placeAll s)

/-- Ticks in 10 ms. -/
def starveTicks : Nat := 2500000

/-- A job has waited 10 ms since it was first passed over (R398). -/
def starveTimeout (j : Nat) (s : State) : State :=
  match s.job? j with
  | some x => if x.queued ∧ x.passedAt.any (fun p => decide (p + starveTicks ≤ s.now)) then
      s.modJob j (fun x => { x with starving := true }) else s
  | none => s

/-- STARVE_TIMEOUT (R398). -/
def execStarveTimeout (j : Nat) (s : State) : Result := .next (starveTimeout j s)

/-- The first passed-over job for which job k may be pre-empted under the slice rule, with its rectangle (R407). -/
def State.sliceClaim (s : State) (k : Job) : Option (Nat × Nat) :=
  s.order.findSome? (fun id =>
    match s.job? id with
    | none => none
    | some j =>
      if j.passedAt.isSome ∧ j.kept.isNone ∧ s.sliceYields j k ∧ s.placing j.tenant then
        match j.find (s.relaxedFree (fun h => s.yieldsTo j h || s.sliceYields j h) j) with
        | some o => if (s.holders (rect o j.man.width j.man.height)).contains k.id then some (id, o) else none
        | none => none
      else none)

/-- Job k has run its slice (R407). -/
def sliceExpire (k : Nat) (s : State) : State :=
  match s.job? k with
  | none => s
  | some x => match s.sliceClaim x with
    | some (id, o) => chooseVictims id o s
    | none => s

/-- SLICE_EXPIRE (R407). -/
def execSliceExpire (j : Nat) (s : State) : Result := .next (sliceExpire j s)

/-! ## Pre-emption (Table 13-4) -/

/-- Every tile of a victim has stopped, and no path carries its tag (step 4). -/
def State.quiet (s : State) (j : Job) : Bool :=
  j.tiles.all (fun i => !(s.tile i).running) && !s.grd.msgs.any (fun m => m.tag.toNat == j.tag)

/-- Step 4: the spill begins. -/
def spillStart (id : Nat) (s : State) : State :=
  match s.job? id with
  | some j =>
    if j.phase = .preempting ∧ s.quiet j ∧ j.tiles.any (fun i => (s.tile i).atBar) then
      s.modJob id (fun j => { j with phase := .spilling }) else s
  | none => s

/-- SPILL_START (R408). -/
def execSpillStart (j : Nat) (s : State) : Result := .next (spillStart j s)

/-- Step 6: the spill is written, the tiles are free and zeroed; a parity error in what it reads fails the job (R266,
R288, R355, R389, R409). -/
def spillComplete (id : Nat) (s : State) : State :=
  match s.job? id with
  | some j =>
    if j.phase = .spilling ∧ !s.claimedIn j.tenant (s.spillAddr j.tenant j.spillFirst) (72 * j.spillLines) then
      match j.tiles.findSome? (fun i => ((s.tile i).spillParity j.man.decls).map (fun b => (i, b))) with
      | some (i, b) => tileFault i 4 b s
      | none =>
        let seen := j.tiles.any (fun i => !(s.tile i).sat.isEmpty)
        let wins := j.tiles.map (fun i => (s.tile i).satWin)
        let s := forEach (List.range j.count) (spillTile j) s
        let s := chargeJob id s
        let s := forEach j.tiles (fun i s => s.setTile i
          { exclude := (s.tile i).exclude, recent := (s.tile i).recent, lastJob := some id }) s
        s.modJob id (fun j => { j with
          phase := .spilled, keptFor := none, passedAt := none, satSeen := j.satSeen || seen, satKept := wins })
    else s
  | none => s

/-- SPILL_COMPLETE (R409). -/
def execSpillComplete (j : Nat) (s : State) : Result := .next (spillComplete j s)

/-- A spilled job whose rectangle is kept for it and free is restored to it, tile for tile (R411). -/
def restoreJob (id : Nat) (s : State) : State :=
  match s.job? id with
  | some j =>
    if j.phase = .spilled ∧ j.kept = some j.origin ∧ j.tiles.all (s.tileFree id) ∧ s.placing j.tenant
        ∧ !s.claimedAny j.tenant (j.programs ++ s.slotRegions j) then
      match readRegions schBlock id j.tenant (j.programs ++ s.slotRegions j) (powerQuadrants j.tiles s) with
      | (false, s) => s
      | (true, s) =>
        let s := forEach (List.range j.count) (fun o s =>
          let i := j.tiles.getD o 0
          s.setTile i (restoredTile s j o (s.programWords j o) (s.tile i))) s
        s.modJob id (fun j => { j with
          phase := .running, kept := none, passedAt := none, starving := false, ran := 0 })
    else s
  | none => s

/-- JOB_RESTORE (R411). -/
def execJobRestore (j : Nat) (s : State) : Result := .next (restoreJob j s)

/-- 2 × I of bar time has passed on tile i (R400). -/
def barTimeout (i : Nat) (s : State) : State :=
  let x := s.tile i
  match x.job with
  | some j =>
    if x.running ∧ 2 * x.interval * 250 ≤ x.barTime then
      fireJob { detector := 0x05, level := lvlJob, location := i, info0 := x.interval, info1 := x.pc.toNat } j s
    else s
  | none => s

/-- BAR_TIMEOUT (R400). -/
def execBarTimeout (i : Fin 1024) (s : State) : Result := .next (barTimeout i s)

/-! ## The output stage and the end of a job (R394, R408) -/

/-- The writes of a job's output from its byte `off` on: the bytes within out_len (R177, R198, R201). -/
def writeOutput (j : Job) (off : Nat) (bs : List Byte) (s : State) : State :=
  let part := bs.take (dOutLen j.desc - off)
  emitWrites j.tenant (dOutAddr j.desc + off) part s

/-- Bytes of device memory that hold the output tensor. -/
def Manifest.outBytes (m : Manifest) : Nat := ceilDiv (9 * m.outNonets) 8

/-- Stage 1: the output tensor is converted and written (R394). It waits for a claimed line (R519). -/
def outputCopy (id : Nat) (s : State) : State :=
  match s.job? id with
  | some j =>
    if j.phase = .output ∧ j.man.outStage = 1 ∧ j.stageDue ∧ s.linkOk j.tenant
        ∧ !s.claimedIn j.tenant j.man.outRegion j.man.outBytes then
      match readRegions schBlock id j.tenant [(j.man.outRegion, j.man.outBytes)] s with
      | (false, s) => s
      | (true, s) =>
        match Fmt.ofCode j.man.outCardFmt, Fmt.ofCode (dOutFmt j.desc) with
        | some c, some h =>
          let bs := (s.readTen j.tenant j.man.outRegion j.man.outBytes).getD []
          let ns := (List.range j.man.outNonets).map (packedNonet bs)
          let o := outputBytes c h (dOutWide j.desc) (dZero j.desc) ns
          (writeOutput j 0 o.1 s).modJob id (fun j => { j with stageDue := false, outBytes := o.1.length, outSat := o.2 })
        | _, _ => s
    else s
  | none => s

/-- OUTPUT_STAGE_COPY (R394). -/
def execOutputStageCopy (j : Nat) (s : State) : Result := .next (outputCopy j s)

/-- A job whose output stage has finished completes (R394, R530). -/
def jobComplete (id : Nat) (s : State) : State :=
  match s.job? id with
  | some j =>
    if j.phase = .output ∧ !j.stageDue ∧ j.pictures = 0 then
      finishJob id stOk 0 s else s
  | none => s

/-- JOB_COMPLETE (R394). -/
def execJobComplete (j : Nat) (s : State) : Result := .next (jobComplete j s)

/-! ## Tile-µs (R395) -/

/-- USED_UPDATE (R395). -/
def execUsedUpdate (s : State) : Result :=
  .next (if s.on domMGT then forEach (s.sch.jobs.map (·.id)) chargeJob s else s)

/-- The SCH_ block of tenant t. -/
def baseSCH (t : Nat) : Nat := 0x900100 + 0x20 * t

/-- A read of SCH_TENt_USED_LO latches the high part (R395). -/
def usedLo (t : Nat) (s : State) : Reg × State :=
  let x := s.schTen t
  (x.used.extractLsb' 0 32, s.setSchTen t { x with usedHi := x.used.extractLsb' 32 32 })

/-- USED_READ (R395). -/
def execUsedRead (q : Requester) (t : Fin 64) (s : State) : Result :=
  .next (regRead q (.blk (baseSCH t + 0x18)) (usedLo t) s)

end Sys2Proof.Machine
end

