-- ==== Sys2Proof/Machine/TileTransfer.lean ====
section
/-!
DEFINITION. Transfers between device memory and a scratchpad, bar lines, stamps, SYS and the end of a tile
(R317-R320, R327-R330, R400-R408).
-/
namespace Sys2Proof.Machine

/-- The job a tile runs. -/
def State.jobOf (s : State) (i : Nat) : Option Job := (s.tile i).job.bind s.job?

/-- The tenant a tile runs for. -/
def State.tenantOf (s : State) (i : Nat) : Nat := (s.jobOf i).elim 0 (·.tenant)

/-! ## DLD and DST -/

/-- DLD and DST: checked at issue, then outstanding (R317, R318). -/
def transfer (store : Bool) (tenant job : Nat) (w : Word) (x : Tile) : TileOut :=
  let n := wFn w % 256 + 1
  let dl := (x.reg (wRs1 w)).toNat
  let sl := (x.reg (wRs2 w)).toNat
  if wRd w ≠ 0 ∨ wFn w / 256 ≠ 0 then .fault 0x11
  else if 4096 < sl + n then .fault 0x12
  else if 2 ^ 40 < 72 * (dl + n) then .fault 0x14
  else x.access [{ write := !store, addr := 64 * sl, n := 64 * n }]
    (if 8 ≤ x.xfers.length then .wait
     else .done { x with xfers := x.xfers ++
       [{ store := store, dline := dl, sline := sl, lines := n, pc := x.pc, tenant := tenant, job := job }] } [])

def execDld (i : Fin 1024) (s : State) : Result :=
  .next (tileRun 0x33 i (transfer false (s.tenantOf i) ((s.tile i).job.getD 0)) s)
def execDst (i : Fin 1024) (s : State) : Result :=
  .next (tileRun 0x34 i (transfer true (s.tenantOf i) ((s.tile i).job.getD 0)) s)

/-- The units whose request line is line l of tenant t: Cymbal's streams (R527), and 8 for the Damper
(R516). A unit whose domain is off accepts nothing (log 37). -/
def State.requestUnits (s : State) (t l : Nat) : List Nat :=
  let d := s.tokTen t
  let cym := if s.on domCYM then
      [0, 1, 2, 3, 4, 5, 6, 7].filter (fun n =>
        let x := s.stream n
        x.tenant == t && decide (x.req.toNat ≤ l) && decide (l < x.req.toNat + x.slots.toNat))
    else []
  let damp := if s.on domTOK ∧ d.dampReq.toNat ≤ l ∧ l < d.dampReq.toNat + d.slots.toNat then [8] else []
  cym ++ damp

/-- A store waits until every request line it writes has been accepted (R516, R519, R527). -/
def State.requestsDue (s : State) (t : Xfer) : Bool :=
  t.store && (List.range t.lines).any (fun k =>
    (s.requestUnits t.tenant (t.dline + k)).any (fun u => !t.accepted.contains (t.dline + k, u)))

/-- How a transfer ended. -/
inductive Moved where
  | all
  | refused          -- a line has no valid entry (R320)
  | beat (a : Nat)   -- a line holds an uncorrectable beat (R364)
  | parity (n : Nat) -- a nonet of the scratchpad has a parity error (R266)
deriving DecidableEq

/-- Move lines of a load into the scratchpad, in order, up to the first that fails (R320; the order is
log 38). -/
def moveIn (i : Nat) (t : Xfer) : Nat → Nat → State → Moved × State
  | 0, _, s => (.all, s)
  | n + 1, k, s =>
    let a := 72 * (t.dline + k)
    match s.readTen t.tenant a 72 with
    | none => (.refused, s)
    | some _ =>
      match readBeats (s.tenBeats t.tenant a 72) s with
      | (some b, s) => (.beat b, s)
      | (none, s) =>
        let ns := lineNonets ((s.readTen t.tenant a 72).getD [])
        moveIn i t n (k + 1) (s.setTile i ((s.tile i).setScratch (64 * (t.sline + k)) ns))

/-- Move lines of a store into device memory, in order, up to the first that fails (R266, R320; the order is log 38). -/
def moveOut (i : Nat) (t : Xfer) : Nat → Nat → State → Moved × State
  | 0, _, s => (.all, s)
  | n + 1, k, s =>
    let line := t.dline + k
    let a := 64 * (t.sline + k)
    match (s.tile i).parity [{ write := false, addr := a, n := 64 }] with
    | some b => (.parity b, s)
    | none =>
      if s.mapped t.tenant (72 * line) 72 then
        moveOut i t n (k + 1) (s.writeLines t.tenant line ((s.tile i).scratch a 64))
      else (.refused, s)

/-- A tile stops for its transfer with fault 0x14; the record is the tile's, or the beat's (R320, R364). -/
def transferFault (i : Nat) (t : Xfer) (o : Moved) (s : State) : State :=
  let mine := (s.tile i).job == some t.job
  match o with
  | .all => s
  | .refused => if mine then tileFault i 0x14 t.pc.toNat s else s
  | .parity b => if mine then tileFault i 4 b s else s
  | .beat a =>
    let s := if mine then s.setTile i { s.tile i with fault := 0x14, running := false } else s
    uncorrectableBeat a (fireJob (beatFinding lvlJob a) t.job s)

/-- Nonets of the scratchpad of tile i now hold a parity error (R266). -/
def flipParity (i : Nat) (ns : List Nat) (s : State) : State :=
  s.setTile i { s.tile i with badParity := (s.tile i).badParity ++ ns.filter (fun n =>
    decide (n < 262144) && !(s.tile i).badParity.contains n) }

/-- TRANSFER_COMPLETE: outstanding transfer n of tile i completes, where `ups` says what the stored bits of
some beats now report and `flips` which nonets of the scratchpad hold a parity error (log 139). It waits for the claimed
lines it reads or writes and for the requests it makes, so that a DWT 0 finds its lines written (R318-R320, R519). -/
def transferComplete (i n : Nat) (ups : List (Nat × Bool)) (flips : List Nat) (s : State) : State :=
  match (s.tile i).xfers[n]? with
  | none => s
  | some t =>
    if s.requestsDue t || s.claimedIn t.tenant (72 * t.dline) (72 * t.lines) then s
    else
      let s := flipParity i flips (s.setTile i { s.tile i with xfers := (s.tile i).xfers.eraseIdx n })
      let s := forEach ups (fun u s => upset (u.1 / 8 * 8) u.2 s) s
      let r := if t.store then moveOut i t t.lines 0 s else moveIn i t t.lines 0 s
      transferFault i t r.1 r.2

def execTransferComplete (i : Fin 1024) (n : Fin 8) (upsets : List (Nat × Bool)) (flips : List Nat) (s : State) :
    Result := .next (transferComplete i n upsets flips s)

/-- DWT (R319). -/
def dwt (w : Word) (x : Tile) : TileOut :=
  if 7 < wImm w ∨ wRd w ≠ 0 ∨ wRs1 w ≠ 0 then .fault 0x11
  else if wImm w < x.xfers.length then .wait
  else .done x []

def execDwt (i : Fin 1024) (s : State) : Result := .next (tileRun 0x35 i dwt s)

/-! ## Bar lines -/

/-- A line lies in a declaration's live set (R384). -/
def Decl.holds (d : Decl) (l : Nat) : Bool := d.ranges.any (fun r => decide (r.1 ≤ l) && decide (l < r.1 + r.2))

/-- Every lane of an open mailbox's region lies in the live set (R402). -/
def Decl.holdsBox (d : Decl) (b : Mailbox) : Bool :=
  decide (b.size = 0) || (List.range ((b.base.toNat + b.size.toNat - 1) / 8 - b.base.toNat / 8 + 1)).all
    (fun k => d.holds (b.base.toNat / 8 + k))

/-- The tile after a BAR: vector registers, accumulators and weights are 0; a line outside the live set reads
as 0 or as before, which is a free value (R327, R403). -/
def Tile.afterBar (x : Tile) (k : Nat) (d : Decl) (fresh : Nat) : Tile :=
  let kept (l : Nat) : Bool := d.holds l || Config.barKeepsLine fresh l
  { x with v := [], acc := [], w := []
           scr := x.scr.filter (fun e => kept (e.1 / 64))
           badParity := x.badParity.filter (fun b => kept (b / 64))
           decl := k, interval := d.interval, barTime := 0 }

/-- BAR (R327, R402). -/
def bar (decls : List Decl) (fresh : Nat) (w : Word) (x : Tile) : TileOut :=
  let k := wImm w % 65536
  if wImm w / 65536 ≠ 0 ∨ wRd w ≠ 0 ∨ wRs1 w ≠ 0 then .fault 0x11
  else match decls[k]? with
    | none => .fault 0x19
    | some d =>
      if x.mbox.any (fun e => !d.holdsBox e.2) then .fault 0x19
      else if !x.xfers.isEmpty then .wait
      else .done (x.afterBar k d fresh) []

/-- BAR, and the stop of the tile while a pre-emption request is set (Table 13-4, step 2). -/
def barStep (i : Nat) (s : State) : State :=
  let x := s.tile i
  if x.ready ∧ wOp x.instr = 0x3B then
    let decls := (s.jobOf i).elim [] (·.man.decls)
    let o := bar decls s.free x.instr x
    let s := applyOut i o { s with free := s.free + 1 }
    match o with
    | .done _ _ =>
      if (s.jobOf i).any (fun j => j.phase = .preempting) then
        s.setTile i { s.tile i with atBar := true, running := false }
      else s
    | _ => s
  else s

def execBar (i : Fin 1024) (s : State) : Result := .next (barStep i s)

/-! ## STAMP, SYS and END -/

/-- STAMP: the stamp's low 36 bits to g[rd], its high 12 to g[rd + 1] (R328). -/
def stampOut (st : BitVec 48) (w : Word) (x : Tile) : TileOut :=
  let rd := wRd w
  if rd % 2 ≠ 0 ∨ rd < 2 ∨ wImm w ≠ 0 ∨ wRs1 w ≠ 0 then .fault 0x11
  else .done ((x.setReg rd (st.extractLsb' 0 36)).setReg (rd + 1) ((st.extractLsb' 36 12).zeroExtend 36)) []

/-- STAMP takes one stamp as it executes (R206, R328). -/
def stampStep (i : Nat) (s : State) : State :=
  let x := s.tile i
  if x.ready ∧ wOp x.instr = 0x3C then
    let o := stampOut s.gng.next x.instr x
    match o with
    | .done _ _ => if x.pc = BitVec.allOnes 14 then applyOut i o s else takeStamp (applyOut i o s)
    | _ => applyOut i o s
  else s

/-- The instruction of tile i takes a stamp: it is a STAMP of a legal form. -/
def State.stampDue (s : State) (i : Nat) : Bool :=
  let x := s.tile i
  x.ready && decide (wOp x.instr = 0x3C) && (match stampOut 0 x.instr x with
    | .done _ _ => true
    | _ => false)

/-- A STAMP waits until the Gong grants its stamp (R216, R328). -/
def stampAsk (i : Nat) (held : Bool) (s : State) : State :=
  if !s.stampDue i then stampStep i s
  else if s.gng.held.contains (.stamp i) then s
  else askGong (.stamp i) held (stampStep i) s

/-- STAMP (R328). -/
def execStamp (i : Fin 1024) (held : Bool) (s : State) : Result := .next (stampAsk i held s)

/-- The value SYS selects (R329). -/
def sysValue (i : Nat) (s : State) (x : Tile) (n : Nat) : Option Word :=
  let j := (s.jobOf i).getD { id := 0, tenant := 0, ring := 0, seq := 0, jobId := 0 }
  match n with
  | 0 => some (BitVec.ofNat 36 i)
  | 1 => some (s.chn.unit.zeroExtend 36)
  | 2 => some (BitVec.ofNat 36 (j.origin % 32 + j.origin / 32 * 32))
  | 3 => some (BitVec.ofNat 36 (j.man.width + j.man.height * 64))
  | 4 => some (x.pace.extractLsb' 0 36)
  | 5 => some ((x.pace.extractLsb' 36 12).zeroExtend 36)
  | 6 => some (x.tag.zeroExtend 36)
  | 7 => some (if s.chn.assigned then 1 else 0)
  | _ => none

/-- SYS. -/
def sys (i : Nat) (s : State) (w : Word) (x : Tile) : TileOut :=
  if wRs1 w ≠ 0 then .fault 0x11
  else match sysValue i s x (wImm w) with
    | none => .fault 0x11
    | some v => .done (x.setReg (wRd w) v) []

def execSys (i : Fin 1024) (s : State) : Result := .next (tileRun 0x3D i (sys i s) s)

/-- Every tile of a job has stopped at its END. -/
def State.allEnded (s : State) (j : Job) : Bool := j.tiles.all (fun i => (s.tile i).ended)

/-- The last tile of a job has ended: its tiles are released, and its output stage begins; stage 2 is
accepted as a detokenize stream (R394, R408, R509). -/
def tilesEnded (id : Nat) (s : State) : State :=
  let s := (releaseTiles id s).modJob id (fun j =>
    { j with phase := .output, stageDue := j.man.outStage != 0, kept := none, keptFor := none })
  match s.job? id with
  | some j =>
    if j.man.outStage = 2 then
      { s with tok := { s.tok with streams := s.tok.streams ++ [{ job := id, tenant := j.tenant, detok := true }] } }
    else s
  | none => s

/-- END waits for every transfer and stops the tile (R330). -/
def endStep (i : Nat) (s : State) : State :=
  let x := s.tile i
  if x.ready ∧ wOp x.instr = 0x3E then
    if fld x.instr 0 30 ≠ 0 then applyOut i (.fault 0x11) s
    else if !x.xfers.isEmpty then s
    else
      let s := s.setTile i { x with running := false, ended := true, wdog := 0 }
      match s.jobOf i with
      | some j => if s.allEnded j then tilesEnded j.id s else s
      | none => s
  else s

def execEndTile (i : Fin 1024) (s : State) : Result := .next (endStep i s)

end Sys2Proof.Machine
end

