-- ==== Sys2Proof/Machine/TokenOps.lean ====
section
/-!
DEFINITION. Table sets, grammars and what Paradiddle and the Damper compute from them (R493-R504, R512-R518).
-/
namespace Sys2Proof.Machine

/-! ## The token set (Table 17-1, R493-R495) -/

/-- The header of a token set or of a grammar, as bytes; none where its line has no valid entry. -/
def State.headerLine (s : State) (t line : Nat) : Option (List Byte) := s.readTen t (72 * line) 72

/-- Offsets and lengths of what a token set names: class tables, vocabulary, merges, pool and byte tokens. -/
def setRegions (h : List Byte) (n2 n3 : Nat) : List (Nat × Nat) :=
  [(72 * le h 24 8, 648 + 128 * n2 + 64 * n3), (72 * le h 32 8, 8 * le h 4 4), (72 * le h 40 8, 12 * le h 8 4),
   (72 * le h 48 8, le h 12 4), (72 * le h 56 8, 1024)]

/-- n2 and n3 (R494). -/
def State.levelCounts (s : State) (t : Nat) (h : List Byte) : Nat × Nat :=
  let c := (s.readTen t (72 * le h 24 8) 72).getD []
  (le c 32 2, le c 34 2)

/-- Entries of w bytes. -/
def entries (w n : Nat) (bs : List Byte) : List Nat := (chunks w n bs).map ofLe

/-- The tables of a token set from its header and regions (R494, R495). -/
def readSet (h : List Byte) (n2 n3 : Nat) (parts : List (List Byte)) : TokSet :=
  let c := parts.getD 0 []
  { fallback := le h 2 1, eos := le h 16 4, boundary := c.take 32
    level1 := entries 2 272 ((c.drop 72).take 544)
    level2 := entries 2 (64 * n2) ((c.drop 648).take (128 * n2))
    level3 := ((c.drop (648 + 128 * n2)).take (64 * n3)).map (·.toNat)
    vocab := (chunks 8 (le h 4 4) (parts.getD 1 [])).map (fun e => (le e 0 4, le e 4 1, le e 5 1 % 2 == 1))
    merges := (chunks 12 (le h 8 4) (parts.getD 2 [])).map (fun e => (le e 0 4, le e 4 4, le e 8 4))
    pool := parts.getD 3 [], byteTok := entries 4 256 (parts.getD 4 []) }

/-- The pool bytes of a vocabulary entry. -/
def TokSet.bytes (x : TokSet) (id : Nat) : List Byte :=
  let e := x.vocab.getD id (0, 0, true)
  slice x.pool e.1 e.2.1

/-- An id is a non-special token. -/
def TokSet.plain (x : TokSet) (id : Nat) : Bool := decide (id < x.vocab.length) && !(x.vocab.getD id (0, 0, true)).2.2

/-- The distinct prefixes of the non-special tokens (R497; the empty prefix is not counted, log 81). -/
def TokSet.prefixes (x : TokSet) : List (List Byte) :=
  ((List.range x.vocab.length).filter x.plain).flatMap (fun id =>
    let bs := x.bytes id
    (List.range bs.length).map (fun k => bs.take (k + 1))) |>.eraseDups

/-- The error of the header alone: codes 1 and 2 of Table 17-2. -/
def setHeaderErr (h : List Byte) : Nat :=
  if le h 0 2 ≠ 1 ∨ le h 3 1 ≠ 0 ∨ le h 20 4 ≠ 0 ∨ le h 64 8 ≠ 0 then 1
  else if 15 < le h 2 1 ∨ le h 4 4 < 257 ∨ 262144 < le h 4 4 ∨ 262144 < le h 8 4 ∨ le h 12 4 = 0
      ∨ 134217728 < le h 12 4 ∨ le h 4 4 ≤ le h 16 4 then 2
  else 0

/-- No pair of merge entries has the same left and right. -/
def distinctPairs (ms : List (Nat × Nat × Nat)) : Bool :=
  (ms.map (fun m => (m.1, m.2.1))).eraseDups.length == ms.length

/-- The error of the tables: codes 1, 2 and 4-8 (R497; the order is log 80). -/
def setTablesErr (n2 n3 : Nat) (vocab : List Byte) (x : TokSet) : Nat :=
  if (chunks 8 x.vocab.length vocab).any (fun e => le e 6 2 != 0) then 1
  else if !((x.vocab.getD x.eos (0, 0, false)).2.2) then 2
  else if x.level1.any (fun v => decide (n2 ≤ v)) ∨ x.level2.any (fun v => decide (n3 ≤ v))
      ∨ x.level3.any (fun v => decide (15 < v)) then 4
  else if x.vocab.any (fun e => decide (x.pool.length < e.1 + e.2.1) || (!e.2.2 && e.2.1 == 0)) then 5
  else if (x.byteTok.zipIdx).any (fun b => !x.plain b.1 || x.bytes b.1 != [BitVec.ofNat 8 b.2]) then 6
  else if x.merges.any (fun m => decide (x.vocab.length ≤ m.1) || decide (x.vocab.length ≤ m.2.1) || !x.plain m.2.2
        || x.bytes m.2.2 != x.bytes m.1 ++ x.bytes m.2.1) ∨ !distinctPairs x.merges then 7
  else if 2097152 < x.prefixes.length then 8
  else 0

/-- What reading a token set gives: an error code, or its tables and the bytes it names. -/
def State.checkSet (s : State) (t : Nat) : Nat ⊕ (TokSet × List Byte) :=
  match s.headerLine t (s.tokTen t).tokset.toNat with
  | none => .inl 3
  | some h =>
    if setHeaderErr h ≠ 0 then .inl (setHeaderErr h)
    else if !s.mapped t (72 * le h 24 8) 72 then .inl 3
    else
      let (n2, n3) := s.levelCounts t h
      if n2 = 0 ∨ 4096 < n2 ∨ n3 = 0 ∨ 4096 < n3 then .inl 2
      else match (setRegions h n2 n3).mapM (fun r => s.readTen t r.1 r.2) with
        | none => .inl 3
        | some parts =>
          let x := readSet h n2 n3 parts
          let e := setTablesErr n2 n3 (parts.getD 1 []) x
          if e ≠ 0 then .inl e else .inr (x, parts.flatten)

/-- A token set as read again, unchecked, with the bytes it names; none where a byte is refused (R499). -/
def State.reloadSet (s : State) (t : Nat) : Option (TokSet × List Byte) :=
  (s.headerLine t (s.tokTen t).tokset.toNat).bind (fun h =>
    let (n2, n3) := s.levelCounts t h
    ((setRegions h n2 n3).mapM (fun r => s.readTen t r.1 r.2)).map (fun parts =>
      (readSet h n2 n3 parts, parts.flatten)))

/-- The regions that a read of a token set covers. -/
def State.setReads (s : State) (t : Nat) : List (Nat × Nat) :=
  let line := (s.tokTen t).tokset.toNat
  match s.headerLine t line with
  | none => []
  | some h => (72 * line, 72) :: (let (n2, n3) := s.levelCounts t h; setRegions h n2 n3)

/-! ## The grammar (Table 17-3, R512, R513) -/

/-- The edges of a state entry: (lo, hi, next). -/
def edgesOf (edges : List (List Byte)) (e : List Byte) : List (Nat × Nat × Nat) :=
  ((edges.drop (le e 0 4)).take (le e 4 2)).map (fun b => (le b 0 1, le b 1 1, le b 2 2))

/-- The tables of a grammar. -/
def readGrammar (h st ed : List Byte) : Grammar :=
  let edges := chunks 4 (le h 8 4) ed
  { start := le h 12 4
    states := (chunks 8 (le h 4 4) st).map (fun e => (le e 6 1 % 2 == 1, edgesOf edges e)) }

/-- Edges ascend in lo from a byte on, with lo ≤ hi and no overlap, and lead below S. -/
def edgesOk (n : Nat) : Nat → List (Nat × Nat × Nat) → Bool
  | _, [] => true
  | from_, (lo, hi, next) :: rest =>
    decide (from_ ≤ lo) && decide (lo ≤ hi) && decide (next < n) && edgesOk n (hi + 1) rest

/-- Codes 1 and 2 of a grammar's header. -/
def gramHeaderErr (h : List Byte) : Nat :=
  if le h 0 2 ≠ 1 ∨ le h 2 2 ≠ 0 ∨ (slice h 32 40).any (· ≠ 0) then 1
  else if le h 4 4 = 0 ∨ 65536 < le h 4 4 ∨ 1048576 < le h 8 4 ∨ le h 4 4 ≤ le h 12 4 then 2
  else 0

/-- A state entry is valid (R512, R513). -/
def stateOk (nEdges : Nat) (e : List Byte) : Bool :=
  le e 7 1 == 0 && decide (le e 4 2 ≤ 256) && decide (le e 0 4 + le e 4 2 ≤ nEdges)

/-- Regions of a grammar's states and edges. -/
def gramRegions (h : List Byte) : List (Nat × Nat) := [(72 * le h 16 8, 8 * le h 4 4), (72 * le h 24 8, 4 * le h 8 4)]

/-- The Damper areas are mapped and separate, with at most 1,024 slots (R513, R516). -/
def State.dampAreasOk (s : State) (t : Nat) : Bool :=
  let x := s.tokTen t
  let n := x.slots.toNat
  let q := x.dampReq.toNat
  let r := x.dampRes.toNat
  decide (n ≤ 1024) && (n == 0 || (s.mapped t (72 * q) (72 * n) && s.mapped t (72 * r) (72 * (513 * n))
    && (decide (q + n ≤ r) || decide (r + 513 * n ≤ q))))

/-- What checking a grammar gives: an error code, or its tables and the bytes it names (R513). -/
def State.checkGrammar (s : State) (t : Nat) : Nat ⊕ (Grammar × List Byte) :=
  match s.headerLine t (s.tokTen t).gram.toNat with
  | none => .inl 3
  | some h =>
    if gramHeaderErr h ≠ 0 then .inl (gramHeaderErr h)
    else match (gramRegions h).mapM (fun r => s.readTen t r.1 r.2) with
      | none => .inl 3
      | some parts =>
        let g := readGrammar h (parts.getD 0 []) (parts.getD 1 [])
        if (chunks 8 (le h 4 4) (parts.getD 0 [])).any (fun e => !stateOk (le h 8 4) e)
            ∨ g.states.any (fun e => !edgesOk g.states.length 0 e.2) then .inl 9
        else if !s.dampAreasOk t then .inl 10
        else .inr (g, parts.flatten)

/-- A grammar as read again, unchecked, with the bytes it names (R515). -/
def State.reloadGrammar (s : State) (t : Nat) : Option (Grammar × List Byte) :=
  (s.headerLine t (s.tokTen t).gram.toNat).bind (fun h =>
    ((gramRegions h).mapM (fun r => s.readTen t r.1 r.2)).map (fun parts =>
      (readGrammar h (parts.getD 0 []) (parts.getD 1 []), parts.flatten)))

/-- The regions that a read of a grammar covers. -/
def State.gramReads (s : State) (t : Nat) : List (Nat × Nat) :=
  let line := (s.tokTen t).gram.toNat
  match s.headerLine t line with
  | none => []
  | some h => (72 * line, 72) :: gramRegions h

/-! ## Pre-tokenization and merging (R501-R503) -/

/-- A continuation byte within bounds. -/
def inByte (lo hi : Nat) (b : Byte) : Bool := decide (lo ≤ b.toNat) && decide (b.toNat ≤ hi)

/-- The scalar value at the front of a list under RFC 3629, with its length; none for an invalid byte (R501). -/
def scalar : List Byte → Option (Nat × Nat)
  | [] => none
  | a :: rest =>
    let x := a.toNat
    let c (k : Nat) : Nat := (rest.getD k 0).toNat % 64
    let cont (k : Nat) : Bool := decide (k < rest.length) && inByte 0x80 0xBF (rest.getD k 0)
    if x < 0x80 then some (x, 1)
    else if 0xC2 ≤ x ∧ x ≤ 0xDF ∧ cont 0 then some (x % 32 * 64 + c 0, 2)
    else if 0xE0 ≤ x ∧ x ≤ 0xEF ∧ cont 0 ∧ cont 1 ∧ (x ≠ 0xE0 ∨ inByte 0xA0 0xBF (rest.getD 0 0))
        ∧ (x ≠ 0xED ∨ inByte 0x80 0x9F (rest.getD 0 0)) then
      some (x % 16 * 4096 + c 0 * 64 + c 1, 3)
    else if 0xF0 ≤ x ∧ x ≤ 0xF4 ∧ cont 0 ∧ cont 1 ∧ cont 2 ∧ (x ≠ 0xF0 ∨ inByte 0x90 0xBF (rest.getD 0 0))
        ∧ (x ≠ 0xF4 ∨ inByte 0x80 0x8F (rest.getD 0 0)) then
      some (x % 8 * 262144 + c 0 * 4096 + c 1 * 64 + c 2, 4)
    else none

/-- The class of a scalar value (R501). -/
def TokSet.classOf (x : TokSet) (c : Nat) : Nat :=
  let l1 := x.level1.getD (c / 4096) 0
  let l2 := x.level2.getD (64 * l1 + c / 64 % 64) 0
  x.level3.getD (64 * l2 + c % 64) 0 % 16

/-- The units of an input: each unit's bytes, its class, and whether it is an invalid byte (R501). -/
def TokSet.units (x : TokSet) : Nat → List Byte → List (List Byte × Nat × Bool)
  | 0, _ => []
  | n + 1, bs =>
    if bs.isEmpty then []
    else match scalar bs with
      | some (c, l) => (bs.take l, x.classOf c, false) :: x.units n (bs.drop l)
      | none => (bs.take 1, x.fallback, true) :: x.units n (bs.drop 1)

/-- B[a][b] (R494). -/
def TokSet.bound (x : TokSet) (a b : Nat) : Bool := bit (x.boundary.getD (2 * a + b / 8) 0) (b % 8)

/-- Cut units into words (R502): `w` is the word so far, `last` the class of its last unit. -/
def TokSet.cut (x : TokSet) (w : List Byte) (last : Option Nat) : List (List Byte × Nat × Bool) → List (List Byte)
  | [] => if w.isEmpty then [] else [w]
  | (bs, c, _) :: rest =>
    match last with
    | some a => if x.bound a c then w :: x.cut bs (some c) rest else x.cut (w ++ bs) (some c) rest
    | none => x.cut bs (some c) rest

/-- The rank of a pair, with its result. -/
def TokSet.rank (x : TokSet) (a b : Nat) : Option (Nat × Nat) :=
  ((x.merges.zipIdx).find? (fun m => m.1.1 == a && m.1.2.1 == b)).map (fun m => (m.2, m.1.2.2))

/-- The lowest rank among adjacent pairs, at its leftmost position: (rank, position, result) (R503). -/
def TokSet.best (x : TokSet) : Nat → List Nat → Option (Nat × Nat × Nat)
  | pos, a :: b :: rest =>
    let later := x.best (pos + 1) (b :: rest)
    match x.rank a b, later with
    | none, l => l
    | some (r, z), none => some (r, pos, z)
    | some (r, z), some l => if l.1 < r then some l else some (r, pos, z)
  | _, _ => none

/-- Merge until no pair is in the table (R503). -/
def TokSet.merge (x : TokSet) : Nat → List Nat → List Nat
  | 0, l => l
  | n + 1, l =>
    match x.best 0 l with
    | none => l
    | some (_, pos, z) => x.merge n (l.take pos ++ z :: l.drop (pos + 2))

/-- The tokens of a word. -/
def TokSet.word (x : TokSet) (w : List Byte) : List Nat :=
  x.merge w.length (w.map (fun b => x.byteTok.getD b.toNat 0))

/-- What a stream gives: its tokens, its word count, and whether an invalid byte occurred (R505). -/
def TokSet.tokenize (x : TokSet) (bs : List Byte) : List Nat × Nat × Bool :=
  let us := x.units bs.length bs
  let ws := x.cut [] none us
  (ws.flatMap x.word, ws.length, us.any (fun u => u.2.2))

/-- 18-bit ids as words, two to a word, the first in the low half (R45, R505). -/
def idWords (ids : List Nat) : List Word :=
  (chunks 2 ids.length ids).map (fun p => BitVec.ofNat 36 (p.getD 0 0 % 2 ^ 18 + p.getD 1 0 % 2 ^ 18 * 2 ^ 18))

/-! ## Detokenizing (R509, R510) -/

/-- The bytes of a list of ids, up to the first id at or above V, which is answered with its index. -/
def TokSet.detokenize (x : TokSet) : Nat → List Nat → List Byte × Option (Nat × Nat)
  | _, [] => ([], none)
  | k, id :: rest =>
    if x.vocab.length ≤ id then ([], some (id, k))
    else
      let (bs, e) := x.detokenize (k + 1) rest
      ((if x.plain id then x.bytes id else []) ++ bs, e)

/-! ## The Damper (R514, R517, R518) -/

/-- The state that a byte leads to (R514). -/
def Grammar.next (g : Grammar) (st : Nat) (b : Byte) : Option Nat :=
  ((g.states.getD st (false, [])).2.find? (fun e => decide (e.1 ≤ b.toNat) && decide (b.toNat ≤ e.2.1))).map (·.2.2)

/-- The state that bytes lead to, in order. -/
def Grammar.run (g : Grammar) : Nat → List Byte → Option Nat
  | st, [] => some st
  | st, b :: bs => (g.next st b).bind (fun n => g.run n bs)

/-- The end state of a token where it is allowed (R514). -/
def allowedToken (x : TokSet) (g : Grammar) (st id : Nat) : Option Nat :=
  if x.plain id then g.run st (x.bytes id)
  else if id = x.eos ∧ (g.states.getD st (false, [])).1 then some st
  else none

/-- The words of mask line L: bit b of word w is token 32 × (16L + w) + b (R517). -/
def maskLine (x : TokSet) (g : Grammar) (st l : Nat) : List Word :=
  (List.range 16).map (fun w =>
    BitVec.ofNat 36 ((List.range 32).foldl (fun a b =>
      let id := 32 * (16 * l + w) + b
      if id < x.vocab.length ∧ (allowedToken x g st id).isSome then a + 2 ^ b else a) 0))

/-- Fields of a request (Table 17-4). -/
def DampReq.op (r : DampReq) : Nat := fld (r.words.getD 0 0) 32 4
def DampReq.state (r : DampReq) : Nat := fld (r.words.getD 0 0) 0 16
def DampReq.token (r : DampReq) : Nat := fld (r.words.getD 1 0) 0 18

/-- A bad op or a nonzero reserved bit. -/
def DampReq.malformed (r : DampReq) : Bool :=
  decide (2 < r.op) || fld (r.words.getD 0 0) 16 16 != 0 || fld (r.words.getD 1 0) 18 18 != 0
    || (r.words.drop 3).any (· ≠ 0)

/-- Result lines of a request: only line 0 for op 2 (R518). -/
def DampReq.lines (r : DampReq) : Nat := if r.op = 2 then 1 else 513

/-- The result of a request against tables that are on die, or where no grammar is valid: status, allowed, the
returned state, and whether a mask is given (R517, R518; the order of the statuses is log 85). -/
def damperResult (valid : Bool) (x : TokSet) (g : Grammar) (r : DampReq) : Nat × Bool × Nat :=
  if r.malformed then (5, false, r.state)
  else if !valid then (4, false, r.state)
  else if g.states.length ≤ r.state then (2, false, r.state)
  else if r.op = 0 then (0, false, r.state)
  else if x.vocab.length ≤ r.token then (3, false, r.state)
  else match allowedToken x g r.state r.token with
    | some n => (0, true, n)
    | none => (1, false, r.state)

/-- The words of result line 0. -/
def resultWords (valid : Bool) (x : TokSet) (g : Grammar) (r : DampReq) : List Word :=
  let (st, ok, n) := damperResult valid x g r
  let accepting := valid && decide (n < g.states.length) && (g.states.getD n (false, [])).1
  let count := if r.op ≠ 2 ∧ st < 2 then
    (List.range x.vocab.length).countP (fun id => (allowedToken x g n id).isSome) else 0
  [BitVec.ofNat 36 (st * 2 ^ 18 + (if ok then 2 ^ 17 else 0) + (if accepting then 2 ^ 16 else 0) + n % 2 ^ 16),
   BitVec.ofNat 36 count, r.words.getD 2 0]

/-- Every result line of a request, in order (R518). -/
def resultLines (valid : Bool) (x : TokSet) (g : Grammar) (r : DampReq) : List (List Word) :=
  let (st, _, n) := damperResult valid x g r
  resultWords valid x g r :: (if r.op = 2 then [] else
    (List.range 512).map (fun l => if st < 2 then maskLine x g n l else []))

end Sys2Proof.Machine
end

