-- ==== Sys2Proof/Machine/Paradiddle.lean ====
section
/-!
DEFINITION. The commands of Paradiddle and the Damper (17).
-/
namespace Sys2Proof.Machine

/-- The TOK_ block of tenant t. -/
def baseTOK (t : Nat) : Nat := 0xE00100 + 0x20 * t

/-- TOK's place in Table 21-1. -/
def tokBlock : Nat := 13

/-! ## Loading and clearing tables (R496-R498, R513) -/

/-- A write to the tables' registers is refused: a check runs, or the tenant has an admitted job (R498). -/
def State.tokLocked (s : State) (t : Nat) : Bool :=
  decide ((s.tokTen t).checking ≠ .none) || decide (0 < s.admittedOf t)

/-- A write to TOK_TENt_CTL, or to another register that R498 locks. -/
def tokWrite (q : Requester) (t off : Nat) (f : State → State) (s : State) : State :=
  if s.tokLocked t then regError q (baseTOK t + off) s else f s

/-- tok_load = 1: the check begins (R496). -/
def tokLoad (t : Nat) (s : State) : State := s.setTokTen t { s.tokTen t with checking := .set }

/-- TOK_LOAD (R496). -/
def execTokLoad (q : Requester) (t : Fin 64) (s : State) : Result :=
  .next (regWrite q (.blk (baseTOK t)) (tokWrite q t 0 (tokLoad t)) s)

/-- gram_load = 1: the check begins, or fails with error 11 (R513). -/
def gramLoad (t : Nat) (s : State) : State :=
  let x := s.tokTen t
  if x.tokValid then s.setTokTen t { x with checking := .grammar }
  else raise 193 (s.setTokTen t { x with gramValid := false, gramErr := 11 })

/-- GRAM_LOAD (R513). -/
def execGramLoad (q : Requester) (t : Fin 64) (s : State) : Result :=
  .next (regWrite q (.blk (baseTOK t)) (tokWrite q t 0 (gramLoad t)) s)

/-- tok_clear = 1 (R498). -/
def tokClear (t : Nat) (s : State) : State := s.setTokTen t { s.tokTen t with tokValid := false, gramValid := false }

/-- TOK_CLEAR (R498). -/
def execTokClear (q : Requester) (t : Fin 64) (s : State) : Result :=
  .next (regWrite q (.blk (baseTOK t)) (tokWrite q t 0 (tokClear t)) s)

/-- gram_clear = 1 (R498). -/
def gramClear (t : Nat) (s : State) : State := s.setTokTen t { s.tokTen t with gramValid := false }

/-- GRAM_CLEAR (R498). -/
def execGramClear (q : Requester) (t : Fin 64) (s : State) : Result :=
  .next (regWrite q (.blk (baseTOK t)) (tokWrite q t 0 (gramClear t)) s)

/-- Read regions with no job to fail: true where every byte returned its data (R364; log 82). -/
def readTables (t : Nat) : List (Nat × Nat) → State → Bool × State
  | [], s => (true, s)
  | (a, n) :: rest, s =>
    match readBeats (s.tenBeats t a n) s with
    | (none, s) => readTables t rest s
    | (some b, s) => (false, uncorrectableBeat b (fire (beatFinding lvlNone b) s))

/-- What is on die for a tenant is dropped when its tables are checked anew (log 83). -/
def dropOnDie (t : Nat) (s : State) : State :=
  let s := if s.tok.onDie = some t then { s with tok := { s.tok with onDie := none, set := {} } } else s
  if s.tok.dampOn = some t then { s with tok := { s.tok with dampOn := none, dampSet := {}, dampGram := {} } } else s

/-- A token set check ends (R496). -/
def tokCheckDone (t : Nat) (s : State) : State :=
  if (s.tokTen t).checking ≠ .set ∨ !s.on domTOK ∨ s.claimedAny t (s.setReads t) then s
  else
    let (ok, s) := readTables t (s.setReads t) (dropOnDie t s)
    let x := s.tokTen t
    match if ok then s.checkSet t else .inl 3 with
    | .inr (_, bs) =>
      s.setTokTen t { x with tokValid := true, tokErr := 0, tokCrc := Config.tableCrc bs, checking := .none }
    | .inl e =>
      raise 192 (s.setTokTen t { x with
        tokValid := false, gramValid := false, tokErr := BitVec.ofNat 4 e, checking := .none })

/-- TOK_CHECK_DONE (R496). -/
def execTokCheckDone (t : Fin 64) (s : State) : Result := .next (tokCheckDone t s)

/-- A grammar check ends (R513). -/
def gramCheckDone (t : Nat) (s : State) : State :=
  if (s.tokTen t).checking ≠ .grammar ∨ !s.on domTOK ∨ s.claimedAny t (s.gramReads t) then s
  else
    let (ok, s) := readTables t (s.gramReads t) (dropOnDie t s)
    let x := s.tokTen t
    match if ok then s.checkGrammar t else .inl 3 with
    | .inr (_, bs) =>
      s.setTokTen t { x with gramValid := true, gramErr := 0, gramCrc := Config.tableCrc bs, checking := .none }
    | .inl e => raise 193 (s.setTokTen t { x with gramValid := false, gramErr := BitVec.ofNat 4 e, checking := .none })

/-- GRAM_CHECK_DONE (R513). -/
def execGramCheckDone (t : Fin 64) (s : State) : Result := .next (gramCheckDone t s)

/-! ## Streams (R499, R500, R505, R509) -/

/-- A stream's job is still to be served. -/
def State.streamLive (s : State) (x : TokStream) : Bool := (s.job? x.job).any (fun j => j.result.isNone)

/-- The streams that are left to serve, in the order of acceptance. -/
def State.liveStreams (s : State) : List TokStream := s.tok.streams.filter s.streamLive

/-- Drop the streams of jobs that are gone; where the one in service was one of them, its service ends. -/
def cleanStreams (s : State) : State :=
  let serving := s.tok.serving && (match s.tok.streams with
    | [] => false
    | x :: _ => s.streamLive x)
  { s with tok := { s.tok with streams := s.liveStreams, serving := serving } }

/-- The finding of a table CRC that differs at reload (Table 20-1). -/
def crcFinding (unit : Nat) (recorded computed : Reg) : Finding :=
  { detector := 0x0B, level := lvlTables, location := unit, info0 := recorded.toNat, info1 := computed.toNat }

/-- The tables of a tenant are invalid after a CRC mismatch (R500). -/
def invalidate (t : Nat) (tokErr gramErr : Bool) (s : State) : State :=
  let x := s.tokTen t
  raise 194 (s.setTokTen t { x with
    tokValid := false, gramValid := false
    tokErr := if tokErr then 12 else x.tokErr, gramErr := if gramErr then 12 else x.gramErr })

/-- Load a tenant's set on die for a stream, unless it is there: true where it is (R163, R499, R500). -/
def loadSet (st : TokStream) (s : State) : Bool × State :=
  if s.tok.onDie = some st.tenant then (true, s)
  else
    let s := { s with tok := { s.tok with onDie := none, set := {}, loadsTok := satInc s.tok.loadsTok } }
    match s.job? st.job with
    | none => (false, s)
    | some j =>
      match readRegions tokBlock j.id st.tenant (s.setReads st.tenant) s with
      | (false, s) => (false, s)
      | (true, s) =>
        match s.reloadSet st.tenant with
        | none => (false, fireJob (refusedFinding tokBlock (72 * (s.tokTen st.tenant).tokset.toNat)) st.job s)
        | some (x, bs) =>
          let crc := Config.tableCrc bs
          let old := (s.tokTen st.tenant).tokCrc
          if crc = old then (true, { s with tok := { s.tok with onDie := some st.tenant, set := x } })
          else (false, invalidate st.tenant true false (fireJob (crcFinding 0 old crc) st.job s))

/-- Paradiddle begins to serve the first stream, if it is of the kind named (R499). -/
def streamStart (pick : TokStream → Bool) (s : State) : State :=
  let s := cleanStreams s
  if !s.on domTOK ∨ s.tok.serving then s
  else match s.tok.streams with
    | [] => s
    | st :: _ =>
      if !pick st ∨ (s.tok.onDie ≠ some st.tenant ∧ s.claimedAny st.tenant (s.setReads st.tenant)) then s
      else match loadSet st s with
        | (true, s) => { s with tok := { s.tok with serving := true } }
        | (false, s) => cleanStreams s

/-- TOKEN_STREAM_START (R499). -/
def execTokenStreamStart (s : State) : Result := .next (streamStart (fun st => !st.detok) s)

/-- DETOKENIZE_START (R509). -/
def execDetokenizeStart (j : Nat) (s : State) : Result := .next (streamStart (fun st => st.detok && st.job == j) s)

/-- Paradiddle has finished the stream in service. -/
def endStream (s : State) : State :=
  { s with tok := { s.tok with streams := s.tok.streams.drop 1, serving := false } }

/-- The first line of a job's token stream (R505). -/
def State.streamLine (s : State) (j : Job) : Nat :=
  let m : Option Dims := if dKind j.desc = 0 then none
    else some { w := j.srcDims.1, h := j.srcDims.2.1, planes := j.srcDims.2.2 }
  dParam j.desc + s.z0 j.desc m

/-- Write a token stream: the tokens, and then line 0 (R505). -/
def writeStream (j : Job) (toks : List Nat) (words : Nat) (invalid : Bool) (s : State) : State :=
  let line := s.streamLine j
  let s := writeLinesFor j.id j.tenant (line + 1) (wordsNonets (idWords toks)) s
  writeLinesFor j.id j.tenant line (wordsNonets [BitVec.ofNat 36 toks.length, BitVec.ofNat 36 (dAuxLen j.desc),
    BitVec.ofNat 36 words, if invalid then 1 else 0]) s

/-- The region of a job's token stream (R506). -/
def State.streamRegion (s : State) (j : Job) : Nat × Nat := (72 * s.streamLine j, 72 * (ceilDiv (dAuxLen j.desc) 32 + 1))

/-- The stream in service is complete: `input` is the auxiliary buffer (R501-R505). It waits for a claimed line
(R519). -/
def streamComplete (input : List Byte) (s : State) : State :=
  let s := cleanStreams s
  match s.tok.streams with
  | [] => s
  | st :: _ =>
    match s.job? st.job with
    | none => s
    | some j =>
      let region := s.streamRegion j
      if !s.tok.serving ∨ st.detok ∨ !s.on domTOK ∨ !s.linkOk j.tenant ∨ s.claimedAny j.tenant [region] then s
      else if !s.mapped j.tenant region.1 region.2 then endStream (fireJob (refusedFinding tokBlock region.1) st.job s)
      else
        let s := emitReads j.tenant (dAuxAddr j.desc) (dAuxLen j.desc) s
        let (toks, words, invalid) := s.tok.set.tokenize (input.take (dAuxLen j.desc))
        (endStream (writeStream j toks words invalid s)).modJob st.job (fun j => { j with streamDue := false })

/-- TOKEN_STREAM_COMPLETE (R505). -/
def execTokenStreamComplete (input : List Byte) (s : State) : Result := .next (streamComplete input s)

/-- The ids of a job's output tensor; an odd final nonet is ignored (R509). -/
def outputIds (n : Nat) (bs : List Byte) : List Nat :=
  (List.range (n / 2)).map (fun i => (packedNonet bs (2 * i)).toNat + (packedNonet bs (2 * i + 1)).toNat * 512)

/-- The detokenize stream in service ends: its bytes are written, or it stops on an id at or above V (R509,
R510). It waits for a claimed line (R519). -/
def detokenizeDone (id : Nat) (s : State) : State :=
  let s := cleanStreams s
  match s.tok.streams with
  | [] => s
  | st :: _ =>
    match s.job? st.job with
    | none => s
    | some j =>
      if !s.tok.serving ∨ !st.detok ∨ st.job ≠ id ∨ !s.on domTOK ∨ !s.linkOk j.tenant
          ∨ s.claimedIn j.tenant j.man.outRegion j.man.outBytes then s
      else match readRegions tokBlock id j.tenant [(j.man.outRegion, j.man.outBytes)] s with
        | (false, s) => endStream s
        | (true, s) =>
          let bs := (s.readTen j.tenant j.man.outRegion j.man.outBytes).getD []
          let (out, bad) := s.tok.set.detokenize 0 (outputIds j.man.outNonets bs)
          let s := (endStream (writeOutput j 0 out s)).modJob id (fun j => { j with
            stageDue := false, outBytes := out.length })
          match bad with
          | none => s
          | some (v, k) =>
            raise 195 (fireJob { detector := 0x0C, level := lvlJob, info0 := v, info1 := k } id s)

/-- DETOKENIZE_DONE (R509, R510). -/
def execDetokenizeDone (j : Nat) (s : State) : Result := .next (detokenizeDone j s)

/-- A read of TOK_LOADS: the counts, then 0 (R499). -/
def tokLoads (s : State) : Reg × State :=
  (pack [(16, s.tok.loadsTok.toNat), (0, s.tok.loadsDamp.toNat)],
   { s with tok := { s.tok with loadsTok := 0, loadsDamp := 0 } })

/-- TOK_LOADS_READ (R499). -/
def execTokLoadsRead (q : Requester) (s : State) : Result := .next (regRead q (.blk 0xE00010) tokLoads s)

/-! ## The Damper (R515-R520) -/

/-- A transfer of tile i that writes a line and has not had it accepted by a unit: its place and line offset. -/
def State.requestXfer (s : State) (i t line unit : Nat) : Option (Nat × Xfer) :=
  ((s.tile i).xfers.zipIdx.find? (fun e =>
    e.1.store && e.1.tenant == t && decide (e.1.dline ≤ line) && decide (line < e.1.dline + e.1.lines)
      && !e.1.accepted.contains (line, unit))).map (fun e => (e.2, e.1))

/-- A unit accepts a request line of a transfer. -/
def acceptLine (i n line unit : Nat) (s : State) : State :=
  let x := s.tile i
  s.setTile i { x with xfers := x.xfers.mapIdx (fun k t =>
    if k = n then { t with accepted := t.accepted ++ [(line, unit)] } else t) }

/-- The 16 words that a transfer writes to a line. -/
def State.xferWords (s : State) (i : Nat) (x : Xfer) (line : Nat) : List Word :=
  let ns := (s.tile i).scratch (64 * (x.sline + (line - x.dline))) 64
  (List.range 16).map (fun w => wordOf (ns.drop (4 * w)))

/-- Claim consecutive lines (R519). -/
def claimLines (t line n : Nat) (s : State) : State := forEach (List.range n) (fun k s => claimLine t (line + k) s) s

/-- A tile's write to a Damper request line is accepted, with room for 256 requests (R516, R519). -/
def damperRequest (i t slot : Nat) (s : State) : State :=
  let d := s.tokTen t
  let line := d.dampReq.toNat + slot
  if !s.on domTOK ∨ d.slots.toNat ≤ slot ∨ 256 ≤ s.tok.damps.length then s
  else match s.requestXfer i t line 8 with
    | none => s
    | some (n, x) =>
      let r : DampReq := { job := x.job, tenant := t, slot := slot, words := s.xferWords i x line }
      let s := claimLines t (d.dampRes.toNat + 513 * slot) r.lines (acceptLine i n line 8 s)
      { s with tok := { s.tok with damps := s.tok.damps ++ [r] } }

/-- DAMPER_REQUEST (R516). -/
def execDamperRequest (i : Fin 1024) (t : Fin 64) (slot : Fin 1024) (s : State) : Result :=
  .next (damperRequest i t slot s)

/-- How a load of the Damper's tables ends: they are there, a CRC differs, or a read failed. -/
inductive DamperLoad where
  | ready | crc | unread
deriving DecidableEq

/-- The regions that a load of a tenant's set and grammar reads. -/
def State.damperReads (s : State) (t : Nat) : List (Nat × Nat) := s.setReads t ++ s.gramReads t

/-- Load a tenant's set and grammar for the Damper on behalf of a request's job, unless they are there (R163, R515). A
refused read or an uncorrectable beat fails that job (R156, R364). -/
def loadGrammar (job t : Nat) (s : State) : DamperLoad × State :=
  if s.tok.dampOn = some t then (.ready, s)
  else
    let s := { s with tok := { s.tok with
      dampOn := none, dampSet := {}, dampGram := {}, loadsDamp := satInc s.tok.loadsDamp } }
    match readRegions tokBlock job t (s.damperReads t) s with
    | (false, s) => (.unread, s)
    | (true, s) =>
      match s.reloadSet t, s.reloadGrammar t with
      | some (x, xb), some (g, gb) =>
        let d := s.tokTen t
        if Config.tableCrc xb ≠ d.tokCrc then
          (.crc, invalidate t true false (fire (crcFinding 1 d.tokCrc (Config.tableCrc xb)) s))
        else if Config.tableCrc gb ≠ d.gramCrc then
          (.crc, invalidate t false true (fire (crcFinding 1 d.gramCrc (Config.tableCrc gb)) s))
        else (.ready, { s with tok := { s.tok with dampOn := some t, dampSet := x, dampGram := g } })
      | _, _ => (.unread, fireJob (refusedFinding tokBlock (72 * (s.tokTen t).tokset.toNat)) job s)

/-- Write the result of a request: a line without a valid entry fails the request's job (R156). -/
def answerDamper (valid : Bool) (r : DampReq) (s : State) : State :=
  let d := s.tokTen r.tenant
  let base := d.dampRes.toNat + 513 * r.slot
  forEach (resultLines valid s.tok.dampSet s.tok.dampGram r).zipIdx
    (fun l s => writeResultFor tokBlock r.job r.tenant (base + l.2) l.1 s) s

/-- The Damper serves the oldest request. Where a CRC of its tables differs, every queued request of the tenant is
answered with status 4; where they cannot be read, this one is (R515, R518, log 84). A load waits for a claimed line
(R519). -/
def damperService (s : State) : State :=
  match s.tok.damps with
  | [] => s
  | r :: rest =>
    if !s.on domTOK ∨ (s.tok.dampOn ≠ some r.tenant ∧ s.claimedAny r.tenant (s.damperReads r.tenant)) then s
    else if !(s.tokTen r.tenant).gramValid then answerDamper false r { s with tok := { s.tok with damps := rest } }
    else match loadGrammar r.job r.tenant s with
      | (.ready, s) => answerDamper true r { s with tok := { s.tok with damps := rest } }
      | (.unread, s) => answerDamper false r { s with tok := { s.tok with damps := rest } }
      | (.crc, s) =>
        let mine := s.tok.damps.filter (fun x => x.tenant == r.tenant)
        let s := { s with tok := { s.tok with damps := s.tok.damps.filter (fun x => x.tenant != r.tenant) } }
        forEach mine (answerDamper false) s

/-- DAMPER_SERVICE (R515, R520). -/
def execDamperService (s : State) : Result := .next (damperService s)

end Sys2Proof.Machine
end

