-- ==== Sys2Proof/Machine/Cymbal.lean ====
section
/-!
DEFINITION. The commands of the Cymbal video codec (18).
-/
namespace Sys2Proof.Machine

/-- The CYM_ block of stream n. -/
def baseCYM (n : Nat) : Nat := 0xF00100 + 0x80 * n

/-! ## Enable, disable, restart (R523, R524, R545) -/

/-- The size keeps Table 18-1. -/
def Stream.sizeOk (x : Stream) : Bool :=
  let w := x.width.toNat
  let h := x.height.toNat
  decide (w % 8 = 0 ∧ h % 8 = 0 ∧ 8 ≤ w ∧ w ≤ 16384 ∧ 8 ≤ h ∧ h ≤ 16384 ∧ w * h ≤ 35651584)

/-- The layout keeps Table 18-1. -/
def Stream.layoutOk (x : Stream) : Bool :=
  decide (x.needLines ≤ x.areaLines.toNat) && decide (1 ≤ x.slots.toNat ∧ x.slots.toNat ≤ 16)
    && (!x.dir || decide (1 ≤ x.outSlots.toNat ∧ x.outSlots.toNat ≤ 64))
    && (x.dir || [0, 1, 2, 3].any x.layerEn)

/-- Every line a stream uses is mapped. -/
def State.streamMapped (s : State) (x : Stream) : Bool :=
  ((x.req.toNat, x.slots.toNat) :: (x.rslt.toNat, x.slots.toNat) :: x.regions).all
    (fun r => s.mapped x.tenant (72 * r.1) (72 * r.2))

/-- A stream's reservation on each stack (R524). -/
def State.streamParts (s : State) (x : Stream) : List Nat :=
  placed x.res.toNat (s.regionPages x.tenant (72 * x.area.toNat) (72 * x.areaLines.toNat))

/-- The err of a refused enable, or 0 (Table 18-1). -/
def State.streamErr (s : State) (x : Stream) : Nat :=
  if s.held domCYM then 8
  else if !(s.tenant x.tenant).enable then 3
  else if !x.sizeOk ∨ !x.layoutOk then 1
  else if !s.streamMapped x then 3
  else if s.excess (s.streamParts x) ≠ 0 then 2
  else 0

/-- A write of enable = 1 (R523). The ring's counts stand as they are (log 86). -/
def enableStream (n : Nat) (s : State) : State :=
  let x := s.stream n
  if x.enable then s
  else
    let e := s.streamErr x
    if e ≠ 0 then s.setStream n { x with err := BitVec.ofNat 4 e }
    else rescale (s.setStream n { x with
      enable := true, state := 1, err := 0, first := true, sinceIdr := 0, pics := 0, recon := [], waiting := []
      copies := [], parts := s.streamParts x })

/-- STREAM_ENABLE (R523). -/
def execStreamEnable (q : Requester) (n : Fin 8) (s : State) : Result :=
  .next (regWrite q (.blk (baseCYM n)) (enableStream n) s)

/-- A write of enable = 0: the reservation is released, and what waits is answered with status 3 (R524; log 87). -/
def disableStream (n : Nat) (s : State) : State :=
  let x := s.stream n
  if !x.enable then s
  else
    let mine := (match s.cym.service with
      | some v => if v.req.stream = n then [v.req] else []
      | none => []) ++ s.cym.reqs.filter (fun r => r.stream == n)
    let s := { s with cym := { s.cym with
      reqs := s.cym.reqs.filter (fun r => r.stream != n)
      service := s.cym.service.filter (fun v => v.req.stream != n) } }
    let s := forEach mine (fun r s => answerPicture r (failedPicture r 3 0) s) s
    rescale (s.setStream n { s.stream n with enable := false, state := 0, parts := [], waiting := [] })

/-- A write of restart on a stopped stream empties the DPB and makes it ready; its reservation is placed again
(R545, log 88). -/
def restartStream (n : Nat) (s : State) : State :=
  let x := s.stream n
  if x.state = 2 then
    rescale (s.setStream n { x with state := 1, recon := [], waiting := [], first := true, parts := s.streamParts x })
  else s

/-- STREAM_RESTART (R545). -/
def execStreamRestart (q : Requester) (n : Fin 8) (s : State) : Result :=
  .next (regWrite q (.blk (baseCYM n)) (restartStream n) s)

/-- A write of key_req (R537). -/
def keyRequest (n : Nat) (s : State) : State := s.setStream n { s.stream n with keyReq := true }

/-- KEY_REQ (R537). -/
def execKeyReq (q : Requester) (n : Fin 8) (s : State) : Result :=
  .next (regWrite q (.blk (baseCYM n)) (keyRequest n) s)

/-! ## Requests (R527-R530) -/

/-- Fields of a request (Table 18-3). -/
def CymReq.word (r : CymReq) (k : Nat) : Word := r.words.getD k 0
def CymReq.op (r : CymReq) : Nat := fld (r.word 0) 32 4
def CymReq.idr (r : CymReq) : Bool := bit (r.word 0) 8
def CymReq.qp (r : CymReq) : Nat := fld (r.word 0) 0 6
def CymReq.roiCount (r : CymReq) : Nat := fld (r.word 3) 0 7
def CymReq.bsLen (r : CymReq) : Nat := fld (r.word 3) 0 27
def CymReq.bsLine (r : CymReq) : Nat := (r.word 2).toNat
def CymReq.roiLine (r : CymReq) : Nat := (r.word 4).toNat

/-- A request that R529 answers with status 2, but for its job and its stream. -/
def CymReq.bad (r : CymReq) : Bool :=
  decide (1 < r.op) || fld (r.word 0) 9 23 != 0 || bit (r.word 0) 6 || decide (51 < r.qp)
    || (r.words.drop 5).any (· ≠ 0)
    || (if r.op = 1 then fld (r.word 3) 27 9 != 0 || r.word 4 != 0 || decide (r.bsLen = 0) || decide (67108864 < r.bsLen)
        else fld (r.word 3) 7 29 != 0 || decide (64 < r.roiCount))

/-- Write a line for a job, behind its claim where it is claimed (R519); a line without a valid entry fails the job
(R156). -/
def landLine (job t line : Nat) (ws : List Word) (s : State) : State :=
  let ns := wordsNonets (ws ++ List.replicate (16 - ws.length) 0)
  if !s.mapped t (72 * line) 72 then fireJob (refusedFinding cymBlock (72 * line)) job s
  else match s.translate t (72 * line) with
  | some p =>
    if s.mem.claims.any (fun c => c.addr == p) then
      { s with mem := { s.mem with claims := behindClaim p ns s.mem.claims } }
    else s.writeLines t line ns
  | none => s

/-- Judge a request that has been read: answered at once, or claimed and queued (R527, R529, R545; the order of
the statuses is log 89). -/
def takeRequest (r : CymReq) (s : State) : State :=
  let x := s.stream r.stream
  let line := x.rslt.toNat + r.slot
  let staged := (s.job? r.job).any (fun j => j.man.outStage != 0)
  if !x.enable then landLine r.job x.tenant line (failedPicture r 3 0) s
  else if x.state = 2 then
    finishJob r.job stDamaged (x.dmg.toNat % 65536)
      (landLine r.job x.tenant line (failedPicture r 1 x.dmg.toNat) s)
  else if r.bad ∨ r.decode ≠ x.dir ∨ (!r.decode ∧ staged) then landLine r.job x.tenant line (failedPicture r 2 0) s
  else
    let s := (claimLine x.tenant line s).modJob r.job (fun j => { j with pictures := j.pictures + 1 })
    { s with cym := { s.cym with reqs := s.cym.reqs ++ [r] } }

/-- A tile's write to a request line of stream n is accepted, with room for 256 requests; `decode` says which op
the command is for (R527). -/
def cymbalRequest (decode : Bool) (i n slot : Nat) (s : State) : State :=
  let x := s.stream n
  let line := x.req.toNat + slot
  if !s.on domCYM ∨ x.slots.toNat ≤ slot ∨ 256 ≤ s.cym.reqs.length then s
  else match s.requestXfer i x.tenant line n with
    | none => s
    | some (k, t) =>
      let words := s.xferWords i t line
      let r : CymReq := { stream := n, slot := slot, job := t.job, decode := decode, words := words }
      if (r.op = 1) = (decode = true) then takeRequest r (acceptLine i k line n s) else s

/-- CYMBAL_ENCODE (R527, R535). -/
def execCymbalEncode (i : Fin 1024) (n : Fin 8) (slot : Fin 16) (s : State) : Result :=
  .next (cymbalRequest false i n slot s)

/-- CYMBAL_DECODE (R527, R542). -/
def execCymbalDecode (i : Fin 1024) (n : Fin 8) (slot : Fin 16) (s : State) : Result :=
  .next (cymbalRequest true i n slot s)

/-! ## Compositing (R539-R541) -/

/-- The lines of a luma and of a chroma plane. -/
def Stream.lumaLines (x : Stream) : Nat := ceilDiv (x.width.toNat * x.height.toNat * x.b) 72
def Stream.chromaLines (x : Stream) : Nat := ceilDiv (x.width.toNat * x.height.toNat * x.b) 288

/-- Offsets of the planes in a layer's bytes after its header line: Y, Cb, Cr, alpha. -/
def Stream.planeOffsets (x : Stream) : List Nat :=
  let l := 72 * x.lumaLines
  let c := 72 * x.chromaLines
  [0, l, l + c, l + 2 * c]

/-- Sample k of a plane at an offset. -/
def Stream.sampleAt (x : Stream) (bs : List Byte) (off k : Nat) : Nat := le bs (off + x.b * k) x.b

/-- The samples of plane p: W × H for Y, a quarter of that for Cb and Cr. -/
def Stream.samples (x : Stream) (p : Nat) : Nat :=
  if p = 0 then x.width.toNat * x.height.toNat else (x.width.toNat / 2) * (x.height.toNat / 2)

/-- The luma sample whose alpha sample k of plane p takes: its own, or the top left of its block. -/
def Stream.alphaOf (x : Stream) (p k : Nat) : Nat :=
  if p = 0 then k
  else
    let cw := x.width.toNat / 2
    2 * (k / cw) * x.width.toNat + 2 * (k % cw)

/-- The black canvas: the samples of Y, Cb and Cr. -/
def Stream.black (x : Stream) : List (List Nat) :=
  let f := 2 ^ (8 * x.b - 8)
  [List.replicate (x.samples 0) (16 * f), List.replicate (x.samples 1) (128 * f), List.replicate (x.samples 2) (128 * f)]

/-- Put layer l over a canvas (R541). -/
def Stream.blend (x : Stream) (l : Nat) (bs : List Byte) (canvas : List (List Nat)) : List (List Nat) :=
  canvas.mapIdx (fun p plane => plane.mapIdx (fun k c =>
    let v := x.sampleAt bs (x.planeOffsets.getD p 0) k
    if l = 0 then v
    else
      let a := le bs (x.planeOffsets.getD 3 0 + x.alphaOf p k) 1
      (a * v + (255 - a) * c + 127) / 255))

/-- One layer at the frame boundary: its current copy after it, and whether it is repeated or transparent (R540). -/
def State.layerCopy (s : State) (x : Stream) (l : Nat) : Option LayerCopy × Bool × Bool :=
  let line := (x.layers.find 0 l).toNat
  let h := (s.readTen x.tenant (72 * line) 72).getD []
  let cur := x.copies.find none l
  let gen := BitVec.ofNat 32 (le h 0 4)
  if le h 4 1 = 0 ∧ cur.all (fun c => decide (c.gen ≠ gen)) then
    let n := 72 * (x.layerLines l - 1)
    (some { gen := gen, planes := (s.readTen x.tenant (72 * (line + 1)) n).getD [] }, false, false)
  else (cur, cur.isSome, cur.isNone)

/-- The enabled layers. -/
def Stream.layersOn (x : Stream) : List Nat := [0, 1, 2, 3].filter x.layerEn

/-- A 4-bit set of layers. -/
def layerSet (ls : List Nat) : BitVec 4 := BitVec.ofNat 4 ((ls.map (fun l => 2 ^ l)).sum)

/-- The canvas of an encode from the layers' current copies, as bytes. -/
def Stream.compose (x : Stream) (copies : List (Nat × Option LayerCopy)) : List Byte :=
  let canvas := copies.foldl (fun c e => match e.2 with
    | some k => x.blend e.1 k.planes c
    | none => c) x.black
  canvas.flatMap (fun p => p.flatMap (leBytes x.b))

/-- The picture is coded as IDR (R537). -/
def Stream.codesIdr (x : Stream) (r : CymReq) : Bool :=
  x.first || r.idr || x.keyReq || (decide (x.idr ≠ 0) && decide (x.idr.toNat ≤ x.sinceIdr))

/-- The regions that an encode's layers are read from. -/
def Stream.layerReads (x : Stream) : List (Nat × Nat) :=
  x.layersOn.map (fun l => (72 * (x.layers.find 0 l).toNat, 72 * x.layerLines l))

/-- A read for a picture failed: its job has failed, and the request is answered with status 3 (log 90). -/
def dropPicture (r : CymReq) (s : State) : State :=
  answerPicture r (failedPicture r 3 0) { s with cym := { s.cym with service := none } }

/-- Read regions for a picture: true where each returned its data; else the picture's job fails, unless it has its
completion (R156, R364). -/
def readPicture (r : CymReq) (rs : List (Nat × Nat)) (s : State) : Bool × State :=
  readRegions cymBlock r.job (s.stream r.stream).tenant rs s

/-- Service of the oldest request begins: this is the frame boundary (Table 18-4, steps 2-4). A claimed line of a
layer is waited for (R519). -/
def serviceStart (s : State) : State :=
  match s.cym.service, s.cym.reqs with
  | none, r :: rest =>
    let x := s.stream r.stream
    if !s.on domCYM ∨ (!r.decode ∧ s.claimedAny x.tenant x.layerReads) then s
    else
      let s := { s with cym := { s.cym with reqs := rest, service := some { req := r }, lastTenant := some x.tenant } }
      if r.decode then s
      else match readPicture r x.layerReads s with
        | (false, s) => dropPicture r s
        | (true, s) =>
          let looks := x.layersOn.map (fun l => (l, s.layerCopy x l))
          let idr := x.codesIdr r
          let copies := looks.foldl (fun t e => Tbl.put none t e.1 e.2.1) x.copies
          let v : CymService :=
            { req := r, idr := idr, canvas := x.compose (looks.map (fun e => (e.1, e.2.1)))
              repeated := layerSet ((looks.filter (fun e => e.2.2.1)).map (·.1))
              transparent := layerSet ((looks.filter (fun e => e.2.2.2)).map (·.1)) }
          let s := s.setStream r.stream { s.stream r.stream with
            copies := copies, keyReq := if idr then false else x.keyReq }
          { s with cym := { s.cym with service := some v } }
  | _, _ => s

/-- PICTURE_SERVICE_START (R533). -/
def execPictureServiceStart (s : State) : Result := .next (serviceStart s)

/-! ## The end of a picture (R535-R544) -/

/-- The registers of a stream that a picture depends on (R532). -/
def Stream.regs (x : Stream) : List Nat := [x.cfg.toNat, x.width.toNat, x.height.toNat]

/-- The words of the region list of an encode request (R536). -/
def State.roiWords (s : State) (x : Stream) (r : CymReq) : List Word :=
  (((List.range (ceilDiv (2 * r.roiCount) 16)).flatMap (fun k => (s.lineWords x.tenant (r.roiLine + k)).getD [])).take
    (2 * r.roiCount))

/-- The region of the region list of an encode request. -/
def CymReq.roiRegion (r : CymReq) : Nat × Nat := (72 * r.roiLine, 72 * ceilDiv (2 * r.roiCount) 16)

/-- The luma samples of a picture of the stream's size in bytes that begin with the Y plane. -/
def Stream.luma (x : Stream) (bs : List Byte) : Luma :=
  { w := x.width.toNat, h := x.height.toNat, samples := (List.range (x.samples 0)).map (x.sampleAt bs 0) }

/-- gmv of an encode request. -/
def CymReq.gmv (r : CymReq) : Vec := ((fldv (r.word 2) 18 18).toInt, (fldv (r.word 2) 0 18).toInt)

/-- The motion vectors of a picture: none of an IDR picture, and else one for each predicted block, found at the QP of
the CTB it begins in (R525, R536, R538). -/
def Stream.vectors (x : Stream) (r : CymReq) (qps : List Nat) (canvas : List Byte) (idr : Bool) : List Vec :=
  if idr then []
  else
    let w := x.width.toNat
    (Config.predictedBlocks qps canvas x.recon).map (fun b =>
      motionSearch (bit x.cfg 29) (x.luma canvas) (x.luma x.recon) r.gmv
        (qps.getD (b.1.2.1 / 64 * ctbs w + b.1.1 / 64) r.qp)
        { x := b.1.1, y := b.1.2.1, w := b.1.2.2.1, h := b.1.2.2.2, cands := b.2 })

/-- Word 0 of a result (Table 18-3). -/
def resultWord0 (status : Nat) (rep : BitVec 4) (transparent : BitVec 4) (idr : Bool) (pictures : Nat) : Word :=
  BitVec.ofNat 36 (status * 2 ^ 18 + (if rep ≠ 0 then 2 ^ 17 else 0) + (if idr then 2 ^ 16 else 0)
    + rep.toNat * 2 ^ 12 + transparent.toNat * 2 ^ 8 + pictures % 256)

/-- An encode in service ends: the access unit is written and the result follows (Table 18-4, steps 5-7). -/
def encodeDone (v : CymService) (s : State) : State :=
  let r := v.req
  let n := r.stream
  let x := s.stream n
  match readPicture r [r.roiRegion] s with
  | (false, s) => dropPicture r s
  | (true, s) =>
    let qps := qpMap r.qp x.width.toNat x.height.toNat (s.roiWords x r)
    let vs := x.vectors r qps v.canvas v.idr
    let au := Config.accessUnit x.regs r.words qps v.canvas x.recon vs v.idr
    let s := match s.job? r.job with
      | some j => if j.result.isSome then s else
          (writeOutput j j.outBytes au s).modJob r.job (fun j => { j with
            outBytes := j.outBytes + au.length, layerRep := j.layerRep || decide (v.repeated ≠ 0) })
      | none => s
    let s := s.setStream n { s.stream n with
      recon := Config.reconstruct x.regs r.words qps v.canvas x.recon vs v.idr
      first := false, sinceIdr := if v.idr then 0 else x.sinceIdr + 1, pics := x.pics + 1 }
    let s := answerPicture r [resultWord0 0 v.repeated v.transparent v.idr 1, r.word 1,
      BitVec.ofNat 36 (au.length % 2 ^ 32), 0, BitVec.ofNat 36 (Config.bytesMoved x.regs r.words)]
      { s with cym := { s.cym with service := none } }
    if v.repeated ≠ 0 then raise (224 + 4 * n + 1) s else s

/-- Bytes filled to whole lines. -/
def lineFill (bs : List Byte) : List Byte := bs ++ List.replicate ((72 - bs.length % 72) % 72) 0

/-- The bytes of a picture in its slot (R543). -/
def pictureBytes (b : Nat) (p : Pict) : List Byte :=
  let y := p.width * p.height * b
  let c := (p.width / 2) * (p.height / 2) * b
  lineFill (leBytes 4 p.poc.toNat ++ leBytes 2 p.width ++ leBytes 2 p.height ++ leBytes 1 p.depth
      ++ leBytes 1 (if p.idr then 1 else 0))
    ++ lineFill (slice p.planes 0 y) ++ lineFill (slice p.planes y c) ++ lineFill (slice p.planes (y + c) c)

/-- Write the oldest waiting picture of a stream to its output ring, while there is room and no line of the slot is
claimed (R519, R543). A slot without a valid entry fails the picture's job, whose request is answered as one whose read
failed (R156, log 90). -/
def outputOne (n : Nat) (s : State) : State :=
  let x := s.stream n
  match x.waiting with
  | [] => s
  | p :: rest =>
    let (a, len) := x.slotAt x.outWr
    if !x.enable ∨ x.outSlots.toNat ≤ (x.outWr - x.outRd).toNat ∨ s.claimedIn x.tenant a len then s
    else if !s.mapped x.tenant a len then
      let s := s.setStream n { x with waiting := [] }
      match s.cym.service with
      | some v => dropPicture v.req (fireJob (refusedFinding cymBlock a) v.req.job s)
      | none => s
    else
      let s := s.writeTen x.tenant a ((pictureBytes x.b p).take len)
      s.setStream n { x with waiting := rest, outWr := x.outWr + 1, pics := x.pics + 1 }

/-- Write waiting pictures, at most m. -/
def outputSome : Nat → Nat → State → State
  | 0, _, s => s
  | m + 1, n, s => outputSome m n (outputOne n s)

/-- Damage is found: the record, the result, the failed job and the stopped stream (R544). -/
def damage (v : CymService) (e : CymEnd) (cause off : Nat) (poc : BitVec 32) (s : State) : State :=
  let r := v.req
  let n := r.stream
  let num := s.cym.dmgNum + 1
  let s := { s with cym := { s.cym with
    service := none, dmgNum := num, dmgStream := BitVec.ofNat 3 n, dmgCause := BitVec.ofNat 8 cause
    dmgOff := BitVec.ofNat 32 off, dmgPoc := poc } }
  let s := s.setStream n { s.stream n with dmg := num }
  let s := answerPicture r [resultWord0 1 0 0 e.idr e.pictures, r.word 1, BitVec.ofNat 36 (e.consumed % 2 ^ 32),
    num.zeroExtend 36, BitVec.ofNat 36 e.moved] s
  let s := finishJob r.job stDamaged (num.toNat % 65536) s
  streamStop n 9 (raise (224 + 4 * n) s)

/-- The result of a decode request, once its pictures are all in the output ring (Table 18-4, step 7). -/
def decodeEnd (s : State) : State :=
  match s.cym.service with
  | none => s
  | some v =>
    match v.finish with
    | none => s
    | some e =>
      let r := v.req
      if !(s.stream r.stream).waiting.isEmpty then s
      else match e.damage with
        | some (cause, off, poc) => damage v e cause off poc s
        | none =>
          answerPicture r [resultWord0 0 0 0 e.idr e.pictures, r.word 1, BitVec.ofNat 36 (e.consumed % 2 ^ 32), 0,
            BitVec.ofNat 36 e.moved] { s with cym := { s.cym with service := none } }

/-- The bitstream of the decode request in service is decoded: its pictures go to the output ring while there is
room, and the result follows the last (R542-R544). -/
def decodeDone (v : CymService) (s : State) : State :=
  let r := v.req
  let n := r.stream
  let x := s.stream n
  let region := (72 * r.bsLine, r.bsLen)
  match readPicture r [region] s with
  | (false, s) => dropPicture r s
  | (true, s) =>
    let d := Config.decodeStream x.regs x.first x.recon ((s.readTen x.tenant region.1 region.2).getD [])
    let e : CymEnd := { pictures := d.pictures.length, consumed := d.consumed, idr := d.idr
                        moved := Config.bytesMoved x.regs r.words, damage := d.damage }
    let s := s.setStream n { s.stream n with first := false, recon := d.history, waiting := d.pictures }
    let s := { s with cym := { s.cym with service := some { v with finish := some e } } }
    decodeEnd (outputSome d.pictures.length n s)

/-- What a request's picture still reads of device memory: its bitstream, or its region list. -/
def CymReq.source (r : CymReq) : Nat × Nat := if r.decode then (72 * r.bsLine, r.bsLen) else r.roiRegion

/-- The picture in service is coded or decoded (R533), once no line it reads is claimed (R519). The access unit's
write needs the link. -/
def pictureDone (s : State) : State :=
  match s.cym.service with
  | none => s
  | some v =>
    if !s.on domCYM ∨ v.finish.isSome ∨ s.claimedAny (s.stream v.req.stream).tenant [v.req.source] then s
    else if v.req.decode then decodeDone v s
    else if s.linkOk (s.stream v.req.stream).tenant ∨ !((s.job? v.req.job).any (fun j => j.result.isNone)) then
      encodeDone v s
    else s

/-- PICTURE_DONE (R533). -/
def execPictureDone (s : State) : Result := .next (pictureDone s)

/-- PICTURE_OUTPUT (R543). -/
def execPictureOutput (n : Fin 8) (s : State) : Result :=
  .next (if s.on domCYM then decodeEnd (outputOne n s) else s)

end Sys2Proof.Machine
end

