-- ==== Sys2Proof/Machine/Faults.lean ====
section
/-!
DEFINITION. The commands of chapter 20: on-die store parity, the bell-core watchdog and the card halt, the fault
counters, and the firmware mailbox.
-/
namespace Sys2Proof.Machine

/-- The FLT_ window. -/
def baseFLT : Nat := 0x1100000

/-! ## On-die stores (R572) -/

/-- The job that Intake, Paradiddle, the Damper or Cymbal is serving; for Intake, which may serve several, the outside
says which store failed by naming its job. -/
def State.servedJob (s : State) (unit job : Nat) : Option Nat :=
  if unit = 0 then (if (s.job? job).any (fun j => j.result.isNone && (j.sampleDue || j.loadDue)) then some job else none)
  else if unit = 1 then (if s.tok.serving then s.tok.streams.head?.map (·.job) else none)
  else if unit = 2 then s.tok.damps.head?.map (·.job)
  else s.cym.service.map (·.req.job)

/-- Zero the store: the next service reloads it (R163, R572). A picture in service is abandoned and answered as one
whose read failed (log 90). -/
def zeroStore (unit : Nat) (s : State) : State :=
  if unit = 0 then { s with ink := { s.ink with lastTenant := none, store := [] } }
  else if unit = 1 then cleanStreams { s with tok := { s.tok with onDie := none, set := {} } }
  else if unit = 2 then { s with tok := { s.tok with dampOn := none, dampSet := {}, dampGram := {} } }
  else
    let s := match s.cym.service with
      | some v => dropPicture v.req s
      | none => s
    { s with cym := { s.cym with lastTenant := none } }

/-- A parity error in an on-die store fails the job being served (R572). -/
def storeParity (unit : Nat) (addr : BitVec 32) (job : Nat) (s : State) : State :=
  let f : Finding := { detector := 0x0D, level := lvlJob, location := unit, info0 := addr.toNat }
  let d := if unit = 0 then domFRONT else if unit = 3 then domCYM else domTOK
  let s := if unit = 1 then cleanStreams s else s
  if !s.on d then s
  else zeroStore unit (match s.servedJob unit job with
    | some j => fireJob f j s
    | none => fire f s)

/-- STORE_PARITY_ERROR (R572). -/
def execStoreParityError (unit : Fin 4) (addr : BitVec 32) (job : Nat) (s : State) : Result :=
  .next (storeParity unit addr job s)

/-! ## Bell-core watchdog and halt (R582, R583) -/

/-- A job that waits for the head's tag on core c is checked again after the restart (R582). -/
def recheck (c : Nat) (s : State) : State :=
  { s with rings := s.rings.foldl (fun t e => Tbl.put {} t e.1
      (if coreOf (e.1 / 8) = c then { e.2 with inflight := e.2.inflight.map (fun d =>
        match d.st with
        | .spanWait _ => { d with st := .fetched }
        | _ => d) } else e.2)) [] }

/-- The card halts (R583). -/
def halt (c : Nat) (s : State) : State :=
  let s := stopAll s
  let victims := s.live
  let n := s.flt.next.toNat
  let s := { s with flt := { s.flt with halted := true } }
  let s := fire { detector := 0x14, level := lvlCard, location := c } s
  failJobs victims n s

/-- Core c's watchdog fires: the core is reset; the third firing of one core within 1 s halts the card. -/
def bellWatchdog (c : Nat) (s : State) : State :=
  if !s.firmware c then s
  else
    let ts := (s.bell c).resets.filter (fun t => decide (s.now < t + ticksPerSecond)) ++ [s.now]
    let s := fire { detector := 0x0E, level := lvlCore, location := c, info0 := ts.length } s
    let s := setCause 4 (s.setBell c { running := false, resets := ts })
    let s := recheck c (releaseClaims c s)
    if 3 ≤ ts.length ∧ !s.flt.halted then halt c s else s

/-- BELL_WATCHDOG_EXPIRE (R582). -/
def execBellWatchdogExpire (c : Fin 4) (s : State) : Result := .next (bellWatchdog c s)

/-- The firmware restarts on core c within 2 ms (R582). -/
def bellRestart (c : Nat) (s : State) : State :=
  if s.on domMGT ∧ s.boot.stage = .running then s.setBell c { s.bell c with running := true } else s

/-- BELL_CORE_RESTART (R582). -/
def execBellCoreRestart (c : Fin 4) (s : State) : Result := .next (bellRestart c s)

/-! ## Counters (R578-R580) -/

/-- A write of FLT_CTL (R578, R593). -/
def fltCtl (q : Requester) (v : BitVec 32) (s : State) : State :=
  if !bit v 0 then s
  else if !keyed v then regError q (baseFLT + 8) s
  else { s with flt := { s.flt with cnt := [], tileHw := [] } }

/-- CLEAR_COUNTS (R578). -/
def execClearCounts (q : Requester) (v : BitVec 32) (s : State) : Result :=
  .next (regWrite q (.blk (baseFLT + 8)) (fltCtl q v) s)

/-- FLT_REGERR: reading clears it (R580). -/
def regerrCount (s : State) : Reg × State := (s.flt.regerr, { s with flt := { s.flt with regerr := 0 } })

/-- REGERR_READ (R580). -/
def execRegerrRead (q : Requester) (s : State) : Result := .next (regRead q (.blk (baseFLT + 0x10)) regerrCount s)

/-! ## Firmware mailbox (R587-R589) -/

/-- The slot that is not running; in recovery, when none runs, the one that is not active (log 102). -/
def State.stagedSlot (s : State) : Bool := if s.boot.stage = .recovery then !s.boot.activeB else !s.boot.slotB

/-- Change slot A (false) or B (true). -/
def State.setSlot (s : State) (b : Bool) (x : Slot) : State :=
  if b then { s with boot := { s.boot with imgB := x } } else { s with boot := { s.boot with imgA := x } }

/-- The running firmware, or the boot ROM in recovery, answers the mailbox (R587). -/
def State.mailbox (s : State) : Bool := decide (s.boot.stage = .running) || decide (s.boot.stage = .recovery)

/-- A write of FLT_FW_DATA stores 4 bytes into the staged slot (R587). -/
def fwData (v : BitVec 32) (s : State) : State :=
  if !s.mailbox then s
  else
    let b := s.stagedSlot
    let a := s.boot.fwAddr.toNat * 4
    let x := s.slot b
    let s := s.setSlot b { x with written := true, staged := x.staged.putAll none a ((leBytes 4 v.toNat).map some) }
    { s with boot := { s.boot with fwAddr := s.boot.fwAddr + 1 } }

/-- FW_DATA_WRITE (R587). -/
def execFwDataWrite (q : Requester) (v : BitVec 32) (s : State) : Result :=
  .next (regWrite q (.blk (baseFLT + 0x8008)) (fwData v) s)

/-- The fused minimum rises to the number of the running image (R589). -/
def raiseMinimum (s : State) : State :=
  if s.boot.stage = .running then
    { s with boot := { s.boot with fusedArb := max s.boot.fusedArb ((s.slot s.boot.slotB).check).arb } }
  else s

/-- A write of FLT_FW_CTL (R588, R589, R593): the fused minimum rises on the command of PF0 alone (R124, log 124). -/
def fwCtl (q : Requester) (v : BitVec 32) (s : State) : State :=
  if !bit v 0 && !bit v 1 then s
  else if !keyed v then regError q (baseFLT + 0x8000) s
  else if !s.mailbox then s
  else
    let s := if bit v 1 && decide (q = .fn 0) then raiseMinimum s else s
    if bit v 0 then { s with boot := { s.boot with fwBusy := true } } else s

/-- FW_COMMIT (R588). -/
def execFwCommit (q : Requester) (v : BitVec 32) (s : State) : Result :=
  .next (regWrite q (.blk (baseFLT + 0x8000)) (fwCtl q v) s)

/-- RAISE_ARB (R589). -/
def execRaiseArb (q : Requester) (v : BitVec 32) (s : State) : Result :=
  .next (regWrite q (.blk (baseFLT + 0x8000)) (fwCtl q v) s)

/-- The check of the staged image ends: the slot becomes active, or the failure is reported (R588). -/
def fwCheckDone (s : State) : State :=
  if !s.boot.fwBusy then s
  else
    let b := s.stagedSlot
    let e := s.slotFailure b
    { s with boot := { s.boot with
        fwBusy := false, fwStatus := BitVec.ofNat 4 e, activeB := if e = 0 then b else s.boot.activeB } }

/-- FW_CHECK_DONE (R588). -/
def execFwCheckDone (s : State) : Result := .next (fwCheckDone s)

end Sys2Proof.Machine
end

