-- ==== Sys2Proof/Machine/Gong.lean ====
section
/-!
DEFINITION. The Gong's grant of a request that has waited at its port (R207, R209, R215, R216).
-/
namespace Sys2Proof.Machine

/-- A waiting request goes on with its stamp (Table 7-1). -/
def granted (e : GongRequest) (s : State) : State :=
  match e with
  | .source n => raise n s
  | .completion t r => completeHead t r s
  | .marker t r => epochMarker t r s
  | .send src => sendWaiting src s
  | .stamp i => stampStep i s

/-- A request that waits may be granted: it is the oldest at its port, and its port may go before the others that wait
(R215). -/
def State.grantable (s : State) (e : GongRequest) : Bool :=
  (s.atPort e).head? == some e && s.gongFree (gongPort e)

/-- The Gong grants one of the requests held at its ports (R207, R209, R215, R216). -/
def gongGrant (e : GongRequest) (s : State) : State :=
  if s.on domMGT ∧ s.grantable e then
    granted e (gongPassed (gongPort e) { s with gng := { s.gng with held := s.gng.held.erase e } })
  else s

/-- GONG_GRANT (R207). -/
def execGongGrant (e : GongRequest) (s : State) : Result := .next (gongGrant e s)

end Sys2Proof.Machine
end

