-- ==== Sys2Proof/Machine/TileMatrix.lean ====
section
/-!
DEFINITION. The matrix instructions of a tile and the quantise unit (R312-R316, R334-R347).
-/
namespace Sys2Proof.Machine

/-- The S36 limits (R314). -/
def sat36 (v : Int) : Word × Bool :=
  if v > 34359738367 then (BitVec.ofInt 36 34359738367, true)
  else if v < -34359738368 then (BitVec.ofInt 36 (-34359738368), true)
  else (BitVec.ofInt 36 v, false)

/-- An MMA or OMA input: N9, or U8 minus the zero point (R312, R334). -/
def inputValue (zpen : Bool) (z : Nat) (n : Nonet) : Int :=
  if zpen then ((n.toNat % 256 : Nat) : Int) - (z : Nat) else n.toInt

/-- The inputs of row r: 32 nonets at a + 32r. -/
def inputRow (w : Word) (x : Tile) (r : Nat) : List Int :=
  (x.scratch ((x.reg (wM1 w)).toNat + 32 * r) 32).map
    (inputValue (bit w 17) (fld (x.reg (fld w 12 5)) 0 8))

/-- The exact sum of products. -/
def dot (xs ws : List Int) : Int := (List.zipWith (· * ·) xs ws).sum

/-- Add one row of sums to row r of a_d, counting the elements that saturate (R314, R336). -/
def addRow (d : Nat) (clr : Bool) (r : Nat) (sums : List Int) (x : Tile) : Tile × Nat :=
  let old := x.accRow d r
  let new := List.zipWith (fun (a : Word) v => sat36 ((if clr then 0 else a.toInt) + v)) old sums
  (x.setAccRow d r (new.map (·.1)), new.countP (·.2))

/-- Do something to rows 0 to n − 1, adding up what each counts. -/
def forRows (n : Nat) (f : Nat → Tile → Tile × Nat) (x : Tile) : Tile × Nat :=
  (List.range n).foldl (fun acc r => let y := f r acc.1; (y.1, acc.2 + y.2)) (x, 0)

/-- WLD (R314). -/
def wld (w : Word) (x : Tile) : TileOut :=
  let a := (x.reg (wM1 w)).toNat
  if wM2 w ≠ 0 ∨ wMfn w / 2 ≠ 0 then .fault 0x11
  else x.access [{ write := false, addr := a, n := 1024, align := 64 }]
    (.done { x with w := x.w.putAll 0 (1024 * (wMfn w % 2)) (x.scratch a 1024) } [])

/-- MMA (R312): one pace handshake per row (R294). -/
def mma (w : Word) (x : Tile) : TileOut :=
  let n := wRows w
  let b := fld w 1 1
  if wM2 w ≠ 0 ∨ 32 < wR0 w + n then .fault 0x11
  else x.access [{ write := false, addr := (x.reg (wM1 w)).toNat, n := 32 * n, align := 8 }]
    (let out := forRows n (fun r y =>
      let xs := inputRow w x r
      addRow (wAd w) (bit w 0) (wR0 w + r)
        ((List.range 32).map (fun j => dot xs ((List.range 32).map (fun k => x.weight b k j)))) y) x
    .done { out.1 with pace := x.pace + BitVec.ofNat 48 n, recent := x.recent + n } [(15, out.2)])

/-- OMA (R313): the outlier lane adds into one column. -/
def oma (w : Word) (x : Tile) : TileOut :=
  let n := wRows w
  let wa := fld (x.reg (wM2 w)) 0 18
  let j := fld (x.reg (wM2 w)) 18 5
  if wMfn w % 4 ≠ 0 ∨ 32 < wR0 w + n then .fault 0x11
  else x.access [{ write := false, addr := (x.reg (wM1 w)).toNat, n := 32 * n, align := 8 },
                 { write := false, addr := wa, n := 64, align := 64 }]
    (let ws := (List.range 32).map (fun k =>
        (BitVec.ofNat 18 (Fmt.s18.element (x.scratch wa 64) k)).toInt)
    let out := forRows n (fun r y =>
      addRow (wAd w) false (wR0 w + r)
        ((List.range 32).map (fun c => if c = j then dot (inputRow w x r) ws else 0)) y) x
    .done out.1 [(15, out.2)])

/-- AZR. -/
def azr (w : Word) (x : Tile) : TileOut :=
  if wM1 w ≠ 0 ∨ wM2 w ≠ 0 ∨ wMfn w ≠ 0 then .fault 0x11
  else .done { x with acc := x.acc.filter (fun e => e.1 / 1024 != wAd w) } []

/-- ALD (R314). -/
def ald (w : Word) (x : Tile) : TileOut :=
  let n := wRows w
  let a := (x.reg (wM1 w)).toNat
  if 32 < wR0 w + n then .fault 0x11
  else x.access [{ write := false, addr := a, n := 128 * n, align := 4 }]
    (.done (forRows n (fun r y =>
      (y.setAccRow (wAd w) (wR0 w + r) ((List.range 32).map (fun j => x.scratchWord (a + 128 * r + 4 * j))), 0)) x).1 [])

/-- AST (R314). -/
def ast (w : Word) (x : Tile) : TileOut :=
  let n := wRows w
  let a := (x.reg (wM1 w)).toNat
  if 32 < wR0 w + n then .fault 0x11
  else x.access [{ write := true, addr := a, n := 128 * n, align := 4 }]
    (.done (forRows n (fun r y =>
      (y.setScratch (a + 128 * r) (wordsNonets (x.accRow (wAd w) (wR0 w + r))), 0)) x).1 [])

/-! ## The quantise unit -/

/-- The formats QNT writes and the stride of their rows (R315). -/
def qntStride : Fmt → Option Nat
  | .n9 | .s8 | .e4m3 | .e5m2 => some 32
  | .s18 | .f18 => some 64
  | .f36 => some 128
  | .s4 => some 16
  | _ => none

/-- v of the float rescale (R340, R342). -/
def rescaleFloat (a : Word) (chan : Nonet) (s2 bias : Nat) : Val :=
  Val.add (Val.mul (Val.mul (.ofInt a.toInt) (sc8 chan)) (Fmt.f36.value s2)) (Fmt.f36.value bias)

/-- v of the folded rescale (R344). -/
def rescaleFolded (a : Word) (chan : Nonet) (bias : Nat) : Val :=
  let v := a.toInt + (BitVec.ofNat 36 bias).toInt
  .fin (decide (v < 0)) v.natAbs (-(fld chan 0 6 : Int))

/-- QNT (R315, R337-R345). -/
def qnt (w : Word) (x : Tile) : TileOut :=
  let n := fld w 2 5 + 1
  let folded := bit w 13
  let out := (x.reg (wM1 w)).toNat
  let pb := (x.reg (wM2 w)).toNat
  match Fmt.ofCode (fld w 14 4) with
  | none => .fault 0x11
  | some f =>
    match qntStride f with
    | none => .fault 0x11
    | some stride =>
      if folded && f.float?.isSome then .fault 0x11
      else x.access [{ write := false, addr := pb, n := 192, align := 64 },
                     { write := true, addr := out, n := stride * n }]
        (let p := x.scratch pb 192
        let chan (j : Nat) : Nonet := p.getD j 0
        if folded && (List.range 32).any (fun j => fld (chan j) 6 2 != 0) then .fault 0x11
        else
          let s2 := Fmt.f36.element (p.drop 32) 0
          let bias (j : Nat) := Fmt.f36.element (p.drop 64) j
          let res := forRows n (fun r y =>
            let cs := List.zipWith (fun (a : Word) j =>
              f.convert (bit w 12) (bit w 11)
                (if folded then rescaleFolded a (chan j) (bias j) else rescaleFloat a (chan j) s2 (bias j)))
              (x.accRow (wAd w) r) (List.range 32)
            let codes := cs.map (·.1) ++ (if f = .s4 then [0, 0, 0, 0] else [])
            (y.setScratch (out + stride * r) (f.nonets codes), cs.countP (·.2))) x
          .done res.1 [(fld w 7 4, res.2)])

def execWld (i : Fin 1024) (s : State) : Result := .next (tileRun 0x2C i wld s)
def execMma (i : Fin 1024) (s : State) : Result := .next (tileRun 0x2D i mma s)
def execOma (i : Fin 1024) (s : State) : Result := .next (tileRun 0x2E i oma s)
def execAzr (i : Fin 1024) (s : State) : Result := .next (tileRun 0x2F i azr s)
def execAld (i : Fin 1024) (s : State) : Result := .next (tileRun 0x30 i ald s)
def execAst (i : Fin 1024) (s : State) : Result := .next (tileRun 0x31 i ast s)
def execQnt (i : Fin 1024) (s : State) : Result := .next (tileRun 0x32 i qnt s)

end Sys2Proof.Machine
end

