-- ==== Sys2Proof/Machine/TileScalar.lean ====
section
/-!
DEFINITION. The scalar instructions of a tile: arithmetic, loads and stores, branches (R306-R308). Each
command runs the instruction at its tile's pc.
-/
namespace Sys2Proof.Machine

/-- The R format with fn = 0: g[rd] from g[rs1] and g[rs2]. -/
def aluR (f : Word → Word → Word) (w : Word) (x : Tile) : TileOut :=
  if wFn w ≠ 0 then .fault 0x11
  else .done (x.setReg (wRd w) (f (x.reg (wRs1 w)) (x.reg (wRs2 w)))) []

/-- The I format: g[rd] from g[rs1] and an immediate. -/
def aluI (f : Word → Word → Word) (imm : Word → Word) (w : Word) (x : Tile) : TileOut :=
  .done (x.setReg (wRd w) (f (x.reg (wRs1 w)) (imm w))) []

/-- A shift by an immediate from 0 to 63 (R306). -/
def shiftI (f : Word → Nat → Word) (w : Word) (x : Tile) : TileOut :=
  if 63 < wImm w then .fault 0x11 else .done (x.setReg (wRd w) (f (x.reg (wRs1 w)) (wImm w))) []

/-- The shifts; by 36 or more they give 0, or copies of bit 35 (R307). -/
def sllW (a : Word) (n : Nat) : Word := a <<< n
def srlW (a : Word) (n : Nat) : Word := a >>> n
def sraW (a : Word) (n : Nat) : Word := a.sshiftRight n
/-- The shift count g[rs2][5:0]. -/
def shAmt (b : Word) : Nat := fld b 0 6

def boolW (b : Bool) : Word := if b then 1 else 0

def execAdd (i : Fin 1024) (s : State) : Result := .next (tileRun 0x01 i (aluR (· + ·)) s)
def execSub (i : Fin 1024) (s : State) : Result := .next (tileRun 0x02 i (aluR (· - ·)) s)
def execAnd (i : Fin 1024) (s : State) : Result := .next (tileRun 0x03 i (aluR (· &&& ·)) s)
def execOr (i : Fin 1024) (s : State) : Result := .next (tileRun 0x04 i (aluR (· ||| ·)) s)
def execXor (i : Fin 1024) (s : State) : Result := .next (tileRun 0x05 i (aluR (· ^^^ ·)) s)
def execSll (i : Fin 1024) (s : State) : Result := .next (tileRun 0x06 i (aluR (fun a b => sllW a (shAmt b))) s)
def execSrl (i : Fin 1024) (s : State) : Result := .next (tileRun 0x07 i (aluR (fun a b => srlW a (shAmt b))) s)
def execSra (i : Fin 1024) (s : State) : Result := .next (tileRun 0x08 i (aluR (fun a b => sraW a (shAmt b))) s)
def execMul (i : Fin 1024) (s : State) : Result := .next (tileRun 0x09 i (aluR (· * ·)) s)
def execSlt (i : Fin 1024) (s : State) : Result := .next (tileRun 0x0A i (aluR (fun a b => boolW (a.slt b))) s)
def execSltu (i : Fin 1024) (s : State) : Result := .next (tileRun 0x0B i (aluR (fun a b => boolW (a.ult b))) s)
def execAddi (i : Fin 1024) (s : State) : Result := .next (tileRun 0x0C i (aluI (· + ·) wSimm) s)
def execAndi (i : Fin 1024) (s : State) : Result := .next (tileRun 0x0D i (aluI (· &&& ·) wUimm) s)
def execOri (i : Fin 1024) (s : State) : Result := .next (tileRun 0x0E i (aluI (· ||| ·) wUimm) s)
def execXori (i : Fin 1024) (s : State) : Result := .next (tileRun 0x0F i (aluI (· ^^^ ·) wUimm) s)
def execSlli (i : Fin 1024) (s : State) : Result := .next (tileRun 0x10 i (shiftI sllW) s)
def execSrli (i : Fin 1024) (s : State) : Result := .next (tileRun 0x11 i (shiftI srlW) s)
def execSrai (i : Fin 1024) (s : State) : Result := .next (tileRun 0x12 i (shiftI sraW) s)

/-- LUI: g[rd] = imm × 2^11. -/
def lui (w : Word) (x : Tile) : TileOut :=
  .done (x.setReg (wRd w) (BitVec.ofNat 36 (wImm25 w * 2048))) []

def execLui (i : Fin 1024) (s : State) : Result := .next (tileRun 0x13 i lui s)

/-- The address g[rs1] + imm of a load or store. -/
def loadAddr (w : Word) (x : Tile) : Nat := (x.reg (wRs1 w) + wSimm w).toNat

/-- A load of one nonet, extended as `ext` says. -/
def loadNonet (ext : Nonet → Word) (w : Word) (x : Tile) : TileOut :=
  let a := loadAddr w x
  x.access [{ write := false, addr := a, n := 1 }]
    (.done (x.setReg (wRd w) (ext (x.scr.find 0 a))) [])

/-- LDW. -/
def loadWord (w : Word) (x : Tile) : TileOut :=
  let a := loadAddr w x
  x.access [{ write := false, addr := a, n := 4, align := 4 }]
    (.done (x.setReg (wRd w) (x.scratchWord a)) [])

/-- STN: the rd field names the source. -/
def storeNonet (w : Word) (x : Tile) : TileOut :=
  let a := loadAddr w x
  x.access [{ write := true, addr := a, n := 1 }]
    (.done (x.setScratch a [(x.reg (wRd w)).extractLsb' 0 9]) [])

/-- STW. -/
def storeWord (w : Word) (x : Tile) : TileOut :=
  let a := loadAddr w x
  x.access [{ write := true, addr := a, n := 4, align := 4 }]
    (.done (x.setScratch a (wordNonets (x.reg (wRd w)))) [])

def execLdn (i : Fin 1024) (s : State) : Result := .next (tileRun 0x14 i (loadNonet (·.signExtend 36)) s)
def execLdnu (i : Fin 1024) (s : State) : Result := .next (tileRun 0x15 i (loadNonet (·.zeroExtend 36)) s)
def execLdw (i : Fin 1024) (s : State) : Result := .next (tileRun 0x16 i loadWord s)
def execStn (i : Fin 1024) (s : State) : Result := .next (tileRun 0x17 i storeNonet s)
def execStw (i : Fin 1024) (s : State) : Result := .next (tileRun 0x18 i storeWord s)

/-- A branch: pc + imm where the condition holds, else the next instruction (R306, R308). -/
def branch (c : Word → Word → Bool) (w : Word) (x : Tile) : TileOut :=
  if c (x.reg (wB1 w)) (x.reg (wB2 w)) then .jump x (x.pc.toNat + (wSimm w).toInt) else .done x []

def execBeq (i : Fin 1024) (s : State) : Result := .next (tileRun 0x19 i (branch (fun a b => decide (a = b))) s)
def execBne (i : Fin 1024) (s : State) : Result := .next (tileRun 0x1A i (branch (fun a b => decide (a ≠ b))) s)
def execBlt (i : Fin 1024) (s : State) : Result := .next (tileRun 0x1B i (branch (fun a b => a.slt b)) s)
def execBge (i : Fin 1024) (s : State) : Result := .next (tileRun 0x1C i (branch (fun a b => !a.slt b)) s)
def execBltu (i : Fin 1024) (s : State) : Result := .next (tileRun 0x1D i (branch (fun a b => a.ult b)) s)
def execBgeu (i : Fin 1024) (s : State) : Result := .next (tileRun 0x1E i (branch (fun a b => !a.ult b)) s)

/-- The link value pc + 1. -/
def linkValue (x : Tile) : Word := BitVec.ofNat 36 (x.pc.toNat + 1)

/-- JAL. -/
def jal (w : Word) (x : Tile) : TileOut :=
  if wRs1 w ≠ 0 then .fault 0x11
  else .jump (x.setReg (wRd w) (linkValue x)) (x.pc.toNat + (wSimm w).toInt)

/-- JR: the target is g[rs1] + imm modulo 2^36 (R307). -/
def jr (w : Word) (x : Tile) : TileOut :=
  .jump (x.setReg (wRd w) (linkValue x)) (x.reg (wRs1 w) + wSimm w).toNat

def execJal (i : Fin 1024) (s : State) : Result := .next (tileRun 0x1F i jal s)
def execJr (i : Fin 1024) (s : State) : Result := .next (tileRun 0x20 i jr s)

/-- NOP: every field is ignored. -/
def nop (_ : Word) (x : Tile) : TileOut := .done x []

def execNopTile (i : Fin 1024) (s : State) : Result := .next (tileRun 0x3F i nop s)

/-- Opcode 0x00. -/
def illegal (_ : Word) (_ : Tile) : TileOut := .fault 0x10

def execIllegalOpcode (i : Fin 1024) (s : State) : Result := .next (tileRun 0x00 i illegal s)

end Sys2Proof.Machine
end

