-- ==== Sys2Proof/Machine/TileVector.lean ====
section
/-!
DEFINITION. The vector instructions of a tile (R309-R311).
-/
namespace Sys2Proof.Machine

/-- VLD. -/
def vld (w : Word) (x : Tile) : TileOut :=
  let a := (x.reg (wVrs w)).toNat
  if wVfn w ≠ 0 then .fault 0x11
  else x.access [{ write := false, addr := a, n := 64, align := 8 }]
    (.done (x.setVec (wVd w) (x.scratch a 64)) [])

/-- VST. -/
def vst (w : Word) (x : Tile) : TileOut :=
  let a := (x.reg (wVrs w)).toNat
  if wVfn w ≠ 0 then .fault 0x11
  else x.access [{ write := true, addr := a, n := 64, align := 8 }]
    (.done (x.setScratch a (x.vec (wVs1 w))) [])

/-- The formats of the arithmetic opcodes, VBC, VRED and VMSK (R309). -/
def vecFmt (w : Word) : Option Fmt :=
  match Fmt.ofCode (wVfmt w) with
  | some f => if f = .n9 ∨ f = .s18 ∨ f = .s36 ∨ f = .f18 ∨ f = .f36 then some f else none
  | none => none

/-- The codes of a vector register. -/
def Tile.codes (x : Tile) (f : Fmt) (v : Nat) : List Nat := (List.range f.elements).map (f.element (x.vec v))

/-- An element-wise operation whose results are stored and counted in the slot (R310). -/
def vecArith (op : Val → Val → Val) (w : Word) (x : Tile) : TileOut :=
  match vecFmt w with
  | none => .fault 0x11
  | some f =>
    let rs := List.zipWith (fun a b => f.store (wVrnd w) (op (f.value a) (f.value b)))
      (x.codes f (wVs1 w)) (x.codes f (wVs2 w))
    .done (x.setVec (wVd w) (f.nonets (rs.map (·.1)))) [(wVslot w, rs.countP (·.2))]

/-- The larger or smaller of two codes: the other operand when one is NaN (R310). -/
def pick (f : Fmt) (larger : Bool) (a b : Nat) : Nat :=
  match f.value a, f.value b with
  | .nan, .nan => f.nanCode
  | .nan, _ => b
  | _, .nan => a
  | va, vb => if (if larger then va.below vb else vb.below va) then b else a

/-- VMAX and VMIN. -/
def vecPick (larger : Bool) (w : Word) (x : Tile) : TileOut :=
  match vecFmt w with
  | none => .fault 0x11
  | some f =>
    .done (x.setVec (wVd w)
      (f.nonets (List.zipWith (pick f larger) (x.codes f (wVs1 w)) (x.codes f (wVs2 w))))) []

/-- VBC. -/
def vbc (w : Word) (x : Tile) : TileOut :=
  match vecFmt w with
  | none => .fault 0x11
  | some f =>
    .done (x.setVec (wVd w) (f.nonets (List.replicate f.elements
      ((x.reg (wVrs w)).toNat % 2 ^ f.bits)))) []

/-- The index and code of the first maximum of a list of codes; a NaN counts below every number (R310). -/
def firstMax (f : Fmt) : Nat → Nat × Nat → List Nat → Nat × Nat
  | _, best, [] => best
  | e, best, c :: cs =>
    firstMax f (e + 1) (if (f.value best.2).below (f.value c) then (e, c) else best) cs

/-- VRED: the sum, the maximum or the index of the first maximum; another sub is an illegal operand. A sum
saturates to its element format (log 36). -/
def vred (w : Word) (x : Tile) : TileOut :=
  match vecFmt w with
  | none => .fault 0x11
  | some f =>
    let cs := x.codes f (wVs1 w)
    let put (c : Nat) := x.setReg (wVrs w) (BitVec.ofNat 36 c)
    let m := firstMax f 0 (0, cs.headD 0) cs
    if wVsub w = 0 then
      let r := f.store (wVrnd w) (Val.sum (cs.map f.value))
      .done (put r.1) [(wVslot w, if r.2 then 1 else 0)]
    else if wVsub w = 1 then .done (put (if f.value m.2 = .nan then f.nanCode else m.2)) []
    else if wVsub w = 2 then .done (put m.1) []
    else .fault 0x11

/-- The format's most negative value (R310). -/
def Fmt.lowest (f : Fmt) : Nat :=
  if f.float?.isSome then f.signed true f.infCode else f.intCode f.range.1

/-- VMSK: elements of the part whose bit of g[rs] is 0 take the lowest value; the others are copied. -/
def vmsk (w : Word) (x : Tile) : TileOut :=
  match vecFmt w with
  | none => .fault 0x11
  | some f =>
    let p := wVsub w % 2
    let m := x.reg (wVrs w)
    let out := (x.codes f (wVs1 w)).mapIdx (fun e c =>
      if 32 * p ≤ e ∧ e ≤ 32 * p + 31 ∧ !bit m (e - 32 * p) then f.lowest else c)
    .done (x.setVec (wVd w) (f.nonets out)) []

/-- Replace part of a list. -/
def splice {α : Type} (l : List α) (at_ : Nat) (new : List α) : List α :=
  l.take at_ ++ new ++ l.drop (at_ + new.length)

/-- Replace 16 elements of a vector register from element e on; the others keep their bits. -/
def spliceElements (f : Fmt) (ns : List Nonet) (e : Nat) (cs : List Nat) : List Nonet :=
  if f = .s4 then f.nonets (splice ((List.range f.elements).map (f.element ns)) e cs)
  else splice ns (e * f.elementNonets) (f.nonets cs)

/-- VCVT (R311). -/
def vcvt (w : Word) (x : Tile) : TileOut :=
  match Fmt.ofCode (wVs2 w), Fmt.ofCode (wVfmt w) with
  | some src, some tgt =>
    let p := wVsub w % 4
    if !tilePair src tgt then .fault 0x11
    else if (src.elements = 32 ∨ tgt.elements = 32) ∧ 2 ≤ p then .fault 0x11
    else
      let sb := if src.elements > 16 then 16 * p else 0
      let tb := if tgt.elements > 16 then 16 * p else 0
      let rs := (List.range 16).map (fun e =>
        convertCode src tgt (wVrnd w) (wVovf w) (src.element (x.vec (wVs1 w)) (sb + e)))
      .done (x.setVec (wVd w) (spliceElements tgt (x.vec (wVd w)) tb (rs.map (·.1))))
        [(wVslot w, rs.countP (·.2))]
  | _, _ => .fault 0x11

def execVld (i : Fin 1024) (s : State) : Result := .next (tileRun 0x21 i vld s)
def execVst (i : Fin 1024) (s : State) : Result := .next (tileRun 0x22 i vst s)
def execVadd (i : Fin 1024) (s : State) : Result := .next (tileRun 0x23 i (vecArith Val.add) s)
def execVsub (i : Fin 1024) (s : State) : Result :=
  .next (tileRun 0x24 i (vecArith (fun a b => Val.add a b.neg)) s)
def execVmul (i : Fin 1024) (s : State) : Result := .next (tileRun 0x25 i (vecArith Val.mul) s)
def execVmax (i : Fin 1024) (s : State) : Result := .next (tileRun 0x26 i (vecPick true) s)
def execVmin (i : Fin 1024) (s : State) : Result := .next (tileRun 0x27 i (vecPick false) s)
def execVbc (i : Fin 1024) (s : State) : Result := .next (tileRun 0x28 i vbc s)
def execVred (i : Fin 1024) (s : State) : Result := .next (tileRun 0x29 i vred s)
def execVmsk (i : Fin 1024) (s : State) : Result := .next (tileRun 0x2A i vmsk s)
def execVcvt (i : Fin 1024) (s : State) : Result := .next (tileRun 0x2B i vcvt s)

end Sys2Proof.Machine
end

