-- ==== Sys2Proof/Machine/Woodblock.lean ====
section
/-!
DEFINITION. The commands of the Woodblock (14).
-/
namespace Sys2Proof.Machine

/-- The WBK_ blocks of position counter p and of channel k. -/
def basePOS (p : Nat) : Nat := 0x700010 + 0x10 * p
def baseCH (k : Nat) : Nat := 0x700100 + 0x20 * k

/-! ## Time -/

/-- The time counter passes from its largest value to 0 (R413). -/
def timeWrap (s : State) : State :=
  if s.on domMGT ∧ s.wbk.time = BitVec.allOnes 40 then
    raise 84 { s with wbk := { s.wbk with
      time := 0, wrap := s.wbk.wrap + 1, ch := s.wbk.ch.update {} (fun _ x => { x with matched := false }) } }
  else s

/-- TIME_WRAP (R413). -/
def execTimeWrap (s : State) : Result := .next (timeWrap s)

/-- A read of WBK_TIME_LO latches the high part (R414). -/
def timeRead (s : State) : Reg × State :=
  (s.wbk.time.extractLsb' 0 32, { s with wbk := { s.wbk with timeHi := s.wbk.time.extractLsb' 32 8 } })

/-- WBK_TIME_READ (R414). -/
def execWbkTimeRead (q : Requester) (s : State) : Result := .next (regRead q (.blk 0x700000) timeRead s)

/-! ## Position counters -/

/-- The inputs of POSp take new levels (R415, R416). -/
def posCount (p : Nat) (a b : Bool) (s : State) : State := pinLevels [(16 + 2 * p, a), (17 + 2 * p, b)] s

/-- POS_COUNT (R416). -/
def execPosCount (p : Fin 4) (a b : Bool) (s : State) : Result := .next (posCount p a b s)

/-- A read of WBK_POSq_ERR clears its count. -/
def posErrRead (p : Nat) (s : State) : Reg × State :=
  ((s.pos p).err.zeroExtend 32, s.setPos p { s.pos p with err := 0 })

/-- POS_ERR_READ (R417). -/
def execPosErrRead (q : Requester) (p : Fin 4) (s : State) : Result :=
  .next (regRead q (.blk (basePOS p + 0xC)) (posErrRead p) s)

/-- POS_SET (R420). -/
def execPosSet (q : Requester) (p : Fin 4) (v : BitVec 32) (s : State) : Result :=
  .next (regWrite q (.blk (basePOS p + 4)) (fun s => s.setPos p { s.pos p with val := v }) s)

/-! ## Channels -/

/-- PF0 may not write an owned register (R453). -/
def guardOwned (q : Requester) (k off : Nat) (f : State → State) (s : State) : State :=
  if q = .fn 0 ∧ s.owned k then regError q off s else f s

/-- A write of WBK_CHk_CTL (R423, R426, Table 14-3). -/
def channelCtl (q : Requester) (k : Nat) (v : BitVec 32) (s : State) : State :=
  let x := s.chan k
  let arm := bit v 31
  let fields := { x with
    lport := fldv v 22 3, outForce := fldv v 20 2, action := fldv v 17 3, edgeDir := fldv v 15 2
    base := fldv v 12 3, mode := fldv v 10 2, capSrc := fldv v 5 5
    late := x.late && !bit v 30, overrun := x.overrun && !bit v 29 }
  let shape := decide (fields.mode ≠ x.mode) || decide (fields.base ≠ x.base)
    || decide (fields.edgeDir ≠ x.edgeDir) || decide (fields.capSrc ≠ x.capSrc)
  if x.armed ∧ shape then regError q (baseCH k) s
  else if 4 < fld v 12 3 ∨ fld v 10 2 = 3 ∨ 27 < fld v 5 5 then s
  else
    let s := s.setChan k { fields with armed := x.armed && arm }
    if arm ∧ !x.armed then
      let s := armChannel k s
      if (s.chan k).matched then stopMatched k s else s
    else s

/-- CHANNEL_CTL_WRITE (R426). -/
def execChannelCtlWrite (q : Requester) (k : Fin 16) (v : BitVec 32) (s : State) : Result :=
  .next (regWrite q (.blk (baseCH k)) (guardOwned q k (baseCH k) (channelCtl q k v)) s)

/-- A write of half of CMP goes straight to the comparator (R429). -/
def cmpWrite (k : Nat) (high : Bool) (v : BitVec 32) (s : State) : State :=
  let x := s.chan k
  s.setChan k { x with cmp :=
    if high then (v.extractLsb' 0 8) ++ (x.cmp.extractLsb' 0 32) else (x.cmp.extractLsb' 32 8) ++ v }

/-- CMP_WRITE (R429). -/
def execCmpWrite (q : Requester) (k : Fin 16) (high : Bool) (v : BitVec 32) (s : State) : Result :=
  let off := baseCH k + if high then 8 else 4
  .next (regWrite q (.blk off) (guardOwned q k off (cmpWrite k high v)) s)

/-- An armed time-base compare matches in a tick in which the counter equals CMP (R424). -/
def timeMatch (k : Nat) (s : State) : State :=
  let x := s.chan k
  if s.on domMGT ∧ x.armed ∧ x.mode = 1 ∧ x.timeBase ∧ x.cmp = s.wbk.time ∧ !x.matched then matchAndStop k s else s

/-- TIME_MATCH (R424). -/
def execTimeMatch (k : Fin 16) (s : State) : Result := .next (timeMatch k s)

/-- CAPTURE: a pin that capture channels may watch takes a level (R431, R433). -/
def execCapture (pin : Fin 28) (level : Bool) (s : State) : Result := .next (pinChange pin level s)

/-- A read of CAP_LO latches CAP_HI and clears captured (R434). -/
def capRead (k : Nat) (s : State) : Reg × State :=
  let x := s.chan k
  (x.cap.extractLsb' 0 32, s.setChan k { x with capHi := x.cap.extractLsb' 32 8, captured := false })

/-- CAP_READ (R434). -/
def execCapRead (q : Requester) (k : Fin 16) (s : State) : Result :=
  .next (regRead q (.blk (baseCH k + 0x18)) (capRead k) s)

/-- The pulse of channel k has run its pw ticks (R435). -/
def pulseEnd (k : Nat) (s : State) : State :=
  let x := s.chan k
  if x.pulse = 1 then s.setChan k { x with pulse := 0, level := false } else s

/-- PULSE_END (R435). -/
def execPulseEnd (k : Fin 16) (s : State) : Result := .next (pulseEnd k s)

end Sys2Proof.Machine
end

