-- ==== Sys2Proof/Machine/Tick.lean ====
section
/-!
DEFINITION. One tick of the 250 MHz clock, which is what the card does while no command waits (R412, R395,
R296, R401, R216, R435, R443; log 1).
-/
namespace Sys2Proof.Machine

/-- The opcodes whose waits lie outside the tile core: SEND, RECV, MBCFG, BAR, STAMP, END and DWT (R331). -/
def outsideWaits : List Nat := [0x35, 0x36, 0x37, 0x39, 0x3B, 0x3C, 0x3E]

/-- An outcome is a wait. -/
def TileOut.waits (o : TileOut) : Bool :=
  match o with
  | .wait => true
  | _ => false

/-- The instruction at the pc waits in an interlock of R318: for an outstanding transfer, or for one of eight to
complete. -/
def Tile.interlockWait (i : Nat) (s : State) (x : Tile) : Bool :=
  let w := x.instr
  !x.xfers.isEmpty && (match wOp w with
    | 0x14 | 0x15 => (loadNonet (·.zeroExtend 36) w x).waits
    | 0x16 => (loadWord w x).waits
    | 0x17 => (storeNonet w x).waits
    | 0x18 => (storeWord w x).waits
    | 0x21 => (vld w x).waits
    | 0x22 => (vst w x).waits
    | 0x2C => (wld w x).waits
    | 0x2D => (mma w x).waits
    | 0x2E => (oma w x).waits
    | 0x30 => (ald w x).waits
    | 0x31 => (ast w x).waits
    | 0x32 => (qnt w x).waits
    | 0x33 => (transfer false 0 0 w x).waits
    | 0x34 => (transfer true 0 0 w x).waits
    | 0x36 => (match sendOut i s w x with
      | .inl o => o.waits
      | .inr _ => false)
    | 0x38 => (mbpop w x).waits
    | _ => false)

/-- A tile's request waits inside its core: it is running an instruction that waits for none of the things of
R331. -/
def State.waitsInside (s : State) (i : Nat) (x : Tile) : Bool :=
  x.ready && !outsideWaits.contains (wOp x.instr) && !x.interlockWait i s

/-- A tile waits on an outstanding transfer: in an interlock, in a DWT, or in a BAR or an END (R318, R319, R327,
R330). -/
def State.waitsTransfer (s : State) (i : Nat) (x : Tile) : Bool :=
  x.ready && !x.xfers.isEmpty
    && (x.interlockWait i s || (decide (wOp x.instr = 0x35) && (dwt x.instr x).waits) || [0x3B, 0x3E].contains (wOp x.instr))

/-- A tile waits on a transfer to a stack whose scale is below 1 (R401, log 62). -/
def State.waitsScaled (s : State) (i : Nat) (x : Tile) : Bool :=
  s.waitsTransfer i x && x.xfers.any (fun t => (s.regionPages t.tenant (72 * t.dline) (72 * t.lines)).any
    (fun p => decide ((s.stack (p / stackPages)).scale.toNat < 0x10000)))

/-- A tile during one tick: its watchdog and its bar time, which stand while the tile is held (R104, R296,
R401). -/
def tickTile (s : State) (held : Bool) (i : Nat) (x : Tile) : Tile :=
  if !x.running || held then x
  else { x with
    wdog := if s.waitsInside i x then satInc x.wdog else x.wdog
    barTime := if s.waitsScaled i x then x.barTime else x.barTime + 1 }

/-- A job during one tick (R395, R407). -/
def tickJob (j : Job) : Job :=
  { j with
    ticks := if j.holds then j.ticks + 1 else j.ticks
    ran := if j.phase = .running then j.ran + 1 else j.ran }

/-- A channel during one tick: its pulse runs on to its end, which is a command (R435). -/
def tickChan (x : Chan) : Chan := { x with pulse := if 1 < x.pulse then x.pulse - 1 else x.pulse, matched := false }

/-- A port during one tick: LTRIG and EXSYNC run out (R443). -/
def tickPort (x : Port) : Port := { x with ltrig := x.ltrig - 1, exsync := x.exsync - 1 }

/-- The tiles are held in this tick: in a period with a hold the controller holds them for a fraction of it, which the
spec leaves open, so each tick is a free value (R103, R104, log 125). -/
def ticksHeld (s : State) : Bool × State :=
  if s.pwr.holdActive then let (n, s) := s.draw; (decide (Config.fresh n % 2 = 1), s) else (false, s)

/-- The timebase counts (R413). -/
def tickTime (s : State) : State :=
  if s.wbk.time = BitVec.allOnes 40 then timeWrap s else { s with wbk := { s.wbk with time := s.wbk.time + 1 } }

/-- The tick of the blocks of MGT. -/
def tickMgt (s : State) : State :=
  let (held, s) := ticksHeld (meshTick (runFilters false (tickTime s)))
  { s with
    gng := { s.gng with hold := if s.gng.held.isEmpty then s.gng.hold else satInc s.gng.hold }
    wbk := { s.wbk with ch := Tbl.update {} (fun _ x => tickChan x) s.wbk.ch }
    rol := Tbl.update {} (fun _ x => tickPort x) s.rol
    sch := { s.sch with jobs := s.sch.jobs.map tickJob }
    grd := { s.grd with tiles := Tbl.update {} (tickTile s held) s.grd.tiles } }

/-- One tick. -/
def tick (s : State) : State :=
  let s := { s with now := s.now + 1 }
  if s.on domMGT then tickMgt s else s

end Sys2Proof.Machine
end

