-- ==== Sys2Proof/Machine/Grid.lean ====
section
/-!
DEFINITION. The commands of the grid but for its tiles' instructions (09): the choke of a path, the handshake
watchdog, the rate and pace readings and the fence count.
-/
namespace Sys2Proof.Machine

/-- The GRD_ window. -/
def baseGRD : Nat := 0xA00000

/-- Offset of a register of tile i (Table 9-5). -/
def tileReg (i off : Nat) : Nat := baseGRD + 0x100000 + 0x400 * i + off

/-! ## The choke (R270, R290-R293) -/

/-- Tear down the path of message m: it is discarded, its sender's SEND ends choked, and what has left on a
link is ended there (R290, R291, R567). -/
def tearDown (m : Nat) (s : State) : State :=
  match s.grd.msgs[m]? with
  | none => s
  | some x =>
    let s := cutOutward x { s with grd := { s.grd with msgs := s.grd.msgs.eraseIdx m } }
    if !x.inward && !x.left && (s.tile x.src).sending.isSome then s.setTile x.src { s.tile x.src with choked := true }
    else s

/-- The effect of a bell core's write to GRD_CHOKE: every path held through the port is torn down, its lanes and its
claims with it, so its buffers are free again (R290, R292). -/
def chokePort (v : BitVec 32) (s : State) : State :=
  let port := fld v 10 3
  if 5 < port then s
  else
    let ms := (s.grd.msgs.zipIdx.filter (fun m => m.1.ports.contains (fld v 0 10, port))).map (·.2)
    let s := forEach ms.reverse tearDown s
    { s with grd := { s.grd with chokeBusy := true } }

/-- A write to GRD_CHOKE: bell cores only, and not while busy (R292, R293). -/
def chokeWrite (q : Requester) (v : BitVec 32) (s : State) : State :=
  match q with
  | .core _ => if s.grd.chokeBusy then regError q baseGRD s else chokePort v s
  | _ => regError q baseGRD s

/-- GRD_CHOKE_WRITE (R290). -/
def execGrdChokeWrite (q : Requester) (v : BitVec 32) (s : State) : Result :=
  .next (regWrite q (.blk baseGRD) (chokeWrite q v) s)

/-- CHOKE_COMPLETE (R292). -/
def execChokeComplete (s : State) : Result := .next { s with grd := { s.grd with chokeBusy := false } }

/-! ## Watchdog, rate and pace -/

/-- The watchdog of tile i reaches its limit: the tile stops with fault code 1 (R297). -/
def watchdogExpire (i : Nat) (s : State) : State :=
  let x := s.tile i
  if x.running ∧ s.grd.wdogLimit.toNat ≤ x.wdog.toNat then tileFault i 1 x.pc.toNat s else s

/-- TILE_WATCHDOG_EXPIRE (R297). -/
def execTileWatchdogExpire (i : Fin 1024) (s : State) : Result := .next (watchdogExpire i s)

/-- The MAC handshakes of each tile of quadrant q in the window that ends now, where it made any (R295). -/
def State.windowPaces (s : State) (q : Nat) : List Nat :=
  ((s.grd.tiles.filter (fun e => quadrant e.1 == q)).map (fun e => e.2.recent)).filter (· ≠ 0)

/-- The 1 ms window of quadrant q ends (R295; the mean is rounded down, log 64). -/
def qrateUpdate (q : Nat) (s : State) : State :=
  let ps := s.windowPaces q
  let r : QRate := { tiles := BitVec.ofNat 16 ps.length, mhs := BitVec.ofNat 16 (ps.sum / (1000 * ps.length)) }
  { s with grd := { s.grd with
      qrate := s.grd.qrate.put {} q r
      tiles := Tbl.update {} (fun i x => if quadrant i = q then { x with recent := 0 } else x) s.grd.tiles } }

/-- QRATE_UPDATE (R295). -/
def execQrateUpdate (qd : Fin 4) (s : State) : Result := .next (if s.on domMGT then qrateUpdate qd s else s)

/-- A read of GRD_TILEi_PACE_LO: the low part; the high part is latched. It reads 0 while the quadrant is off
(R294, R594). -/
def paceLo (i : Nat) (s : State) : Reg × State :=
  let x := s.tile i
  let v := if s.on (domGRID (quadrant i)) then x.pace else 0
  (v.extractLsb' 0 32, s.setTile i { x with paceHi := v.extractLsb' 32 16 })

/-- PACE_READ (R294). -/
def execPaceRead (q : Requester) (i : Fin 1024) (s : State) : Result :=
  .next (regRead q (.blk (tileReg i 0x8)) (paceLo i) s)

/-- A read of GRD_FENCE_STAT: the count, then 0, and the last tag (R285). -/
def fenceStat (s : State) : Reg × State :=
  (pack [(16, s.grd.fenceCount.toNat), (0, s.grd.fenceTag.toNat)], { s with grd := { s.grd with fenceCount := 0 } })

/-- FENCE_STAT_READ (R285). -/
def execFenceStatRead (q : Requester) (s : State) : Result :=
  .next (regRead q (.blk (baseGRD + 0x30)) fenceStat s)

end Sys2Proof.Machine
end

