-- ==== Sys2Proof/Machine/Memory.lean ====
section
/-!
DEFINITION. The commands of device memory (12): the patrol scrub, the fence command, the error counters
and a stack that has cooled.
-/
namespace Sys2Proof.Machine

/-- The MEM_ window. -/
def baseMEM : Nat := 0x800000

/-- Bytes of a stack. -/
def stackBytes : Nat := 25769803776

/-- The patrol reads the next beat of stack k, where `u` says that its stored bits now report as `u`
(R365). It runs on a stack that is on, while PF0 is in D0 (log 34). -/
def patrol (k : Nat) (u : Option Bool) (s : State) : State :=
  if s.on (domMEM k) ∧ s.pwr.dstate = .d0 ∧ !s.dramHeld k then
    let a := k * stackBytes + (s.stack k).patrol
    let s := match u with
      | some b => upset a b s
      | none => s
    let s := match readBeat a s with
      | (true, s) => s
      | (false, s) => uncorrectableBeat a (fire (beatFinding lvlNone a) s)
    s.setStack k { s.stack k with patrol := ((s.stack k).patrol + 8) % stackBytes }
  else s

/-- PATROL_READ (R365). -/
def execPatrolRead (k : Fin 4) (upset : Option Bool) (s : State) : Result := .next (patrol k upset s)

/-- MEM_FENCE_CMD: with the key, fence every stack named (R366, R593). -/
def fenceCmd (q : Requester) (v : BitVec 32) (s : State) : State :=
  if keyed v then forEach ([0, 1, 2, 3].filter (fun k => bit v k)) (fun k s => fence k causeCommand s) s
  else if fld v 0 4 = 0 then s
  else regError q (baseMEM + 0x80) s

/-- MEM_FENCE_CMD (R366). -/
def execMemFenceCmd (q : Requester) (v : BitVec 32) (s : State) : Result :=
  .next (keyWrite q (.blk (baseMEM + 0x80)) v (fenceCmd q v) s)

/-- A read of MEM_CEk: the count, then 0 (R363). -/
def memCe (k : Nat) (s : State) : Reg × State :=
  ((s.stack k).ce, s.setStack k { s.stack k with ce := 0 })

/-- MEM_CE_READ (R363). -/
def execMemCeRead (q : Requester) (k : Fin 4) (s : State) : Result :=
  .next (regRead q (.blk (baseMEM + 0x50 + 4 * k)) (memCe k) s)

/-- A read of MEM_UEk: the count, then 0 (R364). -/
def memUe (k : Nat) (s : State) : Reg × State :=
  ((s.stack k).ue, s.setStack k { s.stack k with ue := 0 })

/-- MEM_UE_READ (R364). -/
def execMemUeRead (q : Requester) (k : Fin 4) (s : State) : Result :=
  .next (regRead q (.blk (baseMEM + 0x60 + 4 * k)) (memUe k) s)

/-- Samples of 100 µs in 10 ms. -/
def coolNeeded : Nat := 100

/-- A hot stack has been at or below 82 °C for 10 ms: D_k returns (R370, R378). -/
def stackCool (k : Nat) (s : State) : State :=
  if (s.stack k).hot ∧ (s.stack k).cool ≥ coolNeeded then
    rescaleStack k (s.setStack k { s.stack k with hot := false, cool := 0 })
  else s

/-- STACK_COOL (R370). -/
def execStackCool (k : Fin 4) (s : State) : Result := .next (stackCool k s)

end Sys2Proof.Machine
end

