-- ==== Sys2Proof/Machine/Tenants.lean ====
section
/-!
DEFINITION. The commands of the tenants (05): the translation pool, enable and disable, scrubbing, NumVFs and
Bus Master Enable.
-/
namespace Sys2Proof.Machine

/-- The TEN_ window, and tenant t's block. -/
def baseTEN : Nat := 0x400000
def tenBlock (t : Nat) : Nat := baseTEN + 0x40 * t

/-! ## The translation pool -/

/-- Entry i lies in the range of an enabled tenant (R158). -/
def State.locked (s : State) (i : Nat) : Bool :=
  s.ten.tenants.any (fun e => e.2.enable && decide (e.2.mapBase.toNat ≤ i)
    && decide (i < e.2.mapBase.toNat + e.2.mapCount.toNat))

/-- A page is reserved, names no page, or lies in a fenced stack (R153, R158, R368). -/
def State.pageReserved (s : State) (ppn : Nat) : Bool :=
  decide (49152 ≤ ppn) || decide (12032 ≤ ppn % 12288) || (s.stack (ppn / 12288)).fenced

/-- A page is already valid in another entry, or still in the scrub queue (R158, R159). -/
def State.pageConflict (s : State) (i ppn : Nat) : Bool :=
  s.ten.map.any (fun e => e.1 != i && e.2.valid && e.2.ppn.toNat == ppn)
    || s.ten.scrubQ.any (fun p => p.ppn == ppn && p.owner.isNone)

/-- A write of TEN_MAP_i (R158, R159). -/
def mapWrite (i : Nat) (v : BitVec 32) (s : State) : State :=
  let old := s.mapEntry i
  let new : MapEntry := { valid := bit v 31, ppn := fldv v 0 16 }
  let conflict := new.valid && s.pageConflict i new.ppn.toNat
  let reserved := new.valid && s.pageReserved new.ppn.toNat
  let locked := s.locked i
  if conflict || reserved || locked then
    { s with ten := { s.ten with mapStat := s.ten.mapStat |||
      (pack [(2, locked.toNat), (1, reserved.toNat), (0, conflict.toNat)]).extractLsb' 0 4 } }
  else
    let s := s.setMap i new
    if old.valid && !(new.valid && decide (new.ppn = old.ppn)) then queueScrub none [old.ppn.toNat] s else s

/-- TEN_MAP_WRITE (R158). -/
def execTenMapWrite (q : Requester) (i : Fin 49152) (v : BitVec 32) (s : State) : Result :=
  .next (regWrite q (.blk (baseTEN + 0x10000 + 4 * i)) (mapWrite i v) s)

/-- The first page of the scrub queue is zero (R159, R164, R165). Zeroing pauses in D3hot (R130). -/
def pageZeroed (s : State) : State :=
  match s.ten.scrubQ with
  | [] => s
  | p :: rest =>
    if s.pwr.dstate = .d0 ∧ s.on (domMEM (p.ppn / stackPages)) then
      zeroBytes (p.ppn * pageBytes) pageBytes { s with ten := { s.ten with scrubQ := rest } }
    else s

/-- PAGE_ZEROED (R159). -/
def execPageZeroed (s : State) : Result := .next (pageZeroed s)

/-! ## Enable, disable, scrub -/

/-- The range of a tenant overlaps that of another enabled tenant (R160). -/
def State.overlaps (s : State) (t : Nat) : Bool :=
  let x := s.tenant t
  s.ten.tenants.any (fun e => e.1 != t && e.2.enable
    && decide (max x.mapBase.toNat e.2.mapBase.toNat
      < min (x.mapBase.toNat + x.mapCount.toNat) (e.2.mapBase.toNat + e.2.mapCount.toNat)))

/-- A write of 1 to TEN_Tt_CTL.enable (R160, R161, R189). -/
def enableTenant (q : Requester) (t : Nat) (s : State) : State :=
  let x := s.tenant t
  if x.disabling then regError q (tenBlock t) s
  else if x.enable then s
  else if !s.tenantExists t ∨ 49152 < x.mapBase.toNat + x.mapCount.toNat ∨ s.overlaps t ∨ s.scrubbing t then
    { s with ten := { s.ten with mapStat := s.ten.mapStat ||| 8 } }
  else holdChime t (s.setTenant t { x with enable := true })

/-- TENANT_ENABLE (R160). -/
def execTenantEnable (q : Requester) (t : Fin 64) (s : State) : Result :=
  .next (regWrite q (.blk (tenBlock t)) (enableTenant q t) s)

/-- A write of 0 to enable: the disable is pending, and the tenant's jobs are aborted (R161, R203, R464,
R546). -/
def disableTenant (t : Nat) (s : State) : State :=
  let x := s.tenant t
  if x.enable ∧ !x.disabling then
    let s := abortTenant t 4 (s.setTenant t { x with disabling := true })
    tenantLost t (tenantReset t s)
  else s

/-- TENANT_DISABLE (R161). -/
def execTenantDisable (q : Requester) (t : Fin 64) (s : State) : Result :=
  .next (regWrite q (.blk (tenBlock t)) (disableTenant t) s)

/-- Every ABORTED_RESET completion is written: the tail-hint line reports the last of them, and enable clears (R161,
R187). -/
def disableDone (t : Nat) (s : State) : State :=
  if (s.tenant t).disabling ∧ ringsOf.all (fun r => (s.ring t r).inflight.isEmpty) then
    let s := tailHint t s
    if (s.tenant t).hintDue && (s.func t).bme then s else tenantGone t s
  else s

/-- TENANT_DISABLE_DONE (R161). -/
def execTenantDisableDone (t : Fin 64) (s : State) : Result := .next (disableDone t s)

/-- A write of 1 to scrub: while enable is 0, every valid page of the tenant is queued (R165). -/
def scrubTenant (q : Requester) (t : Nat) (s : State) : State :=
  if (s.tenant t).enable then regError q (tenBlock t) s
  else queueScrub (some t) ((s.pages t).map (·.2)) s

/-- TENANT_SCRUB (R165). -/
def execTenantScrub (q : Requester) (t : Fin 64) (s : State) : Result :=
  .next (regWrite q (.blk (tenBlock t)) (scrubTenant q t) s)

/-! ## Configuration space -/

/-- NumVFs, VF Enable and ARI Capable Hierarchy are written: a VF that stops existing is reset and no longer
enabled (R136, 05 "NumVFs is reduced"). In recovery no VF comes to exist (R123). -/
def numvfsWrite (numVfs : BitVec 16) (enable ari : Bool) (s : State) : State :=
  if !s.hif.linkUp ∨ (s.func 0).flrBusy then s
  else
    let before := s.existing
    let s' := { s with hif := { s.hif with
      numVfs := numVfs, vfEnable := enable && (s.hif.vfEnable || decide (s.boot.stage ≠ .recovery)), ari := ari } }
    let gone := before.filter (fun t => !s'.tenantExists t)
    forEach gone (fun t s => (tenantGone t (flrTenant t s)).setFunc t {}) s'

/-- NUMVFS_WRITE (R136). -/
def execNumvfsWrite (numVfs : BitVec 16) (enable ari : Bool) (s : State) : Result :=
  .next (numvfsWrite numVfs enable ari s)

/-- A configuration write of tenant t's function takes effect (R166). -/
def State.configurable (s : State) (t : Nat) : Bool := s.hif.linkUp && s.tenantExists t && !(s.func t).flrBusy

/-- The entry that ring r is about to write: its oldest descriptor's completion, or a marker. -/
def State.nextEntry (s : State) (t r : Nat) : Option (List Byte) :=
  let x := s.ring t r
  let ph := phaseOf x.k.toNat x.cqTail
  if !x.space || x.half.isSome then none
  else match x.inflight with
    | [] =>
      if x.enable && x.markerDue then
        some (entryBytes ph r 0 s.gng.next (cpl stMarker (s.tenant t).epoch.toNat) x.sqHead)
      else none
    | d :: _ => (s.decision d).map (fun c => entryBytes ph r d.jobId s.gng.next c d.seq)

/-- The first write of an entry is issued and the phase byte is not: the entry and its stamp are kept (R147,
R196). -/
def halfWrite (t r : Nat) (s : State) : State :=
  let x := s.ring t r
  match s.nextEntry t r with
  | none => s
  | some bs =>
    let s := (takeStamp s).emit (.write t (x.entryAddr x.cqTail + 1) (bs.drop 1) false)
    s.setRing t r { x with half := some (x.cqTail, bs) }

/-- Bus Master Enable goes to 0, perhaps in the middle of a completion write on ring `mid` (R147, R203). -/
def bmeClear (t : Nat) (mid : Option (Fin 8)) (s : State) : State :=
  if s.configurable t ∧ (s.func t).bme then
    let s := match mid with
      | some r => if s.linkOk t ∧ s.firmware (coreOf t) then halfWrite t r s else s
      | none => s
    let s := s.setFunc t { s.func t with bme := false }
    tenantReset t (abortTenant t 3 s)
  else s

/-- BME_CLEAR (R147). -/
def execBmeClear (t : Fin 64) (mid : Option (Fin 8)) (s : State) : Result := .next (bmeClear t mid s)

/-- Bus Master Enable returns to 1: an entry cut off is written again first (R147). -/
def bmeSet (t : Nat) (s : State) : State :=
  if s.configurable t ∧ !(s.func t).bme then
    forEach ringsOf (flushHalf t) (s.setFunc t { s.func t with bme := true })
  else s

/-- BME_SET (R147). -/
def execBmeSet (t : Fin 64) (s : State) : Result := .next (bmeSet t s)

end Sys2Proof.Machine
end

