-- ==== Sys2Proof/Machine/RegsCard.lean ====
section
/-!
DEFINITION. What a read and a write of each register of PWR, CLK, HIF, TEN, GNG, CAR, MEM and SCH does, by the access
codes of R16 (Tables 4-6, 4-7, 5-4, 5-5, 7-2, 8-5, 12-1, 13-5). A reader answers none at an unassigned offset, a writer at
one that takes no write.
-/
namespace Sys2Proof.Machine

/-- A register whose read has no effect. -/
def shows (v : Reg) (s : State) : Option (Reg × State) := some (v, s)

/-- A number as a register. -/
def reg32 (n : Nat) : Reg := BitVec.ofNat 32 n

/-- 0 stores 1. -/
def orOne {n : Nat} (v : BitVec n) : BitVec n := if v = 0 then 1 else v

/-! ## PWR and CLK -/

def pwrRead (off : Nat) (s : State) : Option (Reg × State) :=
  let p := s.pwr
  match off with
  | 0x000 => shows (reg32 p.capW.toNat) s
  | 0x004 => shows (reg32 p.vset.toNat) s
  -- the applied voltage never reads above the stored request (log 103)
  | 0x008 => shows (pack [(18, p.holdActive.toNat), (17, p.thermalLimited.toNat), (16, p.capLimited.toNat),
                          (0, min p.vact.toNat p.vset.toNat)]) s
  | 0x010 => shows (reg32 p.dom.toNat) s
  | 0x014 => shows (reg32 p.domHold.toNat) s
  | 0x020 => shows (reg32 p.inputDw.toNat) s
  | 0x024 => shows (pack [(8, p.dieC.toNat), (0, p.dramC.toNat)]) s
  | 0x030 => shows 0 s
  | 0x034 => shows (reg32 p.cause.toNat) s
  | 0x040 => shows (pack [(16, s.boot.fwVersion.toNat), (5, s.boot.ready.toNat), (4, s.boot.slotB.toNat),
                          (0, s.boot.status.toNat)]) s
  | _ => none

def pwrWrite (q : Requester) (off : Nat) (v : BitVec 32) (s : State) : Option State :=
  match off with
  | 0x000 => some { s with pwr := { s.pwr with capW := BitVec.ofNat 9 (clamp 40 420 (fld v 0 9)) } }
  | 0x004 => some { s with pwr := { s.pwr with vset := BitVec.ofNat 10 (storedMv (fld v 0 10)) } }
  | 0x014 => some { s with pwr := { s.pwr with domHold := fldv v 0 16 } }
  | 0x030 => some (resetWrite q v s)
  | 0x034 => some { s with pwr := { s.pwr with cause := s.pwr.cause &&& ~~~ (fldv v 0 6) } }
  | _ => none

def clkRead (off : Nat) (s : State) : Option (Reg × State) :=
  if off = 0 then
    shows (pack [(31, s.clk.cfgErr.toNat), (14, s.clk.lockFail.toNat), (0, s.clk.locked.toNat)]) s
  else if 0x010 ≤ off ∧ off < 0x020 then shows (reg32 (s.lineKhz ((off - 0x010) / 4)).toNat) s
  else none

def clkWrite (off : Nat) (v : BitVec 32) (s : State) : Option State :=
  if off = 0 then some { s with clk := { s.clk with
    cfgErr := s.clk.cfgErr && !bit v 31, lockFail := s.clk.lockFail &&& ~~~ (fldv v 14 14) } }
  else if 0x010 ≤ off ∧ off < 0x020 then some (lineFreq ((off - 0x010) / 4) v s)
  else none

/-! ## HIF and TEN -/

def hifRead (off : Nat) (s : State) : Option (Reg × State) :=
  if off = 0 then shows (pack [(4, s.hif.width.toNat), (1, s.hif.speed.toNat), (0, s.hif.cxl.toNat)]) s else none

/-- Bits [63:32] and [31:0] of a host address. -/
def hiHalf (v : BitVec 64) : Reg := v.extractLsb' 32 32
def loHalf (v : BitVec 64) : Reg := v.extractLsb' 0 32

def tenRead (off : Nat) (s : State) : Option (Reg × State) :=
  if off < 0x1000 then
    let t := off / 0x40
    let x := s.tenant t
    match off % 0x40 with
    | 0x00 => shows (reg32 x.enable.toNat) s
    | 0x04 => shows (pack [(2, (s.scrubbing t).toNat), (1, (s.func t).bme.toNat), (0, (s.tenantExists t).toNat)]) s
    | 0x08 => shows (reg32 x.mapBase.toNat) s
    | 0x0C => shows (reg32 x.mapCount.toNat) s
    | 0x10 => shows (loHalf x.chimeHpa) s
    | 0x14 => shows (hiHalf x.chimeHpa) s
    | 0x18 => shows (loHalf x.hintHpa) s
    | 0x1C => shows (hiHalf x.hintHpa) s
    | _ => none
  else if off = 0x1000 then shows (pack [(16, min 0xFFFF s.ten.scrubQ.length), (0, s.ten.mapStat.toNat)]) s
  else if 0x10000 ≤ off ∧ off < 0x10000 + 4 * 49152 then
    let e := s.mapEntry ((off - 0x10000) / 4)
    shows (pack [(31, e.valid.toNat), (0, e.ppn.toNat)]) s
  else none

/-- Bits [31:6] of a line address. -/
def lineLow (v : BitVec 32) : BitVec 32 := v &&& 0xFFFFFFC0

/-- TEN_Tt_CTL: the scrub is applied first and enable is judged after it (R160, R165). A write that sets scrub while
enable is 1 is discarded whole, with one error (log 104). -/
def tenCtl (q : Requester) (t : Nat) (v : BitVec 32) (s : State) : State :=
  if bit v 1 && (s.tenant t).enable then scrubTenant q t s
  else
    let s := if bit v 1 then scrubTenant q t s else s
    if bit v 0 then enableTenant q t s else disableTenant t s

/-- A register that R595 locks while enable reads 1. -/
def tenLocked (q : Requester) (t off : Nat) (f : Tenant → Tenant) (s : State) : State :=
  if (s.tenant t).enable then regError q (baseTEN + off) s else s.setTenant t (f (s.tenant t))

def tenWrite (q : Requester) (off : Nat) (v : BitVec 32) (s : State) : Option State :=
  if off < 0x1000 then
    let t := off / 0x40
    match off % 0x40 with
    | 0x00 => some (tenCtl q t v s)
    | 0x08 => some (tenLocked q t off (fun x => { x with mapBase := fldv v 0 16 }) s)
    | 0x0C => some (tenLocked q t off (fun x => { x with mapCount := fldv v 0 16 }) s)
    | 0x10 => some (tenLocked q t off (fun x => { x with chimeHpa := setHalf x.chimeHpa false (lineLow v) }) s)
    | 0x14 => some (tenLocked q t off (fun x => { x with chimeHpa := setHalf x.chimeHpa true v }) s)
    | 0x18 => some (tenLocked q t off (fun x => { x with hintHpa := setHalf x.hintHpa false (lineLow v) }) s)
    | 0x1C => some (tenLocked q t off (fun x => { x with hintHpa := setHalf x.hintHpa true v }) s)
    | _ => none
  else if off = 0x1000 then some { s with ten := { s.ten with mapStat := s.ten.mapStat &&& ~~~ (fldv v 0 4) } }
  else if 0x10000 ≤ off ∧ off < 0x10000 + 4 * 49152 then some (mapWrite ((off - 0x10000) / 4) v s)
  else none

/-! ## GNG and CAR -/

def gngRead (off : Nat) (s : State) : Option (Reg × State) :=
  match off with
  | 0x00 => some (nextRead s)
  | 0x04 => shows (reg32 s.gng.nextHi.toNat) s
  | 0x08 => shows s.gng.wrap s
  | 0x0C => shows (reg32 s.gng.era.toNat) s
  | 0x10 => some (holdRead s)
  | _ => none

/-- CAR_SRCn. -/
def Src.word (x : Src) : Reg :=
  pack [(24, x.priority.toNat), (18, x.vector.toNat), (15, x.target.toNat), (12, x.sense.toNat), (11, x.wake.toNat),
        (10, x.mask.toNat), (2, x.presented.toNat), (1, x.active.toNat), (0, x.pending.toNat)]

/-- The pending bits of sources 32w to 32w + 31. -/
def State.pendingBits (s : State) (w : Nat) : Reg :=
  pack ((List.range 32).map (fun j => (j, (s.src (32 * w + j)).pending.toNat)))

/-- A bell core's read of CAR_SRCn returns after the window of R243: what was selected has been committed (R244). -/
def settleCommit (q : Requester) (n : Nat) (s : State) : State :=
  match q with
  | .core _ => if (s.src n).committing then sourceCommit n s else s
  | _ => s

/-- A read of CAR_SRCn. -/
def srcRead (q : Requester) (n : Nat) (s : State) : Reg × State :=
  let s := settleCommit q n s
  ((s.src n).word, s)

def carRead (q : Requester) (off : Nat) (s : State) : Option (Reg × State) :=
  if off < 0x800 then some (srcRead q (off / 4) s)
  else if off < 0x840 then shows (s.pendingBits ((off - 0x800) / 4)) s
  else if 0x1000 ≤ off ∧ off < 0x1800 then
    let x := s.src ((off - 0x1000) / 4)
    shows (pack [(31, x.lost.toNat), (0, x.count.toNat)]) s
  else if 0x2000 ≤ off ∧ off < 0x3000 then
    let n := (off - 0x2000) / 8
    if off % 8 = 0 then some (stampRead n s) else shows (reg32 (s.src n).stampHi.toNat) s
  else if off = 0x3000 then shows (reg32 s.car.priSplit.toNat) s
  else if 0x3100 ≤ off ∧ off < 0x3180 then shows (reg32 (s.car.holdoff.find 0 ((off - 0x3100) / 4)).toNat) s
  else if 0x3200 ≤ off ∧ off < 0x3250 then shows (reg32 (s.car.filt.find 0 ((off - 0x3200) / 4)).toNat) s
  else if 0x4000 ≤ off ∧ off < 0x4040 then
    let c := (off - 0x4000) / 0x10
    match off % 0x10 with
    | 0x0 => some (claimRead q c s)
    | 0x4 => shows 0 s
    | 0x8 => shows (pack [(8, (s.running c).isSome.toNat), (0, (s.running c).getD 0)]) s
    | _ => none
  else if 0x5000 ≤ off ∧ off < 0x5100 then shows (s.car.mbox.find 0 ((off - 0x5000) / 4)) s
  else none

def carWrite (q : Requester) (off : Nat) (v : BitVec 32) (s : State) : Option State :=
  if off < 0x800 then some (srcWrite (off / 4) v false s)
  else if off < 0x840 then some (swset ((off - 0x800) / 4) v s)
  else if 0x1000 ≤ off ∧ off < 0x1800 then some (lostClear ((off - 0x1000) / 4) v s)
  else if off = 0x3000 then some { s with car := { s.car with priSplit := BitVec.ofNat 4 (min 8 (fld v 0 4)) } }
  else if 0x3100 ≤ off ∧ off < 0x3180 then
    some { s with car := { s.car with holdoff := s.car.holdoff.put 0 ((off - 0x3100) / 4) (fldv v 0 16) } }
  else if 0x3200 ≤ off ∧ off < 0x3250 then
    some { s with car := { s.car with filt := s.car.filt.put 0 ((off - 0x3200) / 4) (fldv v 0 10) } }
  else if 0x4000 ≤ off ∧ off < 0x4040 ∧ off % 0x10 = 4 then some (done q ((off - 0x4000) / 0x10) v s)
  else if 0x5000 ≤ off ∧ off < 0x5100 then
    some { s with car := { s.car with mbox := s.car.mbox.put 0 ((off - 0x5000) / 4) v } }
  else none

/-! ## MEM and SCH -/

def memRead (off : Nat) (s : State) : Option (Reg × State) :=
  let k := off / 4 % 4
  if 0x010 ≤ off ∧ off < 0x020 then
    shows (pack [(31, (s.stack k).fenced.toNat), (30, (s.stack k).hot.toNat), (29, (s.on (domMEM k)).toNat),
                 (0, s.deliv k)]) s
  else if 0x020 ≤ off ∧ off < 0x030 then shows (reg32 (s.stackRes k % 2 ^ 24)) s
  else if 0x030 ≤ off ∧ off < 0x040 then shows (reg32 (s.rollRes k % 2 ^ 24)) s
  else if 0x040 ≤ off ∧ off < 0x050 then shows (reg32 (s.stack k).scale.toNat) s
  else if 0x050 ≤ off ∧ off < 0x060 then some (memCe k s)
  else if 0x060 ≤ off ∧ off < 0x070 then some (memUe k s)
  else if off = 0x070 then shows (reg32 (fld s.mem.errAddr 0 32 / 8 * 8)) s
  else if off = 0x074 then shows (reg32 (fld s.mem.errAddr 32 5)) s
  else if off = 0x080 then shows 0 s
  else if off = 0x084 then shows (reg32 s.mem.ueThreshold.toNat) s
  else if off = 0x088 then shows (reg32 s.mem.patrolH.toNat) s
  else if 0x100 ≤ off ∧ off < 0x200 then shows (reg32 (s.mem.tenCap.find 0 ((off - 0x100) / 4)).toNat) s
  else if 0x200 ≤ off ∧ off < 0x300 then shows (reg32 (s.tenantRes ((off - 0x200) / 4) % 2 ^ 24)) s
  else none

def memWrite (q : Requester) (off : Nat) (v : BitVec 32) (s : State) : Option State :=
  if off = 0x080 then some (fenceCmd q v s)
  else if off = 0x084 then some { s with mem := { s.mem with ueThreshold := orOne (fldv v 0 8) } }
  else if off = 0x088 then some { s with mem := { s.mem with patrolH := BitVec.ofNat 5 (clamp 1 24 (fld v 0 5)) } }
  else if 0x100 ≤ off ∧ off < 0x200 then
    some { s with mem := { s.mem with tenCap := s.mem.tenCap.put 0 ((off - 0x100) / 4) (fldv v 0 24) } }
  else none

/-- Tiles allocated to a tenant. -/
def State.tilesOf (s : State) (t : Nat) : Nat :=
  ((s.sch.jobs.filter (fun j => j.tenant == t && j.holds)).map Job.count).sum

/-- Lines of a tenant's spill area that its admitted jobs hold. -/
def State.spillUsed (s : State) (t : Nat) : Nat :=
  ((s.sch.jobs.filter (fun j => j.tenant == t)).map (·.spillLines)).sum

def schRead (off : Nat) (s : State) : Option (Reg × State) :=
  if off = 0x000 then shows (reg32 s.sch.slice.toNat) s
  else if off = 0x004 then shows (reg32 s.sch.jobs.length) s
  else if 0x100 ≤ off ∧ off < 0x900 then
    let t := (off - 0x100) / 0x20
    let x := s.schTen t
    match off % 0x20 with
    | 0x00 => shows (pack [(16, x.share.toNat), (8, x.cls.toNat), (0, x.span.toNat)]) s
    | 0x04 => shows (pack [(16, s.tilesOf t % 2048), (0, x.limit.toNat)]) s
    | 0x08 => shows (pack [(16, s.admittedOf t % 512), (0, x.maxAdm.toNat)]) s
    | 0x0C => shows (reg32 x.spillBase.toNat) s
    | 0x10 => shows x.spillLines s
    | 0x14 => shows (reg32 (s.spillUsed t)) s
    | 0x18 => some (usedLo t s)
    | 0x1C => shows x.usedHi s
    | _ => none
  else none

/-- A register that R391 locks while the tenant has an admitted job. -/
def spillLocked (q : Requester) (t off : Nat) (f : SchTen → SchTen) (s : State) : State :=
  if 0 < s.admittedOf t then regError q (0x900000 + off) s else s.setSchTen t (f (s.schTen t))

def schWrite (q : Requester) (off : Nat) (v : BitVec 32) (s : State) : Option State :=
  if off = 0x000 then some { s with sch := { s.sch with slice := BitVec.ofNat 10 (min 1000 (fld v 0 10)) } }
  else if 0x100 ≤ off ∧ off < 0x900 then
    let t := (off - 0x100) / 0x20
    let x := s.schTen t
    match off % 0x20 with
    | 0x00 => some (s.setSchTen t { x with share := orOne (fldv v 16 16), cls := fldv v 8 2, span := bit v 0 })
    | 0x04 => some (s.setSchTen t { x with limit := fldv v 0 11 })
    | 0x08 => some (s.setSchTen t { x with maxAdm := BitVec.ofNat 9 (clamp 1 256 (fld v 0 9)) })
    | 0x0C => some (spillLocked q t off (fun x => { x with spillBase := fldv v 0 19 }) s)
    | 0x10 => some (spillLocked q t off (fun x => { x with spillLines := v }) s)
    | _ => none
  else none

end Sys2Proof.Machine
end

