-- ==== Sys2Proof/Machine/Roll.lean ====
section
/-!
DEFINITION. The commands of the Roll unit (15).
-/
namespace Sys2Proof.Machine

/-- The ROL_ block of port p. -/
def baseROL (p : Nat) : Nat := 0xC00000 + 0x100 * p

/-! ## Enable and disable (R462, R463) -/

/-- The configuration checks with err 1 that come before the ring's: R439, R444, R445, R447, and the ranges
of Table 15-3 (the order of the checks is log 44). -/
def State.portConfigOk (s : State) (p : Nat) (x : Port) : Bool :=
  let pitch := (s.chan x.trigCh).step.toNat
  x.rateOk (s.lineKhz p).toNat && decide (x.kind ≠ 3)
    && decide (x.w ≤ 32768) && decide (x.h ≠ 0) && decide (x.w % x.lanes = 0) && decide (x.w % x.h = 0)
    && decide (1 ≤ pitch) && decide (pitch ≤ 2147483647)
    && decide (x.base.toNat % 72 = 0) && decide (64 ≤ x.size.toNat) && decide (x.size.toNat ≤ 65536)

/-- The ring's tenant is enabled and every page of the ring is mapped (R448). -/
def State.ringMapped (s : State) (x : Port) : Bool :=
  (s.tenant x.tenant.toNat).enable
    && s.mapped x.tenant.toNat x.base.toNat (x.size.toNat * x.slotBytes)

/-- R458. -/
def State.motionOk (s : State) (p : Nat) (x : Port) : Bool :=
  decide (2 * (s.chan x.trigCh).step.toNat ≤ x.runup.toNat)
    && decide (x.lw.toNat < x.hw.toNat) && decide (x.hw.toNat < x.size.toNat)
    && x.channels.all (fun k => portsAll.all (fun m => m == p || !(s.port m).enable || !(s.port m).channels.contains k))

/-- A port's reservation on each stack (R451). -/
def State.portParts (s : State) (x : Port) : List Nat :=
  placed x.mbs (s.regionPages x.tenant.toNat x.base.toNat (x.size.toNat * x.slotBytes))

/-- The err of a refused enable, or 0 (R462). -/
def State.enableErr (s : State) (p : Nat) (x : Port) : Nat :=
  if !s.portConfigOk p x then 1
  else if !s.ringMapped x then 3
  else if s.excess (s.portParts x) ≠ 0 then 2
  else if !s.motionOk p x then 1
  else if s.held domFRONT then 8
  else 0

/-- Enable port p: WR and RD are 0 and training begins (R462). -/
def enablePort (p : Nat) (s : State) : State :=
  let x := s.port p
  let e := s.enableErr p x
  if e ≠ 0 then s.setPort p { x with err := BitVec.ofNat 4 e }
  else rescale (s.setPort p { x with
    enable := true, err := 0, state := .train, wr := 0, rd := 0, rdLo := 0
    slot := BitVec.ofNat 32 x.slotBytes, mres := BitVec.ofNat 32 x.mbs, restarts := 0
    pitch := (s.chan x.trigCh).step, parts := s.portParts x, issued := [], refusedSince := false
    q := none, requests := [], moving := false, mfltStop := false, retrain := false, terminated := true })

/-- The RW fields of ROL_Pp_CTL beside enable: motion, and host_read while enable is 0 (Table 15-3). -/
def portFields (p : Nat) (v : BitVec 32) (s : State) : State :=
  let x := s.port p
  s.setPort p { x with motion := bit v 30, hostRead := if x.enable then x.hostRead else bit v 28 }

/-- A write of ROL_Pp_CTL with enable = 1 on a disabled port. -/
def portEnable (p : Nat) (v : BitVec 32) (s : State) : State :=
  if bit v 31 ∧ !(s.port p).enable then enablePort p (portFields p v s) else s

/-- PORT_ENABLE (R462). -/
def execPortEnable (q : Requester) (p : Fin 4) (v : BitVec 32) (s : State) : Result :=
  .next (regWrite q (.blk (baseROL p)) (portEnable p v) s)

/-- Disable port p, and stop its followers (R463). -/
def portDisable (p : Nat) (s : State) : State :=
  if (s.port p).enable then stopFollowers p (portOff p 0 s) else s

/-- PORT_DISABLE (R463). -/
def execPortDisable (q : Requester) (p : Fin 4) (s : State) : Result :=
  .next (regWrite q (.blk (baseROL p)) (portDisable p) s)

/-! ## Training (R440, R465) -/

/-- Motion in run follows CTL.motion (R455). -/
def motionAsked (p : Nat) (s : State) : State :=
  if (s.port p).motion then startMotion p (setDirection p true s) else motionStop p s

/-- The sensor clock of line p is disconnected: its triggers are suppressed (R112, R113, R116). -/
def State.suppressed (s : State) (p : Nat) : Bool := bit s.clk.disconnected (9 + p)

/-- Every used pair has shown the training words: training ends, and the port enters run with its trigger channel armed
at START (R440, R456), or its training after a relock is over (R465). `pairs` are the words each pair has shown. -/
def trainingDone (p : Nat) (pairs : List (List (BitVec 16))) (s : State) : State :=
  let x := s.port p
  if !x.enable ∨ !s.on domFRONT ∨ s.suppressed p ∨ !x.aligned pairs then s
  else if x.state = .train then
    let c := s.chan x.trigCh
    let s := armChannel x.trigCh (s.setChan x.trigCh { c with cmp := x.start.zeroExtend 40 })
    let s := s.setPort p { s.port p with state := .run, retrain := false }
    if x.motion then motionAsked p s else s
  else s.setPort p { x with retrain := false }

/-- TRAINING_DONE (R440). -/
def execTrainingDone (p : Fin 4) (pairs : List (List (BitVec 16))) (s : State) : Result := .next (trainingDone p pairs s)

/-- Training has not ended within 2 ms: err 4 (R440, R462, R464; the order of the two events' stamps is log 130). -/
def trainingTimeout (p : Nat) (s : State) : State :=
  let x := s.port p
  if x.enable ∧ (x.state = .train ∨ x.retrain) then portStopGroup p 4 (raise (96 + 16 * p + 5) s) else s

/-- TRAINING_TIMEOUT (R440). -/
def execTrainingTimeout (p : Fin 4) (s : State) : Result := .next (trainingTimeout p s)

/-! ## Triggers (R443, R456) -/

/-- A trigger request is issued under R456; `received` says that the previous line has been received. -/
def State.issues (s : State) (p : Nat) (received : Bool) : Bool :=
  let x := s.port p
  s.on domFRONT && decide (x.fill + x.issued.length < x.size.toNat) && decide (x.issued.length < 4)
    && (received || x.issued.isEmpty) && !s.suppressed p && !x.retrain && !x.refusedSince
    && (x.state = .run || x.state = .stopping || x.state = .runup)

/-- Issue a trigger: LTRIG and EXSYNC are driven. The first after a restart is the seam line (R443, R457
step 8, R461); the restart is counted as that line is stored. -/
def issueTrigger (p : Nat) (pos : BitVec 32) (s : State) : State :=
  let x := s.port p
  let seam := x.q.isSome
  let s := s.setPort p { x with
    issued := x.issued ++ [{ pos := pos, time := s.wbk.time, seam := seam }]
    ltrig := x.ltrigW, exsync := x.exp, q := none
    state := if x.state = .runup then .run else x.state }
  let s := s.emit (.lineOut p true (decide (x.exp ≠ 0)))
  if seam ∧ (s.port p).state = .run ∧ !(s.port (s.leaderOf p)).motion then motionStop (s.leaderOf p) s else s

/-- The oldest trigger request of port p is judged (R456). -/
def triggerRequest (p : Nat) (received : Bool) (s : State) : State :=
  let x := s.port p
  match x.requests with
  | [] => s
  | pos :: rest =>
    let s := s.setPort p { x with requests := rest }
    if !x.enable ∨ x.state = .off ∨ !s.on domFRONT then s
    else if s.issues p received then issueTrigger p pos s
    else refuseTrigger p pos s

/-- TRIGGER_REQUEST (R456). -/
def execTriggerRequest (p : Fin 4) (received : Bool) (s : State) : Result := .next (triggerRequest p received s)

/-- No sync word within sol_us: the newest issued line is not stored, and its trigger is treated as refused
(R443). -/
def solTimeout (p : Nat) (s : State) : State :=
  let x := s.port p
  match x.issued.getLast? with
  | none => s
  | some l =>
    refuseTrigger p l.pos (s.setPort p { x with issued := x.issued.dropLast, framing := satInc x.framing })

/-- SOL_TIMEOUT (R443). -/
def execSolTimeout (p : Fin 4) (s : State) : Result := .next (solTimeout p s)

/-- A sync word with no trigger outstanding: none is issued, or the lines of all of them have been received (R442). -/
def syncWithoutTrigger (p : Nat) (received : Bool) (s : State) : State :=
  let x := s.port p
  if x.enable ∧ s.on domFRONT ∧ x.state ≠ .train ∧ (received ∨ x.issued.isEmpty) then
    raise (96 + 16 * p + 4) (s.setPort p { x with framing := satInc x.framing })
  else s

/-- SYNC_WITHOUT_TRIGGER (R442). -/
def execSyncWithoutTrigger (p : Fin 4) (received : Bool) (s : State) : Result := .next (syncWithoutTrigger p received s)

/-! ## Lines (R450) -/

/-- The slot of the oldest received line is written; WR advances, a seam line counts its restart, and high water may
stop the feed (R449, R450, R457). -/
def lineStored (p : Nat) (pairs : List (List Bool)) (s : State) : State :=
  let x := s.port p
  match x.issued with
  | [] => s
  | l :: rest =>
    if !s.on domFRONT then s
    else
      let x := if l.seam then { x with restarts := x.restarts + 1 } else x
      let s := s.writeTen x.tenant.toNat (x.slotAddr x.wr) (x.slotOf x.wr l (x.deframe pairs))
      let s := s.setPort p { x with wr := x.wr + 1, issued := rest }
      highWater p (if l.seam then raise (96 + 16 * p + 2) s else s)

/-- LINE_STORED (R450). Bits of another form are no line of the port's sensor. -/
def execLineStored (p : Fin 4) (pairs : List (List Bool)) (s : State) : Result :=
  if (s.port p).issued.isEmpty ∨ (s.port p).framed pairs then .next (lineStored p pairs s) else .fault .malformed

/-- POSq has been unchanged for SETTLE.us (R457 steps 4 and 7). -/
def settleExpire (p : Nat) (s : State) : State :=
  let x := s.port p
  if !x.enable ∨ !s.on domFRONT then s
  else if x.state = .stopping then settleStop p s
  else if x.kind ≠ 2 ∧ !(s.inState (s.group p) .settleBack).isEmpty then runUp p s
  else s

/-- SETTLE_EXPIRE (R457). -/
def execSettleExpire (p : Fin 4) (s : State) : Result := .next (settleExpire p s)

/-- LOW_WATER_REACHED (R457 step 5). -/
def execLowWaterReached (p : Fin 4) (s : State) : Result :=
  .next (if (s.port p).enable ∧ s.on domFRONT then backUp p s else s)

/-- PF0 writes resume = 1 with MFLT# high: the sequence continues at step 5 (R460; another requester resumes nothing,
log 136). -/
def portResume (q : Requester) (p : Nat) (s : State) : State :=
  let x := s.port p
  if q = .fn 0 ∧ x.state = .fault ∧ s.mfltHigh p then s.setPort p { x with state := .waitLow, mfltStop := false } else s

/-- PORT_RESUME (R460). -/
def execPortResume (q : Requester) (p : Fin 4) (s : State) : Result :=
  .next (regWrite q (.blk (baseROL p)) (portResume q p) s)

/-- A write of CTL.motion (R455; a write of 1 in run-up starts the motion that step 7 did not, log 45). -/
def motionWrite (p : Nat) (on : Bool) (s : State) : State :=
  let s := s.setPort p { s.port p with motion := on }
  let x := s.port p
  match x.state with
  | .run => motionAsked p s
  | .runup => if on ∧ !x.moving then startMotion p s else s
  | _ => s

/-- MOTION_WRITE (R455). -/
def execMotionWrite (q : Requester) (p : Fin 4) (on : Bool) (s : State) : Result :=
  .next (regWrite q (.blk (baseROL p)) (motionWrite p on) s)

/-- A write of ROL_Pp_RD takes effect with its high half (R450). -/
def rdWrite (q : Requester) (p : Nat) (high : Bool) (v : BitVec 32) (s : State) : State :=
  let x := s.port p
  if !high then s.setPort p { x with rdLo := v }
  else if !x.hostRead then s
  else
    let n : BitVec 64 := v ++ x.rdLo
    if q ≠ .fn 0 ∨ x.wr < n ∨ n < x.rd then regError q (baseROL p + 0x44) s
    else s.setPort p { x with rd := n }

/-- RD_WRITE (R450). -/
def execRdWrite (q : Requester) (p : Fin 4) (high : Bool) (v : BitVec 32) (s : State) : Result :=
  .next (regWrite q (.blk (baseROL p + if high then 0x44 else 0x40)) (rdWrite q p high v) s)

/-- A read of ROL_Pp_WR_LO latches WR_HI (Table 15-3). -/
def wrRead (p : Nat) (s : State) : Reg × State :=
  let x := s.port p
  (x.wr.extractLsb' 0 32, s.setPort p { x with wrHi := x.wr.extractLsb' 32 32 })

/-- WR_READ (R450). -/
def execWrRead (q : Requester) (p : Fin 4) (s : State) : Result :=
  .next (regRead q (.blk (baseROL p + 0x38)) (wrRead p) s)

/-- A read of ROL_Pp_ERRCNT clears its counts. -/
def errcntRead (p : Nat) (s : State) : Reg × State :=
  let x := s.port p
  (pack [(16, x.framing.toNat), (0, x.refused.toNat)], s.setPort p { x with framing := 0, refused := 0 })

/-- ERRCNT_READ (R456). -/
def execErrcntRead (q : Requester) (p : Fin 4) (s : State) : Result :=
  .next (regRead q (.blk (baseROL p + 0x54)) (errcntRead p) s)

end Sys2Proof.Machine
end

