-- ==== Sys2Proof/Machine/RegsUnits.lean ====
section
/-!
DEFINITION. What a read and a write of each register of WBK, GRD and ROL does (Tables 9-5, 11-2, 14-3, 15-3).
-/
namespace Sys2Proof.Machine

/-! ## WBK -/

/-- WBK_CHk_CTL. -/
def Chan.ctl (x : Chan) : Reg :=
  pack [(31, x.armed.toNat), (30, x.late.toNat), (29, x.overrun.toNat), (28, x.captured.toNat), (22, x.lport.toNat),
        (20, x.outForce.toNat), (17, x.action.toNat), (15, x.edgeDir.toNat), (12, x.base.toNat), (10, x.mode.toNat),
        (5, x.capSrc.toNat)]

def wbkRead (off : Nat) (s : State) : Option (Reg × State) :=
  if off = 0x000 then some (timeRead s)
  else if off = 0x004 then shows (reg32 s.wbk.timeHi.toNat) s
  else if off = 0x008 then shows s.wbk.wrap s
  else if 0x010 ≤ off ∧ off < 0x050 then
    let p := (off - 0x010) / 0x10
    let x := s.pos p
    match off % 0x10 with
    | 0x0 => shows x.val s
    | 0x4 => shows 0 s
    | 0x8 => shows (pack [(9, x.enable.toNat), (8, x.invert.toNat), (0, x.filt.toNat)]) s
    | _ => some (posErrRead p s)
  else if 0x100 ≤ off ∧ off < 0x300 then
    let k := (off - 0x100) / 0x20
    let x := s.chan k
    match off % 0x20 with
    | 0x00 => shows x.ctl s
    | 0x04 => shows (x.cmp.extractLsb' 0 32) s
    | 0x08 => shows (reg32 (fld x.cmp 32 8)) s
    | 0x0C => shows x.step s
    | 0x10 => shows (reg32 x.remain.toNat) s
    | 0x14 => shows (pack [(24, x.presc.toNat), (16, x.filt.toNat), (0, x.pw.toNat)]) s
    | 0x18 => some (capRead k s)
    | _ => shows (reg32 x.capHi.toNat) s
  else none

def wbkWrite (q : Requester) (off : Nat) (v : BitVec 32) (s : State) : Option State :=
  if 0x010 ≤ off ∧ off < 0x050 then
    let p := (off - 0x010) / 0x10
    match off % 0x10 with
    | 0x4 => some (s.setPos p { s.pos p with val := v })
    | 0x8 => some (s.setPos p { s.pos p with enable := bit v 9, invert := bit v 8, filt := fldv v 0 8 })
    | _ => none
  else if 0x100 ≤ off ∧ off < 0x300 then
    let k := (off - 0x100) / 0x20
    let own (f : State → State) : Option State := some (guardOwned q k (0x700000 + off) f s)
    match off % 0x20 with
    | 0x00 => own (channelCtl q k v)
    | 0x04 => own (cmpWrite k false v)
    | 0x08 => own (cmpWrite k true v)
    | 0x0C => own (fun s => s.setChan k { s.chan k with step := v })
    | 0x10 => own (fun s => s.setChan k { s.chan k with remain := fldv v 0 16 })
    | 0x14 => some (s.setChan k { s.chan k with
        presc := fldv v 24 8, filt := fldv v 16 8, pw := orOne (fldv v 0 16) })
    | _ => none
  else none

/-! ## GRD -/

/-- GRD_TILEi_CTL. -/
def Tile.ctl (x : Tile) : Reg :=
  pack [(31, x.exclude.toNat), (30, x.running.toNat), (22, x.fault.toNat), (0, x.tag.toNat)]

/-- A tile's register; PACE and WDOG read 0 while its quadrant is off (R594). -/
def tileRead (i off : Nat) (s : State) : Option (Reg × State) :=
  let x := s.tile i
  let on := s.on (domGRID (quadrant i))
  if off = 0x000 then shows x.ctl s
  else if off = 0x008 then some (paceLo i s)
  else if off = 0x00C then shows (if on then reg32 x.paceHi.toNat else 0) s
  else if off = 0x010 then shows (if on then reg32 x.wdog.toNat else 0) s
  else if 0x040 ≤ off ∧ off < 0x080 then shows (x.sat.find 0 ((off - 0x040) / 4)) s
  else if 0x080 ≤ off ∧ off < 0x0C0 then
    let c := x.satCfg.find {} ((off - 0x080) / 4)
    shows (pack [(16, c.windowUs.toNat), (0, c.threshold.toNat)]) s
  else none

def grdRead (off : Nat) (s : State) : Option (Reg × State) :=
  if 0x100000 ≤ off then tileRead ((off - 0x100000) / 0x400) (off % 0x400) s
  else if off = 0x000 then shows (pack [(31, s.grd.chokeBusy.toNat)]) s
  else if 0x010 ≤ off ∧ off < 0x020 then
    let r := s.grd.qrate.find {} ((off - 0x010) / 4)
    shows (pack [(16, r.tiles.toNat), (0, r.mhs.toNat)]) s
  else if off = 0x020 then shows (reg32 s.grd.wdogLimit.toNat) s
  else if off = 0x030 then some (fenceStat s)
  else if 0x040 ≤ off ∧ off < 0x050 then
    let r := s.grd.qsat.find {} ((off - 0x040) / 4)
    shows (pack [(14, r.tag.toNat), (4, r.tile.toNat), (0, r.slot.toNat)]) s
  else none

/-- A bell core may write what PF0 may not: the tag and the saturation settings of a stopped tile; the tag stays 0 while
the quadrant is off (Table 9-5, R284, R354). -/
def tileWrite (q : Requester) (i off : Nat) (v : BitVec 32) (s : State) : Option State :=
  let x := s.tile i
  let core := match q with
    | .core _ => true
    | _ => false
  if off = 0x000 then
    let tag := if core && !x.running && s.on (domGRID (quadrant i)) then fldv v 0 14 else x.tag
    some (s.setTile i { x with exclude := bit v 31, tag := tag })
  else if 0x080 ≤ off ∧ off < 0x0C0 then
    let c : SatCfg := { windowUs := orOne (fldv v 16 16), threshold := fldv v 0 16 }
    if !core then some (regError q (tileReg i off) s)
    else if x.running then some s
    else some (s.setTile i { x with satCfg := x.satCfg.put {} ((off - 0x080) / 4) c })
  else none

def grdWrite (q : Requester) (off : Nat) (v : BitVec 32) (s : State) : Option State :=
  if 0x100000 ≤ off then tileWrite q ((off - 0x100000) / 0x400) (off % 0x400) v s
  else if off = 0x000 then some (chokeWrite q v s)
  else if off = 0x020 then
    some { s with grd := { s.grd with wdogLimit := BitVec.ofNat 16 (max 250 (fld v 0 16)) } }
  else none

/-! ## ROL -/

/-- The number of a port's state. -/
def PortState.code : PortState → Nat
  | .off => 0 | .train => 1 | .run => 2 | .stopping => 3 | .waitLow => 4 | .backup => 5 | .settleBack => 6
  | .runup => 7 | .fault => 8

def rolRead (off : Nat) (s : State) : Option (Reg × State) :=
  if 0x400 ≤ off then none
  else
    let p := off / 0x100
    let x := s.port p
    match off % 0x100 with
    | 0x00 => shows (pack [(31, x.enable.toNat), (30, x.motion.toNat), (28, x.hostRead.toNat), (20, x.state.code),
                           (16, x.err.toNat)]) s
    | 0x04 => shows x.fmt s
    | 0x08 => shows x.trig s
    | 0x0C => shows (reg32 x.rate.toNat) s
    | 0x10 => shows (x.base.extractLsb' 0 32) s
    | 0x14 => shows (reg32 (fld x.base 32 8)) s
    | 0x18 => shows (reg32 x.size.toNat) s
    | 0x1C => shows (pack [(16, x.hw.toNat), (0, x.lw.toNat)]) s
    | 0x20 => shows (reg32 x.tenant.toNat) s
    | 0x24 => shows x.mot s
    | 0x28 => shows x.runup s
    | 0x2C => shows (reg32 x.settle.toNat) s
    | 0x30 => shows x.start s
    | 0x34 => shows x.restartPos s
    | 0x38 => some (wrRead p s)
    | 0x3C => shows x.wrHi s
    | 0x40 => shows (loHalf x.rd) s
    | 0x44 => shows (hiHalf x.rd) s
    | 0x48 => shows x.mres s
    | 0x4C => shows x.slot s
    | 0x50 => shows x.restarts s
    | 0x54 => some (errcntRead p s)
    | _ => none

/-- A write of ROL_Pp_CTL: enable and disable, or motion and resume on a port that stays enabled (R455, R460, R462,
R463). -/
def rolCtl (q : Requester) (p : Nat) (v : BitVec 32) (s : State) : State :=
  let x := s.port p
  if !x.enable then (if bit v 31 then portEnable p v s else portFields p v s)
  else if !bit v 31 then
    let s := portDisable p s
    s.setPort p { s.port p with motion := bit v 30 }
  else
    let s := motionWrite p (bit v 30) s
    if bit v 29 then portResume q p s else s

def rolWrite (q : Requester) (off : Nat) (v : BitVec 32) (s : State) : Option State :=
  if 0x400 ≤ off then none
  else
    let p := off / 0x100
    let x := s.port p
    let put (y : Port) : Option State := some (s.setPort p y)
    match off % 0x100 with
    | 0x00 => some (rolCtl q p v s)
    | 0x04 => put { x with fmt := v &&& 0x03FFFFFF }
    | 0x08 => put { x with trig := pack [(16, fld v 16 16), (8, (orOne (fldv v 8 8)).toNat), (0, (orOne (fldv v 0 8)).toNat)] }
    | 0x0C => put { x with rate := fldv v 0 18 }
    | 0x10 => put { x with base := (x.base.extractLsb' 32 8) ++ v }
    | 0x14 => put { x with base := (fldv v 0 8) ++ (x.base.extractLsb' 0 32) }
    | 0x18 => put { x with size := fldv v 0 17 }
    | 0x1C => put { x with hw := fldv v 16 16, lw := fldv v 0 16 }
    | 0x20 => put { x with tenant := fldv v 0 6 }
    | 0x24 => put { x with mot := v &&& 0xFF00FFFF }
    | 0x28 => put { x with runup := v }
    | 0x2C => put { x with settle := orOne (fldv v 0 16) }
    | 0x30 => put { x with start := v }
    | 0x40 => some (rdWrite q p false v s)
    | 0x44 => some (rdWrite q p true v s)
    | _ => none

end Sys2Proof.Machine
end

