-- ==== Sys2Proof/Machine/RegsFront.lean ====
section
/-!
DEFINITION. What a read and a write of each register of INK, TOK, CYM, CHN and FLT and of a tenant page does (Tables
5-3, 5-6, 6-7, 8-6, 16-6, 17-5, 18-9, 19-3, 20-6).
-/
namespace Sys2Proof.Machine

/-! ## INK -/

def inkRead (off : Nat) (s : State) : Option (Reg × State) :=
  if 0x100 ≤ off ∧ off < 0x500 then
    let n := (off - 0x100) / 0x40
    let x := s.queue n
    match off % 0x40 with
    | 0x00 => shows (x.cfg ||| pack [(18, x.err.toNat)]) s
    | 0x04 => shows (reg32 x.lines.toNat) s
    | 0x08 => shows (loHalf x.seed) s
    | 0x0C => shows (hiHalf x.seed) s
    | 0x10 => shows x.augCfg s
    | 0x14 => shows x.roiBase s
    | 0x18 => shows x.roiBudget s
    | 0x1C => shows x.cacheBase s
    | 0x20 => shows (reg32 x.cacheSlots.toNat) s
    | 0x24 => shows x.cacheLines s
    | 0x28 => shows x.count s
    | 0x2C => some (inkHits n s)
    | _ => none
  else none

def inkWrite (q : Requester) (off : Nat) (v : BitVec 32) (s : State) : Option State :=
  if 0x100 ≤ off ∧ off < 0x500 then
    let n := (off - 0x100) / 0x40
    let x := s.queue n
    let put (y : Queue) : Option State := some (s.setQueue n y)
    match off % 0x40 with
    | 0x00 => some (writeQueueCfg q n v s)
    | 0x04 => put { x with lines := orOne (fldv v 0 18) }
    | 0x08 => put { x with seed := setHalf x.seed false v }
    | 0x0C => put { x with seed := setHalf x.seed true v }
    | 0x10 => put { x with augCfg := v &&& 0xFFFF7F7F }
    | 0x14 => put { x with roiBase := v }
    | 0x18 => put { x with roiBudget := v }
    | 0x1C => put { x with cacheBase := v }
    | 0x20 => put { x with cacheSlots := orOne (fldv v 0 16) }
    | 0x24 => put { x with cacheLines := v }
    | _ => none
  else none

/-! ## TOK -/

/-- TOK_STAT; the tenant of a unit with nothing on die reads 0. -/
def State.tokStat (s : State) : Reg :=
  let x := s.tok
  pack [(24, min 255 x.damps.length), (16, min 255 x.streams.length), (14, x.dampOn.isSome.toNat), (8, x.dampOn.getD 0),
        (6, x.onDie.isSome.toNat), (0, x.onDie.getD 0)]

/-- TOK_TENt_CTL. -/
def TokTen.ctl (x : TokTen) : Reg :=
  pack [(31, x.tokValid.toNat), (30, x.gramValid.toNat), (29, (decide (x.checking ≠ .none)).toNat),
        (20, x.tokErr.toNat), (16, x.gramErr.toNat)]

def tokRead (off : Nat) (s : State) : Option (Reg × State) :=
  if off = 0x000 then shows s.tokStat s
  else if off = 0x010 then some (tokLoads s)
  else if 0x100 ≤ off ∧ off < 0x900 then
    let x := s.tokTen ((off - 0x100) / 0x20)
    match off % 0x20 with
    | 0x00 => shows x.ctl s
    | 0x04 => shows x.tokset s
    | 0x08 => shows x.gram s
    | 0x0C => shows x.dampReq s
    | 0x10 => shows x.dampRes s
    | 0x14 => shows (reg32 x.slots.toNat) s
    | 0x18 => shows x.tokCrc s
    | _ => shows x.gramCrc s
  else none

/-- TOK_TENt_CTL: what it clears is cleared first, and one check starts (log 105). -/
def tokCtl (t : Nat) (v : BitVec 32) (s : State) : State :=
  let s := if bit v 3 then gramClear t s else s
  let s := if bit v 2 then tokClear t s else s
  if bit v 0 then tokLoad t s else if bit v 1 then gramLoad t s else s

def tokRegWrite (q : Requester) (off : Nat) (v : BitVec 32) (s : State) : Option State :=
  if 0x100 ≤ off ∧ off < 0x900 then
    let t := (off - 0x100) / 0x20
    let r := off % 0x20
    let put (f : TokTen → TokTen) : Option State := some (tokWrite q t r (fun s => s.setTokTen t (f (s.tokTen t))) s)
    match r with
    | 0x00 => some (tokWrite q t 0 (tokCtl t v) s)
    | 0x04 => put (fun x => { x with tokset := v })
    | 0x08 => put (fun x => { x with gram := v })
    | 0x0C => put (fun x => { x with dampReq := v })
    | 0x10 => put (fun x => { x with dampRes := v })
    | 0x14 => put (fun x => { x with slots := fldv v 0 11 })
    | _ => none
  else none

/-! ## CYM -/

def cymRead (off : Nat) (s : State) : Option (Reg × State) :=
  if off = 0x000 then
    shows (pack [(31, s.cym.service.isSome.toNat), (16, (s.cym.service.map (·.req.stream)).getD 0 % 8),
                 (0, s.cym.reqs.length % 512)]) s
  else if off = 0x010 then shows s.cym.dmgNum s
  else if off = 0x014 then shows (pack [(24, s.cym.dmgStream.toNat), (0, s.cym.dmgCause.toNat)]) s
  else if off = 0x018 then shows s.cym.dmgOff s
  else if off = 0x01C then shows s.cym.dmgPoc s
  else if 0x100 ≤ off ∧ off < 0x500 then
    let x := s.stream ((off - 0x100) / 0x80)
    let r := off % 0x80
    if 0x28 ≤ r ∧ r < 0x38 then shows (x.layers.find 0 ((r - 0x28) / 4)) s
    else match r with
    | 0x00 => shows (pack [(31, x.enable.toNat), (30, x.keyReq.toNat), (20, x.state.toNat), (16, x.err.toNat)]) s
    | 0x04 => shows x.cfg s
    | 0x08 => shows (pack [(16, x.width.toNat), (0, x.height.toNat)]) s
    | 0x0C => shows (reg32 x.idr.toNat) s
    | 0x10 => shows x.area s
    | 0x14 => shows x.areaLines s
    | 0x18 => shows (reg32 x.needLines) s
    | 0x1C => shows x.req s
    | 0x20 => shows x.rslt s
    | 0x24 => shows (reg32 x.slots.toNat) s
    | 0x38 => shows (reg32 x.res.toNat) s
    | 0x3C => shows x.pics s
    | 0x40 => shows x.out s
    | 0x44 => shows (reg32 x.outSlots.toNat) s
    | 0x48 => shows x.outWr s
    | 0x4C => shows x.outRd s
    | 0x50 => shows x.dmg s
    | _ => none
  else none

/-- CYM_Sn_CTL: enable or disable, then key_req and restart (R523, R537, R545). -/
def cymCtl (n : Nat) (v : BitVec 32) (s : State) : State :=
  let s := if bit v 31 then enableStream n s else disableStream n s
  let s := if bit v 30 then keyRequest n s else s
  if bit v 29 then restartStream n s else s

def cymWrite (q : Requester) (off : Nat) (v : BitVec 32) (s : State) : Option State :=
  if 0x100 ≤ off ∧ off < 0x500 then
    let n := (off - 0x100) / 0x80
    let x := s.stream n
    let r := off % 0x80
    -- R521
    let put (y : Stream) : Option State :=
      some (if x.enable then regError q (baseCYM n + r) s else s.setStream n y)
    if 0x28 ≤ r ∧ r < 0x38 then put { x with layers := x.layers.put 0 ((r - 0x28) / 4) v }
    else match r with
    | 0x00 => some (cymCtl n v s)
    | 0x04 => put { x with cfg := v &&& 0xFFF0003F }
    | 0x08 => put { x with width := fldv v 16 16, height := fldv v 0 16 }
    | 0x0C => put { x with idr := fldv v 0 16 }
    | 0x10 => put { x with area := v }
    | 0x14 => put { x with areaLines := v }
    | 0x1C => put { x with req := v }
    | 0x20 => put { x with rslt := v }
    | 0x24 => put { x with slots := fldv v 0 5 }
    | 0x38 => put { x with res := fldv v 0 24 }
    | 0x40 => put { x with out := v }
    | 0x44 => put { x with outSlots := fldv v 0 7 }
    | 0x4C => some (if (v - x.outRd).toNat ≤ (x.outWr - x.outRd).toNat then s.setStream n { x with outRd := v } else s)
    | _ => none
  else none

/-! ## CHN -/

/-- CHN_UNIT; head and tail are taken from the links while CHN is on, and keep their last values while it is off (R556,
R594). -/
def State.chnUnit (s : State) : Reg :=
  let head := if s.on domCHN then s.isHead else s.chn.head
  let tail := if s.on domCHN then s.isTail else s.chn.tail
  pack [(31, s.chn.assigned.toNat), (30, head.toNat), (29, tail.toNat), (0, s.chn.unit.toNat)]

def chnRead (off : Nat) (s : State) : Option (Reg × State) :=
  let a := s.chn.arrShown
  if 0x400 ≤ off ∧ off < 0x600 then
    let w := (off - 0x400) / 4
    shows (pack ((List.range 32).map (fun j => (j, (s.chn.absent.contains (BitVec.ofNat 12 (32 * w + j))).toNat)))) s
  else if 0x800 ≤ off ∧ off < 0xC00 then
    let w := (off - 0x800) / 4
    shows (pack ((List.range 16).map (fun j => (2 * j, s.routeTo (16 * w + j))))) s
  else match off with
  | 0x000 => shows s.chnUnit s
  | 0x004 => shows (reg32 s.chn.bypassReg.toNat) s
  | 0x008 => some (chnStat s)
  | 0x00C => shows (reg32 s.chn.units.toNat) s
  | 0x010 => some (linkStat 0 s)
  | 0x014 => some (linkStat 1 s)
  | 0x018 => some (crcCount 0 s)
  | 0x01C => some (crcCount 1 s)
  | 0x030 => some (arrRead s)
  | 0x034 => shows (a.send.extractLsb' 0 32) s
  | 0x038 => shows (reg32 (fld a.send 32 16)) s
  | 0x03C => shows (a.stamp.extractLsb' 0 32) s
  | 0x040 => shows (reg32 (fld a.stamp 32 16)) s
  | _ => none

def chnWrite (q : Requester) (off : Nat) (v : BitVec 32) (s : State) : Option State :=
  match off with
  | 0x004 => some (chnCtlWrite q v s)
  | 0x008 => some { s with chn := { s.chn with duplicate := s.chn.duplicate && !bit v 2 } }
  | _ => none

/-! ## FLT -/

def fltRead (off : Nat) (s : State) : Option (Reg × State) :=
  if 0x104 ≤ off ∧ off < 0x180 then shows (s.flt.cnt.find 0 ((off - 0x100) / 4)) s
  else if 0x1000 ≤ off ∧ off < 0x3000 then
    shows ((s.flt.recs.find [] ((off - 0x1000) / 32)).getD (off / 4 % 8) 0) s
  else if 0x4000 ≤ off ∧ off < 0x5000 then shows (reg32 (s.flt.tileHw.find 0 ((off - 0x4000) / 4)).toNat) s
  else match off with
  | 0x000 => shows (pack [(31, s.flt.halted.toNat), (30, (decide (s.boot.stage = .recovery)).toNat)]) s
  | 0x004 => shows s.flt.next s
  | 0x008 => shows 0 s
  | 0x00C => shows s.flt.lastJob s
  | 0x010 => some (regerrCount s)
  | 0x014 => shows s.flt.regerrAddr s
  | 0x020 => shows (reg32 s.flt.bwdogMs.toNat) s
  | 0x8000 => shows 0 s
  | 0x8004 => shows (reg32 (4 * s.boot.fwAddr.toNat)) s
  | 0x8008 => shows 0 s
  | 0x800C => shows (reg32 s.boot.fwBusy.toNat) s
  | 0x8010 => shows (reg32 s.boot.fwStatus.toNat) s
  | _ => none

def fltWrite (q : Requester) (off : Nat) (v : BitVec 32) (s : State) : Option State :=
  match off with
  | 0x008 => some (fltCtl q v s)
  | 0x020 => some { s with flt := { s.flt with bwdogMs := orOne (fldv v 0 16) } }
  | 0x8000 => some (fwCtl q v s)
  | 0x8004 => some { s with boot := { s.boot with fwAddr := fldv v 2 30 } }
  | 0x8008 => some (fwData v s)
  | _ => none

/-! ## A tenant page -/

/-- MSI-X table entries of a function (Table 5-3). -/
def msixEntries (t : Nat) : Nat := if t = 0 then 64 else 16

/-- TPG_Rr_STAT: fetched descriptors without a written completion remain (Table 6-7). -/
def Ring.stat (x : Ring) : Reg := pack [(8, x.err.toNat), (1, x.stopped.toNat), (0, (!x.inflight.isEmpty).toNat)]

def ringRead (t r off : Nat) (s : State) : Option (Reg × State) :=
  let x := s.ring t r
  match off with
  | 0x00 => shows (loHalf x.sqBase) s
  | 0x04 => shows (hiHalf x.sqBase) s
  | 0x08 => shows (loHalf x.cqBase) s
  | 0x0C => shows (hiHalf x.cqBase) s
  | 0x10 => shows (pack [(8, x.k.toNat), (0, x.enable.toNat)]) s
  | 0x14 => shows x.stat s
  | 0x18 => shows x.sqHead s
  | 0x1C => shows x.cqTail s
  | _ => none

def tpgRead (t off : Nat) (s : State) : Option (Reg × State) :=
  let x := s.tenant t
  if 0x100 ≤ off ∧ off < 0x200 then ringRead t ((off - 0x100) / 0x20) (off % 0x20) s
  else if 0x400 ≤ off ∧ off < 0x440 then
    let r := s.ring t ((off - 0x400) / 8)
    if off % 8 = 0 then
      shows (pack [(16, r.coal.timeUs.toNat), (8, r.coal.countM1.toNat), (0, r.coal.wake.toNat)]) s
    else shows (pack [(16, r.firePending.toNat), (0, r.uncovered % 512)]) s
  else if 0x8000 ≤ off ∧ off < 0x8000 + 16 * msixEntries t then
    shows ((s.func t).msixWord ((off - 0x8000) / 4)) s
  else match off with
  | 0x000 => shows (pack [(16, 0x0036), (0, t)]) s
  | 0x004 => shows (pack [(2, s.hif.cxl.toNat), (1, (s.scrubbing t).toNat), (0, x.enable.toNat)]) s
  | 0x008 => shows (reg32 x.mapCount.toNat) s
  | 0x300 => shows (loHalf x.chimeAddr) s
  | 0x304 => shows (hiHalf x.chimeAddr) s
  | 0x308 => shows (pack [(16, s.effDus t % 65536), (0, x.pollUs.toNat)]) s
  | 0x30C => shows (reg32 x.epoch.toNat) s
  | 0x9000 => shows (if t = 0 then loHalf (s.func t).pba else reg32 (fld (s.func t).pba 0 16)) s
  | 0x9004 => shows (if t = 0 then hiHalf (s.func t).pba else 0) s
  | _ => none

/-- TPG_Rr_CTL (R169, R172-R174): on an enabled pair a write with another log2_size is discarded whole, with one
error, whatever its enable bit (R173, log 107). -/
def ringCtlWrite (q : Requester) (t r : Nat) (v : BitVec 32) (s : State) : State :=
  let x := s.ring t r
  if x.enable ∧ fldv v 8 5 ≠ x.k then regError q (RegAddr.tpg t (ringCtl r)).bar0 s
  else if bit v 0 then enableRing q t r (fldv v 8 5) s
  else if x.enable then disableRing t r s
  else s.setRing t r { x with k := fldv v 8 5 }

/-- A base register that R173 locks. -/
def baseLocked (q : Requester) (t r off : Nat) (f : Ring → Ring) (s : State) : State :=
  if (s.ring t r).enable then regError q (RegAddr.tpg t off).bar0 s else s.setRing t r (f (s.ring t r))

def ringWrite (q : Requester) (t r off : Nat) (v : BitVec 32) (s : State) : Option State :=
  match off % 0x20 with
  | 0x00 => some (baseLocked q t r off (fun x => { x with sqBase := setHalf x.sqBase false (lineLow v) }) s)
  | 0x04 => some (baseLocked q t r off (fun x => { x with sqBase := setHalf x.sqBase true v }) s)
  | 0x08 => some (baseLocked q t r off (fun x => { x with cqBase := setHalf x.cqBase false (lineLow v) }) s)
  | 0x0C => some (baseLocked q t r off (fun x => { x with cqBase := setHalf x.cqBase true v }) s)
  | 0x10 => some (ringCtlWrite q t r v s)
  | _ => none

/-- A write of an MSI-X table word; the Vector Control word keeps its Mask bit alone. -/
def msixWrite (t w : Nat) (v : BitVec 32) (s : State) : State :=
  s.setFunc t ((s.func t).setMsixWord w (if w % 4 = 3 then v &&& 1 else v))

def tpgWrite (q : Requester) (t off : Nat) (v : BitVec 32) (s : State) : Option State :=
  let x := s.tenant t
  if 0x100 ≤ off ∧ off < 0x200 then ringWrite q t ((off - 0x100) / 0x20) off v s
  else if 0x400 ≤ off ∧ off < 0x440 ∧ off % 8 = 0 then some (coalWrite t ((off - 0x400) / 8) v false s)
  else if 0x8000 ≤ off ∧ off < 0x8000 + 16 * msixEntries t then some (msixWrite t ((off - 0x8000) / 4) v s)
  else match off with
  | 0x300 => some (s.setTenant t { x with chimeAddr := setHalf x.chimeAddr false (lineLow v) })
  | 0x304 => some (s.setTenant t { x with chimeAddr := setHalf x.chimeAddr true v })
  | 0x308 => some (writePoll t v s)
  | _ => none

end Sys2Proof.Machine
end

