-- ==== Sys2Proof/Machine/Registers.lean ====
section
/-!
DEFINITION. REGISTER_READ and REGISTER_WRITE: any access to a register, by the access rules of R16-R19, R97, R119, R150
and R593, and to a field of configuration space.
-/
namespace Sys2Proof.Machine

/-! ## One aligned 32-bit register -/

/-- A read of the register at an offset of PF0's windows, in the order of Table 21-1. -/
def blockRead (q : Requester) (off : Nat) (s : State) : Option (Reg × State) :=
  match off / 0x100000 with
  | 0x0 => (brdRead off s).map (fun v => (v, s))
  | 0x1 => pwrRead (off - 0x100000) s
  | 0x2 => clkRead (off - 0x200000) s
  | 0x3 => hifRead (off - 0x300000) s
  | 0x4 => tenRead (off - 0x400000) s
  | 0x5 => gngRead (off - 0x500000) s
  | 0x6 => carRead q (off - 0x600000) s
  | 0x7 => wbkRead (off - 0x700000) s
  | 0x8 => memRead (off - 0x800000) s
  | 0x9 => schRead (off - 0x900000) s
  | 0xA => grdRead (off - 0xA00000) s
  | 0xB => grdRead (off - 0xA00000) s
  | 0xC => rolRead (off - 0xC00000) s
  | 0xD => inkRead (off - 0xD00000) s
  | 0xE => tokRead (off - 0xE00000) s
  | 0xF => cymRead (off - 0xF00000) s
  | 0x10 => chnRead (off - 0x1000000) s
  | 0x11 => fltRead (off - 0x1100000) s
  | _ => none

/-- A write of the register at an offset of PF0's windows; none where no field takes a write. -/
def blockWrite (q : Requester) (off : Nat) (v : BitVec 32) (s : State) : Option State :=
  match off / 0x100000 with
  | 0x0 => brdWrite q off v s
  | 0x1 => pwrWrite q (off - 0x100000) v s
  | 0x2 => clkWrite (off - 0x200000) v s
  | 0x4 => tenWrite q (off - 0x400000) v s
  | 0x6 => carWrite q (off - 0x600000) v s
  | 0x7 => wbkWrite q (off - 0x700000) v s
  | 0x8 => memWrite q (off - 0x800000) v s
  | 0x9 => schWrite q (off - 0x900000) v s
  | 0xA => grdWrite q (off - 0xA00000) v s
  | 0xB => grdWrite q (off - 0xA00000) v s
  | 0xC => rolWrite q (off - 0xC00000) v s
  | 0xD => inkWrite q (off - 0xD00000) v s
  | 0xE => tokRegWrite q (off - 0xE00000) v s
  | 0xF => cymWrite q (off - 0xF00000) v s
  | 0x10 => chnWrite q (off - 0x1000000) v s
  | 0x11 => fltWrite q (off - 0x1100000) v s
  | _ => none

/-- A read of any register; none where the offset is unassigned. -/
def addrRead (q : Requester) (a : RegAddr) (s : State) : Option (Reg × State) :=
  match a with
  | .blk off => blockRead q off s
  | .tpg t off => tpgRead t off s

/-- A write of any register; none where no field takes a write. -/
def addrWrite (q : Requester) (a : RegAddr) (v : BitVec 32) (s : State) : Option State :=
  match a with
  | .blk off => blockWrite q off v s
  | .tpg t off => tpgWrite q t off v s

/-- Read 32 bits: an unassigned offset reads 0 (R150). -/
def read32 (q : Requester) (a : RegAddr) (s : State) : Reg × State := (addrRead q a s).getD (0, s)

/-- Write 32 bits: a read-only register ignores it, and an unassigned offset is an error (R16, R150). -/
def write32 (q : Requester) (a : RegAddr) (v : BitVec 32) (s : State) : State :=
  match addrWrite q a v s with
  | some s => s
  | none => if (addrRead q a s).isSome then s else regError q a.bar0 s

/-! ## An access of any size (R18, R19) -/

/-- Where a requester's BAR0 address lies: PF0 and the bell cores see the block windows and tenant 0's page, and a VF
its own page; none beyond the BAR (R148, R149). -/
def regAddr (q : Requester) (addr : Nat) : Option RegAddr :=
  let pf0 : Option RegAddr :=
    if 0x1F00000 ≤ addr ∧ addr < 0x1F10000 then some (.tpg 0 (addr - 0x1F00000))
    else if addr < 0x2000000 then some (.blk addr) else none
  match q with
  | .fn t => if t = 0 then pf0 else if addr < 0x10000 then some (.tpg t addr) else none
  | .core _ => pf0
  | .smbus _ => pf0

/-- The address of the next register. -/
def RegAddr.next : RegAddr → RegAddr
  | .blk off => .blk (off + 4)
  | .tpg t off => .tpg t (off + 4)

/-- A misaligned access (R18). -/
def misaligned (addr size : Nat) : Bool :=
  decide (addr % size ≠ 0) || (decide (addr / 4 ≠ (addr + size - 1) / 4) && decide (size ≠ 8))

/-- Bits set in the byte enables of one register. -/
def fullEnables (be : Nat) : Bool := be % 16 == 15

/-- An aligned write within one register (R19, R593). -/
def regWrite32 (q : Requester) (a : RegAddr) (be : Nat) (v : BitVec 32) (s : State) : State :=
  regWriteOr (if fullEnables be && !keyless a v then none else some a.bar0) q a
    (fun s => if fullEnables be then write32 q a v s else regError q a.bar0 s) s

/-- The byte enables of an access of fewer than 4 bytes cover part of its register only. -/
def enables (size be : Nat) : Nat := if size < 4 then 0 else be

/-- A write to a BAR: 64 bits are two 32-bit writes, the lower address first (R18, R19). -/
def barWrite (q : Requester) (addr size be : Nat) (data : BitVec 64) (s : State) : State :=
  match regAddr q (addr / 4 * 4) with
  | none => s
  | some a =>
    if misaligned addr size then
      let off := (match a with
        | .blk _ => addr
        | .tpg t o => (RegAddr.tpg t (o + addr % 4)).bar0)
      regWriteOr (some off) q a (regError q off) s
    else if size = 8 then regWrite32 q a.next (be / 16) (hiHalf data) (regWrite32 q a be (loHalf data) s)
    else regWrite32 q a (enables size be) (loHalf data) s

/-- A read of a BAR: 64 bits are two 32-bit reads, the lower address first; a misaligned read returns 0 (R18, R19). -/
def barRead (q : Requester) (addr size : Nat) (s : State) : State :=
  match regAddr q (addr / 4 * 4) with
  | none => { s with rdata := 0xFFFFFFFF }
  | some a =>
    if misaligned addr size then
      regRead q a (fun s => (0, regError q (match a with
        | .blk _ => addr
        | .tpg t o => (RegAddr.tpg t (o + addr % 4)).bar0) s)) s
    else if size = 8 then
      let s := regRead q a (read32 q a) s
      let lo := loHalf s.rdata
      let s := regRead q a.next (read32 q a.next) s
      { s with rdata := loHalf s.rdata ++ lo }
    else regRead q a (read32 q a) s

/-! ## Configuration space (log 7) -/

/-- The support of Table 5-1 (R133). -/
def optionSupported : PcieOption → Bool
  | .tenBitTags | .ecrc | .aer | .flr | .ari | .srIov | .msix | .l1 | .l11 | .l12 | .d3hot | .d3cold => true
  | .noSnoop | .msi | .intx | .l0s | .d1 | .d2 | .ats | .pri | .pasid | .tph | .ptm | .resizableBar | .atomicOp => false

/-- A 64-bit, non-prefetchable memory BAR at an address (R148): the low half carries its type. -/
def barLow (a : BitVec 64) : Nat := (loHalf a).toNat + 4

/-- The value of a field; the SR-IOV capability, the BARs and the CXL DVSEC are PF0's, and a VF has the payload limit
and the completion timeout of PF0 (R130, R133, R135, R136, R138, R148, log 128). -/
def cfgRead (t : Nat) (f : CfgField) (s : State) : Nat :=
  let x := s.func t
  let pf (n : Nat) : Nat := if t = 0 then n else 0
  match f with
  | .mse => x.mse.toNat
  | .bme => x.bme.toNat
  | .relaxed => x.relaxed.toNat
  | .msixEnable => x.msixEn.toNat
  | .functionMask => x.fnMask.toNat
  | .mrrs => Nat.log2 (x.mrrs / 128)
  | .maxPayload => Nat.log2 ((s.func 0).mps / 128)
  | .ctoDisable => (s.func 0).ctoDisable.toNat
  | .ctoValue => (s.func 0).ctoValue.toNat
  | .ctoRanges => 0xF
  | .ctoDisableSupported => 1
  | .aspmL1 => s.hif.l1.toNat
  | .noSoftReset => 1
  | .aerStatus => x.aerStatus.toNat
  | .ecrcGenerate => x.ecrcGen.toNat
  | .ecrcCheck => x.ecrcCheck.toNat
  | .totalVfs => pf 63
  | .numVfs => pf s.hif.numVfs.toNat
  | .vfEnable => pf s.hif.vfEnable.toNat
  | .ariHierarchy => pf s.hif.ari.toNat
  | .bar0Lo => pf (barLow x.bar0)
  | .bar0Hi => pf (hiHalf x.bar0).toNat
  | .vfBar0Lo => pf (barLow s.hif.vfBar0)
  | .vfBar0Hi => pf (hiHalf s.hif.vfBar0).toNat
  | .otherBar => 0
  | .cxlCacheCapable => pf s.hif.cxl.toNat
  | .cxlMemCapable => 0
  | .cxlHdmCount => 0
  | .supports o => (optionSupported o).toNat

/-- A write of a field of PF0 that decides which VFs exist (R136). -/
def vfWrite (f : CfgField) (v : BitVec 64) (s : State) : State :=
  let h := s.hif
  match f with
  | .numVfs => numvfsWrite (fldv v 0 16) h.vfEnable h.ari s
  | .vfEnable => numvfsWrite h.numVfs (bit v 0) h.ari s
  | .ariHierarchy => numvfsWrite h.numVfs h.vfEnable (bit v 0) s
  | _ => s

/-- A write of PF0's half of a BAR: address bits below its size stay 0 (R148). -/
def barWriteCfg (f : CfgField) (v : BitVec 64) (s : State) : State :=
  let x := s.func 0
  match f with
  | .bar0Lo => s.setFunc 0 { x with bar0 := setHalf x.bar0 false (fldv v 0 32 &&& 0xFE000000) }
  | .bar0Hi => s.setFunc 0 { x with bar0 := setHalf x.bar0 true (fldv v 0 32) }
  | .vfBar0Lo => { s with hif := { s.hif with vfBar0 := setHalf s.hif.vfBar0 false (fldv v 0 32 &&& 0xFFFF0000) } }
  | .vfBar0Hi => { s with hif := { s.hif with vfBar0 := setHalf s.hif.vfBar0 true (fldv v 0 32) } }
  | _ => s

/-- A write of a field takes effect; ASPM is PF0's, and with the link idle it takes the link to L1 (R254). -/
def cfgWrite (t : Nat) (f : CfgField) (v : BitVec 64) (s : State) : State :=
  let x := s.func t
  let b := bit v 0
  match f with
  | .mse => s.setFunc t { x with mse := b }
  | .bme => if b then bmeSet t s else bmeClear t none s
  | .relaxed => s.setFunc t { x with relaxed := b }
  | .msixEnable => s.setFunc t { x with msixEn := b }
  | .functionMask => s.setFunc t { x with fnMask := b }
  | .mrrs => s.setFunc t { x with mrrs := 128 * 2 ^ min 5 (fld v 0 3) }
  | .maxPayload => if t = 0 then s.setFunc 0 { x with mps := 128 * 2 ^ min 2 (fld v 0 3) } else s
  | .ctoDisable => if t = 0 then s.setFunc 0 { x with ctoDisable := b } else s
  | .ctoValue => if t = 0 then s.setFunc 0 { x with ctoValue := fldv v 0 4 } else s
  | .aspmL1 => if t = 0 && b then { s with hif := { s.hif with l1 := true } } else s
  | .aerStatus => s.setFunc t { x with aerStatus := x.aerStatus &&& ~~~ (fldv v 0 32) }
  | .ecrcGenerate => s.setFunc t { x with ecrcGen := b }
  | .ecrcCheck => s.setFunc t { x with ecrcCheck := b }
  | .numVfs | .vfEnable | .ariHierarchy => if t = 0 then vfWrite f v s else s
  | .bar0Lo | .bar0Hi | .vfBar0Lo | .vfBar0Hi => if t = 0 then barWriteCfg f v s else s
  | .noSoftReset | .ctoRanges | .ctoDisableSupported | .totalVfs | .otherBar | .cxlCacheCapable | .cxlMemCapable
  | .cxlHdmCount | .supports _ => s

/-- The function whose configuration space a requester's access is for, where it exists behind a link that is up. -/
def State.cfgTarget (s : State) (q : Requester) : Option Nat :=
  match q with
  | .fn t => if s.hif.linkUp && s.tenantExists t then some t else none
  | _ => none

/-- A register or configuration write. While an FLR runs the write is discarded, and a read returns the values that the
FLR leaves (R166). -/
def anyWrite (q : Requester) (sp : Space) (addr size be : Nat) (data : BitVec 64) (s : State) : State :=
  match sp with
  | .bar => barWrite q addr size be data s
  | .config f => match s.cfgTarget q with
    | some t => if s.configurable t then cfgWrite t f data s else s
    | none => s

/-- REGISTER_WRITE (R16). An access has at least one byte. -/
def execRegisterWrite (q : Requester) (sp : Space) (addr size be : Nat) (data : BitVec 64) (s : State) : Result :=
  if 0 < size then .next (anyWrite q sp addr size be data s) else .fault .malformed

/-- A register or configuration read. -/
def anyRead (q : Requester) (sp : Space) (addr size : Nat) (s : State) : State :=
  match sp with
  | .bar => barRead q addr size s
  | .config f => match s.cfgTarget q with
    | some t => { s with rdata := BitVec.ofNat 64 (cfgRead t f s) }
    | none => { s with rdata := 0xFFFFFFFF }

/-- REGISTER_READ (R18); byte enables do not change what a read returns (R19). -/
def execRegisterRead (q : Requester) (sp : Space) (addr size _be : Nat) (s : State) : Result :=
  if 0 < size then .next (anyRead q sp addr size s) else .fault .malformed

end Sys2Proof.Machine
end

