-- ==== Sys2Proof/Machine/Timing.lean ====
section
/-!
DEFINITION. The time bounds that the spec gives as formulas (R280, R349, R409, R499, R507, R515, R520, R534, R558, R568), in
picoseconds, rounded up. The model's commands carry no duration (log 3): these are for statements about a clock
outside it.
-/
namespace Sys2Proof.Machine.Timing

/-- The time of n handshakes at a rate in millions a second. -/
def handshakes (n mhs : Nat) : Nat := ceilDiv (n * 1000000) mhs

/-- A local message of L lanes over h hops (R280). -/
def localMessage (hops lanes mhs : Nat) : Nat := handshakes (2 * hops + lanes + 1) mhs

/-- The multiply time of a block of rows with outlier channels (R349). -/
def outlierBlock (rows outliers mhs : Nat) : Nat := handshakes (rows * (1 + 8 * outliers)) mhs

/-- The switch time of a spill: live nonets, tiles, and bytes a second (R409). -/
def spillSwitch (nonets tiles bytesPerS : Nat) : Nat :=
  2000000 + ceilDiv (nonets * 9 * 1000000000000) (8 * bytesPerS) + 40000 * tiles

/-- A reload of n bytes at 16 GB/s (R499, R515). -/
def reload (bytes : Nat) : Nat := 2000000 + ceilDiv (bytes * 125) 2

/-- A Damper service (R520). -/
def damperService : Nat := 1500000

/-- A word of n bytes merged through the symbol counts `ks`, with τ in picoseconds (R507). -/
def tokenize (n : Nat) (ks : List Nat) (tau : Nat) : Nat := (n + (ks.map (fun k => ceilDiv k 64)).sum) * tau

/-- A picture of N luma samples that moves D bytes, at a rate in millions of samples a second and a served
reservation in bytes a second (R534). -/
def picture (samples mrate bytes bytesPerS : Nat) : Nat :=
  25000000 + ceilDiv (samples * 1000000) mrate + ceilDiv (bytes * 1000000000000) bytesPerS

/-- Enumeration of U units over a cable length in metres (R558). -/
def enumeration (units metres : Nat) : Nat := 6150000 * units + 20000 * metres

/-- A message of L lanes to another card (R568). -/
def chainMessage (hopsSrc hopsDst lanes mhs live bypassed metres : Nat) : Nat :=
  handshakes (2 * hopsSrc + 2 * hopsDst + lanes + 1) mhs + 100000 + 150000 * live + 40000 * bypassed + 5000 * metres

end Sys2Proof.Machine.Timing
end

