-- ==== Sys2Proof/Machine/Dispatch.lean ====
section
/-!
DEFINITION. One arm per command: the meaning it calls.
-/
namespace Sys2Proof.Machine

def exec (cmd : Instr) (s : State) : Host.Outcome State Fault Refusal :=
  match cmd with
  | .registerWrite q sp addr size be data => Sys2Proof.Machine.execRegisterWrite q sp addr size be data s
  | .smbusBlockRead port code => Sys2Proof.Machine.execSmbusBlockRead port code s
  | .smbusBlockWrite port code v => Sys2Proof.Machine.execSmbusBlockWrite port code v s
  | .auxPowerLoss fitMv => Sys2Proof.Machine.execAuxPowerLoss fitMv s
  | .cableFeedOverload cage => Sys2Proof.Machine.execCableFeedOverload cage s
  | .domainPowerOn d => Sys2Proof.Machine.execDomainPowerOn d s
  | .domainIdleOff d => Sys2Proof.Machine.execDomainIdleOff d s
  | .vgridEvaluate fitMv inputDw => Sys2Proof.Machine.execVgridEvaluate fitMv inputDw s
  | .tempSample die stackC => Sys2Proof.Machine.execTempSample die stackC s
  | .stackCool k => Sys2Proof.Machine.execStackCool k s
  | .lineFreqWrite q p v => Sys2Proof.Machine.execLineFreqWrite q p v s
  | .pllLock pll => Sys2Proof.Machine.execPllLock pll s
  | .pllLockTimeout pll => Sys2Proof.Machine.execPllLockTimeout pll s
  | .linkTrain width speed cxl => Sys2Proof.Machine.execLinkTrain width speed cxl s
  | .memTrained k ok => Sys2Proof.Machine.execMemTrained k ok s
  | .cardReset q v => Sys2Proof.Machine.execCardReset q v s
  | .flr t => Sys2Proof.Machine.execFlr t s
  | .flrComplete t => Sys2Proof.Machine.execFlrComplete t s
  | .hostReadFail what why addr => Sys2Proof.Machine.execHostReadFail what why addr s
  | .numvfsWrite numVfs enable ari => Sys2Proof.Machine.execNumvfsWrite numVfs enable ari s
  | .bmeClear t mid => Sys2Proof.Machine.execBmeClear t mid s
  | .bmeSet t => Sys2Proof.Machine.execBmeSet t s
  | .tenMapWrite q i v => Sys2Proof.Machine.execTenMapWrite q i v s
  | .tenantEnable q t => Sys2Proof.Machine.execTenantEnable q t s
  | .tenantDisable q t => Sys2Proof.Machine.execTenantDisable q t s
  | .tenantDisableDone t => Sys2Proof.Machine.execTenantDisableDone t s
  | .tenantScrub q t => Sys2Proof.Machine.execTenantScrub q t s
  | .ringEnable q t r k => Sys2Proof.Machine.execRingEnable q t r k s
  | .ringDisable q t r => Sys2Proof.Machine.execRingDisable q t r s
  | .pollPeriodWrite q t v => Sys2Proof.Machine.execPollPeriodWrite q t v s
  | .chimeSnoop t hint => Sys2Proof.Machine.execChimeSnoop t hint s
  | .chimePoll t => Sys2Proof.Machine.execChimePoll t s
  | .chimeLineData t line => Sys2Proof.Machine.execChimeLineData t line s
  | .descriptorFetch t r descs => Sys2Proof.Machine.execDescriptorFetch t r descs s
  | .nopDescriptor t r => Sys2Proof.Machine.execNopDescriptor t r s
  | .job t r hdr => Sys2Proof.Machine.execJob t r hdr s
  | .fencedAdmit t r hdr => Sys2Proof.Machine.execFencedAdmit t r hdr s
  | .completionWrite t r held => Sys2Proof.Machine.execCompletionWrite t r held s
  | .epochMarker t r held => Sys2Proof.Machine.execEpochMarker t r held s
  | .tailHintWrite t => Sys2Proof.Machine.execTailHintWrite t s
  | .gongGrant e => Sys2Proof.Machine.execGongGrant e s
  | .gngNextRead q => Sys2Proof.Machine.execGngNextRead q s
  | .gngHoldRead q => Sys2Proof.Machine.execGngHoldRead q s
  | .glitchFilterOutput k level held => Sys2Proof.Machine.execGlitchFilterOutput k level held s
  | .sourceEvent n held => Sys2Proof.Machine.execSourceEvent n held s
  | .carSrcWrite q n v inWindow => Sys2Proof.Machine.execCarSrcWrite q n v inWindow s
  | .sourceCommit n => Sys2Proof.Machine.execSourceCommit n s
  | .carClaim q c => Sys2Proof.Machine.execCarClaim q c s
  | .carDone q c v => Sys2Proof.Machine.execCarDone q c v s
  | .carSwset q w v => Sys2Proof.Machine.execCarSwset q w v s
  | .carLostClear q n v => Sys2Proof.Machine.execCarLostClear q n v s
  | .carStampRead q n => Sys2Proof.Machine.execCarStampRead q n s
  | .holdoffExpire g => Sys2Proof.Machine.execHoldoffExpire g s
  | .pinLatchCatch k level => Sys2Proof.Machine.execPinLatchCatch k level s
  | .coalesceTimerExpire t r => Sys2Proof.Machine.execCoalesceTimerExpire t r s
  | .coalWrite q t r v timeMet => Sys2Proof.Machine.execCoalWrite q t r v timeMet s
  | .msixUnblock t e => Sys2Proof.Machine.execMsixUnblock t e s
  | .pmeConfigWrite clearStatus en => Sys2Proof.Machine.execPmeConfigWrite clearStatus en s
  | .messageAccept m => Sys2Proof.Machine.execMessageAccept m s
  | .grdChokeWrite q v => Sys2Proof.Machine.execGrdChokeWrite q v s
  | .tileWatchdogExpire i => Sys2Proof.Machine.execTileWatchdogExpire i s
  | .qrateUpdate qd => Sys2Proof.Machine.execQrateUpdate qd s
  | .paceRead q i => Sys2Proof.Machine.execPaceRead q i s
  | .fenceStatRead q => Sys2Proof.Machine.execFenceStatRead q s
  | .illegalOpcode i => Sys2Proof.Machine.execIllegalOpcode i s
  | .add i => Sys2Proof.Machine.execAdd i s
  | .sub i => Sys2Proof.Machine.execSub i s
  | .and i => Sys2Proof.Machine.execAnd i s
  | .or i => Sys2Proof.Machine.execOr i s
  | .xor i => Sys2Proof.Machine.execXor i s
  | .sll i => Sys2Proof.Machine.execSll i s
  | .srl i => Sys2Proof.Machine.execSrl i s
  | .sra i => Sys2Proof.Machine.execSra i s
  | .mul i => Sys2Proof.Machine.execMul i s
  | .slt i => Sys2Proof.Machine.execSlt i s
  | .sltu i => Sys2Proof.Machine.execSltu i s
  | .addi i => Sys2Proof.Machine.execAddi i s
  | .andi i => Sys2Proof.Machine.execAndi i s
  | .ori i => Sys2Proof.Machine.execOri i s
  | .xori i => Sys2Proof.Machine.execXori i s
  | .slli i => Sys2Proof.Machine.execSlli i s
  | .srli i => Sys2Proof.Machine.execSrli i s
  | .srai i => Sys2Proof.Machine.execSrai i s
  | .lui i => Sys2Proof.Machine.execLui i s
  | .ldn i => Sys2Proof.Machine.execLdn i s
  | .ldnu i => Sys2Proof.Machine.execLdnu i s
  | .ldw i => Sys2Proof.Machine.execLdw i s
  | .stn i => Sys2Proof.Machine.execStn i s
  | .stw i => Sys2Proof.Machine.execStw i s
  | .beq i => Sys2Proof.Machine.execBeq i s
  | .bne i => Sys2Proof.Machine.execBne i s
  | .blt i => Sys2Proof.Machine.execBlt i s
  | .bge i => Sys2Proof.Machine.execBge i s
  | .bltu i => Sys2Proof.Machine.execBltu i s
  | .bgeu i => Sys2Proof.Machine.execBgeu i s
  | .jal i => Sys2Proof.Machine.execJal i s
  | .jr i => Sys2Proof.Machine.execJr i s
  | .vld i => Sys2Proof.Machine.execVld i s
  | .vst i => Sys2Proof.Machine.execVst i s
  | .vadd i => Sys2Proof.Machine.execVadd i s
  | .vsub i => Sys2Proof.Machine.execVsub i s
  | .vmul i => Sys2Proof.Machine.execVmul i s
  | .vmax i => Sys2Proof.Machine.execVmax i s
  | .vmin i => Sys2Proof.Machine.execVmin i s
  | .vbc i => Sys2Proof.Machine.execVbc i s
  | .vred i => Sys2Proof.Machine.execVred i s
  | .vmsk i => Sys2Proof.Machine.execVmsk i s
  | .vcvt i => Sys2Proof.Machine.execVcvt i s
  | .wld i => Sys2Proof.Machine.execWld i s
  | .mma i => Sys2Proof.Machine.execMma i s
  | .oma i => Sys2Proof.Machine.execOma i s
  | .azr i => Sys2Proof.Machine.execAzr i s
  | .ald i => Sys2Proof.Machine.execAld i s
  | .ast i => Sys2Proof.Machine.execAst i s
  | .qnt i => Sys2Proof.Machine.execQnt i s
  | .dld i => Sys2Proof.Machine.execDld i s
  | .dst i => Sys2Proof.Machine.execDst i s
  | .transferComplete i n upsets flips => Sys2Proof.Machine.execTransferComplete i n upsets flips s
  | .dwt i => Sys2Proof.Machine.execDwt i s
  | .send i => Sys2Proof.Machine.execSend i s
  | .sendDone i => Sys2Proof.Machine.execSendDone i s
  | .recv i => Sys2Proof.Machine.execRecv i s
  | .mbpop i => Sys2Proof.Machine.execMbpop i s
  | .mbcfg i => Sys2Proof.Machine.execMbcfg i s
  | .mbstat i => Sys2Proof.Machine.execMbstat i s
  | .bar i => Sys2Proof.Machine.execBar i s
  | .stamp i held => Sys2Proof.Machine.execStamp i held s
  | .sys i => Sys2Proof.Machine.execSys i s
  | .endTile i => Sys2Proof.Machine.execEndTile i s
  | .nopTile i => Sys2Proof.Machine.execNopTile i s
  | .patrolRead k upset => Sys2Proof.Machine.execPatrolRead k upset s
  | .memFenceCmd q v => Sys2Proof.Machine.execMemFenceCmd q v s
  | .memCeRead q k => Sys2Proof.Machine.execMemCeRead q k s
  | .memUeRead q k => Sys2Proof.Machine.execMemUeRead q k s
  | .starveTimeout j => Sys2Proof.Machine.execStarveTimeout j s
  | .sliceExpire j => Sys2Proof.Machine.execSliceExpire j s
  | .spillStart j => Sys2Proof.Machine.execSpillStart j s
  | .spillComplete j => Sys2Proof.Machine.execSpillComplete j s
  | .jobRestore j => Sys2Proof.Machine.execJobRestore j s
  | .barTimeout i => Sys2Proof.Machine.execBarTimeout i s
  | .outputStageCopy j => Sys2Proof.Machine.execOutputStageCopy j s
  | .jobComplete j => Sys2Proof.Machine.execJobComplete j s
  | .usedRead q t => Sys2Proof.Machine.execUsedRead q t s
  | .wbkTimeRead q => Sys2Proof.Machine.execWbkTimeRead q s
  | .posCount p a b => Sys2Proof.Machine.execPosCount p a b s
  | .posErrRead q p => Sys2Proof.Machine.execPosErrRead q p s
  | .posSet q p v => Sys2Proof.Machine.execPosSet q p v s
  | .channelCtlWrite q k v => Sys2Proof.Machine.execChannelCtlWrite q k v s
  | .cmpWrite q k high v => Sys2Proof.Machine.execCmpWrite q k high v s
  | .timeMatch k => Sys2Proof.Machine.execTimeMatch k s
  | .capture pin level => Sys2Proof.Machine.execCapture pin level s
  | .capRead q k => Sys2Proof.Machine.execCapRead q k s
  | .pulseEnd k => Sys2Proof.Machine.execPulseEnd k s
  | .portEnable q p v => Sys2Proof.Machine.execPortEnable q p v s
  | .portDisable q p => Sys2Proof.Machine.execPortDisable q p s
  | .trainingDone p pairs => Sys2Proof.Machine.execTrainingDone p pairs s
  | .trainingTimeout p => Sys2Proof.Machine.execTrainingTimeout p s
  | .triggerRequest p received => Sys2Proof.Machine.execTriggerRequest p received s
  | .solTimeout p => Sys2Proof.Machine.execSolTimeout p s
  | .syncWithoutTrigger p received => Sys2Proof.Machine.execSyncWithoutTrigger p received s
  | .lineStored p pairs => Sys2Proof.Machine.execLineStored p pairs s
  | .settleExpire p => Sys2Proof.Machine.execSettleExpire p s
  | .lowWaterReached p => Sys2Proof.Machine.execLowWaterReached p s
  | .portResume q p => Sys2Proof.Machine.execPortResume q p s
  | .motionWrite q p on => Sys2Proof.Machine.execMotionWrite q p on s
  | .rdWrite q p high v => Sys2Proof.Machine.execRdWrite q p high v s
  | .wrRead q p => Sys2Proof.Machine.execWrRead q p s
  | .errcntRead q p => Sys2Proof.Machine.execErrcntRead q p s
  | .queueEnable q n v => Sys2Proof.Machine.execQueueEnable q n v s
  | .cacheFlush q n => Sys2Proof.Machine.execCacheFlush q n s
  | .sampleCutStart n => Sys2Proof.Machine.execSampleCutStart n s
  | .ringLineConsume n => Sys2Proof.Machine.execRingLineConsume n s
  | .pictureTake n => Sys2Proof.Machine.execPictureTake n s
  | .decodeFail n j input => Sys2Proof.Machine.execDecodeFail n j input s
  | .sampleComplete n j input => Sys2Proof.Machine.execSampleComplete n j input s
  | .sampleForward n => Sys2Proof.Machine.execSampleForward n s
  | .directLoadDone j input => Sys2Proof.Machine.execDirectLoadDone j input s
  | .inkHitsRead q n => Sys2Proof.Machine.execInkHitsRead q n s
  | .tokLoad q t => Sys2Proof.Machine.execTokLoad q t s
  | .tokCheckDone t => Sys2Proof.Machine.execTokCheckDone t s
  | .gramLoad q t => Sys2Proof.Machine.execGramLoad q t s
  | .gramCheckDone t => Sys2Proof.Machine.execGramCheckDone t s
  | .tokClear q t => Sys2Proof.Machine.execTokClear q t s
  | .gramClear q t => Sys2Proof.Machine.execGramClear q t s
  | .tokenStreamComplete input => Sys2Proof.Machine.execTokenStreamComplete input s
  | .detokenizeStart j => Sys2Proof.Machine.execDetokenizeStart j s
  | .detokenizeDone j => Sys2Proof.Machine.execDetokenizeDone j s
  | .tokLoadsRead q => Sys2Proof.Machine.execTokLoadsRead q s
  | .damperRequest i t slot => Sys2Proof.Machine.execDamperRequest i t slot s
  | .streamEnable q n => Sys2Proof.Machine.execStreamEnable q n s
  | .streamRestart q n => Sys2Proof.Machine.execStreamRestart q n s
  | .keyReq q n => Sys2Proof.Machine.execKeyReq q n s
  | .cymbalEncode i n slot => Sys2Proof.Machine.execCymbalEncode i n slot s
  | .cymbalDecode i n slot => Sys2Proof.Machine.execCymbalDecode i n slot s
  | .pictureOutput n => Sys2Proof.Machine.execPictureOutput n s
  | .chainLinkUp x => Sys2Proof.Machine.execChainLinkUp x s
  | .linkTrainRetry x cable => Sys2Proof.Machine.execLinkTrainRetry x cable s
  | .linkup x unit assigned era bypassInDown bypass => Sys2Proof.Machine.execLinkup x unit assigned era bypassInDown bypass s
  | .flitDiscard x raw => Sys2Proof.Machine.execFlitDiscard x raw s
  | .nakReplay x ack => Sys2Proof.Machine.execNakReplay x ack s
  | .replayTimeout x => Sys2Proof.Machine.execReplayTimeout x s
  | .chainSend m held => Sys2Proof.Machine.execChainSend m held s
  | .firstFlit x raw => Sys2Proof.Machine.execFirstFlit x raw s
  | .contFlit x raw => Sys2Proof.Machine.execContFlit x raw s
  | .abortFlit x raw => Sys2Proof.Machine.execAbortFlit x raw s
  | .answerFlit x raw => Sys2Proof.Machine.execAnswerFlit x raw s
  | .flitGapTimeout x => Sys2Proof.Machine.execFlitGapTimeout x s
  | .chnArrRead q => Sys2Proof.Machine.execChnArrRead q s
  | .enumerate q v passed => Sys2Proof.Machine.execEnumerate q v passed s
  | .survey x claimed count => Sys2Proof.Machine.execSurvey x claimed count s
  | .assign x next upset count => Sys2Proof.Machine.execAssign x next upset count s
  | .doneFlit x full count => Sys2Proof.Machine.execDoneFlit x full count s
  | .spanReq unit key answer => Sys2Proof.Machine.execSpanReq unit key answer s
  | .spanFree unit key => Sys2Proof.Machine.execSpanFree unit key s
  | .spanTimeout j => Sys2Proof.Machine.execSpanTimeout j s
  | .chainReset q v => Sys2Proof.Machine.execChainReset q v s
  | .resetFlit x => Sys2Proof.Machine.execResetFlit x s
  | .chnBypass q on => Sys2Proof.Machine.execChnBypass q on s
  | .returnFlit x unit => Sys2Proof.Machine.execReturnFlit x unit s
  | .chnStatRead q => Sys2Proof.Machine.execChnStatRead q s
  | .chnLinkStatRead q x => Sys2Proof.Machine.execChnLinkStatRead q x s
  | .chnCrcRead q x => Sys2Proof.Machine.execChnCrcRead q x s
  | .storeParityError unit addr job => Sys2Proof.Machine.execStoreParityError unit addr job s
  | .bellWatchdogExpire c => Sys2Proof.Machine.execBellWatchdogExpire c s
  | .bellCoreRestart c => Sys2Proof.Machine.execBellCoreRestart c s
  | .clearCounts q v => Sys2Proof.Machine.execClearCounts q v s
  | .regerrRead q => Sys2Proof.Machine.execRegerrRead q s
  | .fwDataWrite q v => Sys2Proof.Machine.execFwDataWrite q v s
  | .fwCommit q v => Sys2Proof.Machine.execFwCommit q v s
  | .raiseArb q v => Sys2Proof.Machine.execRaiseArb q v s
  | .registerRead q sp addr size be => Sys2Proof.Machine.execRegisterRead q sp addr size be s
  | .auxInputPresent sense0Open sense1Open => Sys2Proof.Machine.execAuxInputPresent sense0Open sense1Open s
  | .coldPowerOn => Sys2Proof.Machine.execColdPowerOn s
  | .memsStable => Sys2Proof.Machine.execMemsStable s
  | .mainPowerGood => Sys2Proof.Machine.execMainPowerGood s
  | .bootVerifyDone => Sys2Proof.Machine.execBootVerifyDone s
  | .perstDeassert => Sys2Proof.Machine.execPerstDeassert s
  | .dramScrubDone => Sys2Proof.Machine.execDramScrubDone s
  | .aonSupplyLoss => Sys2Proof.Machine.execAonSupplyLoss s
  | .fundamentalReset => Sys2Proof.Machine.execFundamentalReset s
  | .hotReset => Sys2Proof.Machine.execHotReset s
  | .pf0Flr => Sys2Proof.Machine.execPf0Flr s
  | .d3hotEnter => Sys2Proof.Machine.execD3hotEnter s
  | .d0Enter => Sys2Proof.Machine.execD0Enter s
  | .d3coldEnter => Sys2Proof.Machine.execD3coldEnter s
  | .d3coldExit => Sys2Proof.Machine.execD3coldExit s
  | .pageZeroed => Sys2Proof.Machine.execPageZeroed s
  | .pinLatchReplay => Sys2Proof.Machine.execPinLatchReplay s
  | .l1ExitSend => Sys2Proof.Machine.execL1ExitSend s
  | .chokeComplete => Sys2Proof.Machine.execChokeComplete s
  | .jobPlace => Sys2Proof.Machine.execJobPlace s
  | .usedUpdate => Sys2Proof.Machine.execUsedUpdate s
  | .timeWrap => Sys2Proof.Machine.execTimeWrap s
  | .tokenStreamStart => Sys2Proof.Machine.execTokenStreamStart s
  | .damperService => Sys2Proof.Machine.execDamperService s
  | .pictureServiceStart => Sys2Proof.Machine.execPictureServiceStart s
  | .pictureDone => Sys2Proof.Machine.execPictureDone s
  | .enumTimeout => Sys2Proof.Machine.execEnumTimeout s
  | .bypassEnter => Sys2Proof.Machine.execBypassEnter s
  | .bypassExit => Sys2Proof.Machine.execBypassExit s
  | .fwCheckDone => Sys2Proof.Machine.execFwCheckDone s

end Sys2Proof.Machine
end

