-- ==== Sys2Proof/WellFormed.lean ====
section
/-!
DEFINITION. Which commands the outside can send: the data of a command has the shape that its bus, its
sensors or its link gives it. The meaning of an ill-formed command is the fault `malformed`.
-/
namespace Sys2Proof

/-- A command has the shape that its bus gives it (R18, R107, R133, R181, R183, R548). -/
def Instr.wf : Instr → Bool
  | .registerWrite _ _ _ size _ _ => decide (0 < size)
  | .tempSample die stackC => decide (die.length = 64 ∧ stackC.length = 4)
  | .linkTrain width speed _ => [1, 2, 4, 8, 16].contains width.toNat && decide (1 ≤ speed.toNat ∧ speed.toNat ≤ 5)
  | .chimeLineData _ line => decide (line.length = 64)
  | .descriptorFetch _ _ descs => decide (1 ≤ descs.length ∧ descs.length ≤ 8) && descs.all (fun d => d.length == 64)
  | .flitDiscard _ raw => decide (raw.length = 80)
  | .firstFlit _ raw => decide (raw.length = 80)
  | .contFlit _ raw => decide (raw.length = 80)
  | .abortFlit _ raw => decide (raw.length = 80)
  | .answerFlit _ raw => decide (raw.length = 80)
  | .registerRead _ _ _ size _ => decide (0 < size)
  | .smbusBlockRead _ _ | .smbusBlockWrite _ _ _ | .auxPowerLoss _ | .cableFeedOverload _ | .domainPowerOn _
  | .domainIdleOff _ | .vgridEvaluate _ _ | .stackCool _ | .lineFreqWrite _ _ _ | .pllLock _
  | .pllLockTimeout _ | .memTrained _ _ | .cardReset _ _ | .flr _ | .flrComplete _ | .hostReadFail _ _ _
  | .numvfsWrite _ _ _ | .bmeClear _ _ | .bmeSet _ | .tenMapWrite _ _ _ | .tenantEnable _ _
  | .tenantDisable _ _ | .tenantDisableDone _ | .tenantScrub _ _ | .ringEnable _ _ _ _ | .ringDisable _ _ _
  | .pollPeriodWrite _ _ _ | .chimeSnoop _ _ | .chimePoll _ | .nopDescriptor _ _ | .job _ _ _
  | .fencedAdmit _ _ _ | .completionWrite _ _ _ | .epochMarker _ _ _ | .tailHintWrite _ | .gongGrant _
  | .gngNextRead _ | .gngHoldRead _ | .glitchFilterOutput _ _ _ | .sourceEvent _ _ | .carSrcWrite _ _ _ _
  | .sourceCommit _ | .carClaim _ _ | .carDone _ _ _ | .carSwset _ _ _ | .carLostClear _ _ _
  | .carStampRead _ _ | .holdoffExpire _ | .pinLatchCatch _ _ | .coalesceTimerExpire _ _
  | .coalWrite _ _ _ _ _ | .msixUnblock _ _ | .pmeConfigWrite _ _ | .messageAccept _ | .grdChokeWrite _ _
  | .tileWatchdogExpire _ | .qrateUpdate _ | .paceRead _ _ | .fenceStatRead _ | .illegalOpcode _ | .add _
  | .sub _ | .and _ | .or _ | .xor _ | .sll _ | .srl _ | .sra _ | .mul _ | .slt _ | .sltu _ | .addi _
  | .andi _ | .ori _ | .xori _ | .slli _ | .srli _ | .srai _ | .lui _ | .ldn _ | .ldnu _ | .ldw _ | .stn _
  | .stw _ | .beq _ | .bne _ | .blt _ | .bge _ | .bltu _ | .bgeu _ | .jal _ | .jr _ | .vld _ | .vst _
  | .vadd _ | .vsub _ | .vmul _ | .vmax _ | .vmin _ | .vbc _ | .vred _ | .vmsk _ | .vcvt _ | .wld _ | .mma _
  | .oma _ | .azr _ | .ald _ | .ast _ | .qnt _ | .dld _ | .dst _ | .transferComplete _ _ _ _ | .dwt _ | .send _
  | .sendDone _ | .recv _ | .mbpop _ | .mbcfg _ | .mbstat _ | .bar _ | .stamp _ _ | .sys _ | .endTile _
  | .nopTile _ | .patrolRead _ _ | .memFenceCmd _ _ | .memCeRead _ _ | .memUeRead _ _ | .starveTimeout _
  | .sliceExpire _ | .spillStart _ | .spillComplete _ | .jobRestore _ | .barTimeout _ | .outputStageCopy _
  | .jobComplete _ | .usedRead _ _ | .wbkTimeRead _ | .posCount _ _ _ | .posErrRead _ _ | .posSet _ _ _
  | .channelCtlWrite _ _ _ | .cmpWrite _ _ _ _ | .timeMatch _ | .capture _ _ | .capRead _ _ | .pulseEnd _
  | .portEnable _ _ _ | .portDisable _ _ | .trainingDone _ _ | .trainingTimeout _ | .triggerRequest _ _
  | .solTimeout _ | .syncWithoutTrigger _ _ | .lineStored _ _ | .settleExpire _ | .lowWaterReached _
  | .portResume _ _ | .motionWrite _ _ _ | .rdWrite _ _ _ _ | .wrRead _ _ | .errcntRead _ _
  | .queueEnable _ _ _ | .cacheFlush _ _ | .sampleCutStart _ | .ringLineConsume _ | .pictureTake _
  | .decodeFail _ _ _ | .sampleComplete _ _ _ | .sampleForward _ | .directLoadDone _ _ | .inkHitsRead _ _
  | .tokLoad _ _ | .tokCheckDone _ | .gramLoad _ _ | .gramCheckDone _ | .tokClear _ _ | .gramClear _ _
  | .tokenStreamComplete _ | .detokenizeStart _ | .detokenizeDone _ | .tokLoadsRead _ | .damperRequest _ _ _
  | .streamEnable _ _ | .streamRestart _ _ | .keyReq _ _ | .cymbalEncode _ _ _ | .cymbalDecode _ _ _
  | .pictureOutput _ | .chainLinkUp _ | .linkTrainRetry _ _ | .linkup _ _ _ _ _ _ | .nakReplay _ _
  | .replayTimeout _ | .chainSend _ _ | .flitGapTimeout _ | .chnArrRead _ | .enumerate _ _ _ | .survey _ _ _
  | .assign _ _ _ _ | .doneFlit _ _ _ | .spanReq _ _ _ | .spanFree _ _ | .spanTimeout _ | .chainReset _ _
  | .resetFlit _ | .chnBypass _ _ | .returnFlit _ _ | .chnStatRead _ | .chnLinkStatRead _ _ | .chnCrcRead _ _
  | .storeParityError _ _ _ | .bellWatchdogExpire _ | .bellCoreRestart _ | .clearCounts _ _ | .regerrRead _
  | .fwDataWrite _ _ | .fwCommit _ _ | .raiseArb _ _ | .auxInputPresent _ _ | .coldPowerOn | .memsStable
  | .mainPowerGood | .bootVerifyDone | .perstDeassert | .dramScrubDone | .aonSupplyLoss | .fundamentalReset
  | .hotReset | .pf0Flr | .d3hotEnter | .d0Enter | .d3coldEnter | .d3coldExit | .pageZeroed | .pinLatchReplay
  | .l1ExitSend | .chokeComplete | .jobPlace | .usedUpdate | .timeWrap | .tokenStreamStart | .damperService
  | .pictureServiceStart | .pictureDone | .enumTimeout | .bypassEnter | .bypassExit | .fwCheckDone => true

end Sys2Proof
end

