-- ==== Sys2Proof/Safety.lean ====
section
/-!
DEFINITION. What a safe state and a safe step are: memory in its canonical form, every field that the spec limits
inside its range, and a step that answers a next state; when a tile runs
an instruction to its end, and when a descriptor is admitted.
-/
namespace Sys2Proof.Machine

/-- Device memory is in its canonical form: addresses strictly rising, and no entry equal to what an unlisted address
reads as. -/
def DevMem.wf (m : DevMem) : Bool := Tbl.wf 0 m.cells

/-- The fields that a write of their register limits are inside their ranges: the power cap (Table 4-6) and VGRID
(R100), the watchdog limit (Table 9-5), the fence threshold and the patrol period (Table 12-1), the slice (Table 13-5),
the group bits (R235) and the bell watchdog's period (Table 20-6). -/
structure State.Ranges (s : State) : Prop where
  cap     : 40 ≤ s.pwr.capW.toNat ∧ s.pwr.capW.toNat ≤ 420
  vset    : 550 ≤ s.pwr.vset.toNat ∧ s.pwr.vset.toNat ≤ 900 ∧ s.pwr.vset.toNat % 10 = 0
  wdog    : 250 ≤ s.grd.wdogLimit.toNat
  ue      : s.mem.ueThreshold ≠ 0
  patrol  : 1 ≤ s.mem.patrolH.toNat ∧ s.mem.patrolH.toNat ≤ 24
  slice   : s.sch.slice.toNat ≤ 1000
  split   : s.car.priSplit.toNat ≤ 8
  bwdog   : s.flt.bwdogMs ≠ 0

/-- The invariant of every step: memory is canonical and every limited field is inside its range. -/
structure State.Inv (s : State) : Prop where
  mem    : s.mem.wf = true
  ranges : s.Ranges

/-- A command that can reach the card in a state: it is well formed, and a line that a port stores has the bits of the
port's format (R441), which is what the sensor it is trained to sends. -/
def State.takes (s : State) (c : Instr) : Bool :=
  c.wf && match c with
    | .lineStored p pairs => (s.port p).issued.isEmpty || (s.port p).framed pairs
    | _ => true

/-- A safe step answers a next state. -/
def SafeStep (s : State) : Prop := ∃ t, step s = Host.Outcome.next t

/-- Tile i can run its next instruction, whose word is w with opcode op, and the pc has a next address. -/
structure State.Runs (s : State) (i op : Nat) (w : Word) : Prop where
  ready : (s.tile i).ready = true
  word  : (s.tile i).instr = w
  op    : wOp w = op
  next  : (s.tile i).pc.toNat < 16383

/-- Tile i after an instruction that leaves it as y: the pc at the next instruction, the watchdog restarted. -/
def State.advance (s : State) (i : Nat) (y : Tile) : State := s.setTile i { y with pc := (s.tile i).pc + 1, wdog := 0 }

/-- The card once the source of a descriptor has been looked at: its header is read, and its lookup is counted (R473,
R489). -/
def State.looked (s : State) (t : Nat) (d : List Byte) : State :=
  countLookup d (emitReads t (dInAddr d) (s.headerBytes t d) s)

/-- A JOB descriptor of a job on this card alone passes every check of Table 13-3, whose manifest is p and whose
source has the dimensions m: its fields and its source (R182, R473), its manifest (R381-R384, R394), its domains
(R96), its tiles (R392), its outlier channels (R348), its spill region (R388) and its bandwidth (R374). b is the card
after the manifest is read, and v after the channels are. -/
structure State.Passes (s : State) (t r : Nat) (d : Inflight) (hdr : List Byte) (m : Option Dims) (p : Parsed)
    (b v : State) : Prop where
  fields    : badByte d.seq d.desc = none
  tags      : s.tagReads t d.desc = []
  source    : s.sourceCheck t d.desc hdr = .inr m
  aux       : (s.looked t d.desc).auxCheck t d.desc m = none
  manifest  : (s.looked t d.desc).readManifest t (dManifest d.desc) = some p
  read      : readChecks schBlock t r d p.reads (s.looked t d.desc) = (true, b)
  legal     : p.bad = false
  output    : outputCheck d.desc p.man = none
  alone     : p.man.spans = false
  domains   : b.domainCheck t d.desc p.man = none
  tiles     : b.tileCheck t p.man = none
  channels  : readChecks schBlock t r { seq := d.seq, desc := d.desc, st := .fetched } p.man.chanReads b = (true, v)
  outliers  : v.tooManyOutliers t p.man = false
  spill     : (v.spillRun t p.man.spill).isSome = true
  bandwidth : v.bandwidthExcess t p.man.bw = 0

/-- The tile's scratchpad accesses neither fault nor wait, and meet no parity error. -/
structure Tile.Allows (x : Tile) (as : List Acc) : Prop where
  legal   : x.accFault as = none
  free    : x.interlocked as = false
  correct : x.parity as = none

end Sys2Proof.Machine
end

