-- ==== Sys2Proof/Certificates/Slice0/Obligations.lean ====
section
/-!
DEFINITION. The statements about the card, for the provers: what each command does, what every step keeps, and the
rules of the spec that hold of the whole machine. A command's result is given as the next state it answers, so its
frame is part of the equation: what the next state does not name is as it was.
-/
section
open Sys2Proof Sys2Proof.Machine

/-! ## The queue, the invariant, memory and registers -/

/-- A step takes the command at the front of the queue and is that command's `exec` with the queue's rest. On an empty
queue a step is one tick of the card's clock, and it always answers a next state (the model's choice, log 1). -/
def Obligations.StepRunsFront : Prop :=
  (∀ (c : Instr) (rest : List Instr) (s : State), step { s with pending := c :: rest } = exec c { s with pending := rest }) ∧
  (∀ s : State, s.pending = [] → step s = .next (tick s))

/-- No command is refused: every command answers a next state, or the fault of ill-formed data. A command that can
reach the card in a state, well formed and with the rows of the port's format where it stores a line, answers a next
state. -/
def Obligations.EveryCommandCompletes : Prop :=
  (∀ (c : Instr) (s : State), (∃ t, exec c s = .next t) ∨ exec c s = .fault .malformed) ∧
  (∀ (c : Instr) (s : State), s.takes c = true → ∃ t, exec c s = .next t)

/-- The invariant holds at reset. -/
def Obligations.ResetInvariant : Prop :=
  State.reset.Inv

/-- Every step keeps the invariant: device memory stays canonical and every limited field stays inside the range the
spec gives it, from every state that meets it. -/
def Obligations.StepKeepsInvariant : Prop :=
  ∀ s t : State, s.Inv → step s = .next t → t.Inv

/-- The values the spec gives for reset: the power cap and VGRID, the reset cause, the next stamp, each source idle,
masked, with priority 0xFF and no target, each stack at full scale with the thresholds' resets, the tile watchdog, the
bell watchdog, each ring pair disabled with 2^4 entries and each channel disarmed, and no command waiting. -/
def Obligations.ResetValues : Prop :=
  State.reset.pending = [] ∧ State.reset.pwr.capW = 420 ∧ State.reset.pwr.vset = 800 ∧ State.reset.pwr.cause = 1 ∧
  State.reset.gng.next = 0 ∧ State.reset.car.priSplit = 4 ∧ State.reset.mem.ueThreshold = 16 ∧
  State.reset.mem.patrolH = 8 ∧ State.reset.grd.wdogLimit = 2500 ∧ State.reset.flt.bwdogMs = 100 ∧
  State.reset.flt.halted = false ∧ State.reset.boot.ready = false ∧
  (∀ n, (State.reset.src n).priority = 0xFF ∧ (State.reset.src n).target = 7 ∧ (State.reset.src n).mask = true ∧
    (State.reset.src n).pending = false) ∧
  (∀ k, (State.reset.stack k).scale = 0x10000 ∧ (State.reset.stack k).fenced = false) ∧
  (∀ t r, (State.reset.ring t r).enable = false ∧ (State.reset.ring t r).k = 4) ∧
  (∀ t, (State.reset.tenant t).enable = false ∧ (State.reset.tenant t).pollUs = 10) ∧
  (∀ k, (State.reset.chan k).armed = false ∧ (State.reset.chan k).pw = 1) ∧
  (∀ p, (State.reset.port p).enable = false ∧ (State.reset.port p).settle = 1000) ∧
  (∀ i, (State.reset.tile i).running = false ∧ (State.reset.tile i).fault = 0)

/-- Device memory as a store of bytes: a read after a write of the same address gives what was written, every other
address reads as before, and the canonical form is kept. -/
def Obligations.MemoryByteLaws : Prop :=
  ∀ (s : State) (a b : Nat) (x : Byte),
    (s.setByte a x).byte a = x ∧ (b ≠ a → (s.setByte a x).byte b = s.byte b) ∧
    (s.mem.wf = true → (s.setByte a x).mem.wf = true)

/-- A write to a tenant's device space reaches only its own pages: a byte at a physical address that no byte of the
region translates to reads as before. -/
def Obligations.TenantWritesReachOwnPages : Prop :=
  ∀ (s : State) (t a : Nat) (bs : List Byte) (p : Nat),
    (∀ i < bs.length, s.translate t (a + i) ≠ some p) → (s.writeTen t a bs).byte p = s.byte p

/-- A virtual function's writes stay its own. Whatever a function other than PF0 writes, at any address and of any
size, device memory, the translation pool and every other tenant's registers, rings and configuration are as they
were. A function other than PF0 reaches no block window: its write changes nothing, and its read answers all ones with
nothing else changed. -/
def Obligations.VirtualFunctionIsolation : Prop :=
  (∀ (t : Fin 64) (sp : Space) (addr size be : Nat) (v : BitVec 64) (s u : State), t.val ≠ 0 →
     exec (.registerWrite (.fn t) sp addr size be v) s = .next u →
     u.mem = s.mem ∧ u.ten.map = s.ten.map ∧
     ∀ m < 64, m ≠ t.val → u.tenant m = s.tenant m ∧ u.func m = s.func m ∧ ∀ r < 8, u.ring m r = s.ring m r) ∧
  (∀ (t : Fin 64) (off : Nat) (f : State → State) (g : State → Reg × State) (s : State), t.val ≠ 0 →
     regWrite (.fn t) (.blk off) f s = s ∧ regRead (.fn t) (.blk off) g s = { s with rdata := 0xFFFFFFFF })

/-- An access to a window whose domain is off is discarded, a read of it gives all ones, and each is one register
access error: counted, with its source's event. PF0's access to a block window is such a one while the board's supply,
or for a window above the board's MGT, is off. -/
def Obligations.OffWindowAccess : Prop :=
  (∀ (q : Requester) (a : RegAddr) (f : State → State) (g : State → Reg × State) (s : State),
    (access q a true s = .off → regWrite q a f s = regError q a.bar0 s) ∧
    (access q a false s = .off → regRead q a g s = { regError q a.bar0 s with rdata := 0xFFFFFFFF })) ∧
  (∀ (off : Nat) (w : Bool) (s : State), s.fnAnswers 0 = true → s.boot.stage ≠ .recovery →
    (off < 0x100000 → (access (.fn 0) (.blk off) w s = .off ↔ s.on domAON = false)) ∧
    (0x100000 ≤ off → (access (.fn 0) (.blk off) w s = .off ↔ s.on domMGT = false))) ∧
  (∀ (q : Requester) (off : Nat) (s : State), (regError q off s).flt.regerr = satInc s.flt.regerr ∧
    (regError q off s).flt.cnt.find 0 31 = satInc (s.flt.cnt.find 0 31) ∧
    ((regError q off s).src 31).stamp = s.gng.next ∧ (regError q off s).mem = s.mem)

/-- REGISTER_WRITE by access code, of 32 bits with every byte enabled, from a requester whose access reaches the
register: the write acts on that register alone. An RW field takes what is written, a limited field the nearest value
its rule allows (PWR_CAP 40 to 420 W, PWR_VGRID_SET the steps of 10 mV from 550 to 900), and a W1C field clears the
bits written 1. REGISTER_READ of 32 bits, whatever its byte enables: the read data is the register's value, with what
reading it does, and a read of PWR_CAP, PWR_VGRID_SET or PWR_RESET_CAUSE leaves everything but the read data as it
was. Accesses of other sizes to a block window: a misaligned write does nothing but count one register access error, a
misaligned read gives 0 and counts one, a write with some byte enables clear counts one, and 8 aligned bytes are two
writes of 32 bits, the lower address first. Before the card is ready a write to a window that waits for it does nothing;
one that is itself an error (misaligned, with part of its byte enables, or without the key that a key field asks for)
counts as one there too. -/
def Obligations.RegisterAccesses : Prop :=
  ((∀ (q : Requester) (a : RegAddr) (addr : Nat) (v : BitVec 64) (s : State),
     regAddr q addr = some a → addr % 4 = 0 → access q a true s = .go →
     exec (.registerWrite q .bar addr 4 15 v) s = .next (write32 q a (v.extractLsb' 0 32) s)) ∧
   (∀ (q : Requester) (v : BitVec 32) (s : State),
     write32 q (.blk 0x100000) v s
       = { s with pwr := { s.pwr with capW := BitVec.ofNat 9 (max 40 (min 420 (v.toNat % 512))) } } ∧
     write32 q (.blk 0x100004) v s
       = { s with pwr := { s.pwr with vset := BitVec.ofNat 10 (max 550 (min 900 (v.toNat % 1024 / 10 * 10))) } } ∧
     write32 q (.blk 0x100014) v s = { s with pwr := { s.pwr with domHold := v.extractLsb' 0 16 } } ∧
     write32 q (.blk 0x100034) v s = { s with pwr := { s.pwr with cause := s.pwr.cause &&& ~~~ (v.extractLsb' 0 6) } } ∧
     write32 (.fn 0) (.blk 0x30) v s = { s with brd := { s.brd with dbgEnable := bit v 0 } })) ∧
  ((∀ (q : Requester) (a : RegAddr) (addr be : Nat) (s : State),
     regAddr q addr = some a → addr % 4 = 0 → access q a false s = .go →
     exec (.registerRead q .bar addr 4 be) s
       = .next { (read32 q a s).2 with rdata := (read32 q a s).1.zeroExtend 64 }) ∧
   (∀ (q : Requester) (s : State),
     read32 q (.blk 0x100000) s = (BitVec.ofNat 32 s.pwr.capW.toNat, s) ∧
     read32 q (.blk 0x100004) s = (BitVec.ofNat 32 s.pwr.vset.toNat, s) ∧
     read32 q (.blk 0x100034) s = (BitVec.ofNat 32 s.pwr.cause.toNat, s))) ∧
  ((∀ (q : Requester) (addr size be : Nat) (off : Nat) (v : BitVec 64) (s : State),
     0 < size → regAddr q (addr / 4 * 4) = some (.blk off) → misaligned addr size = true →
     (access q (.blk off) true s = .go ∨ access q (.blk off) true s = .notReady →
       exec (.registerWrite q .bar addr size be v) s = .next (regError q addr s)) ∧
     (access q (.blk off) false s = .go →
       exec (.registerRead q .bar addr size be) s = .next { regError q addr s with rdata := 0 })) ∧
   (∀ (q : Requester) (a : RegAddr) (addr be : Nat) (v : BitVec 64) (s : State),
     regAddr q addr = some a → addr % 4 = 0 → be % 16 ≠ 15 →
     access q a true s = .go ∨ access q a true s = .notReady →
     exec (.registerWrite q .bar addr 4 be v) s = .next (regError q a.bar0 s)) ∧
   (∀ (q : Requester) (a : RegAddr) (addr : Nat) (v : BitVec 64) (s : State),
     regAddr q addr = some a → addr % 4 = 0 → access q a true s = .notReady →
     exec (.registerWrite q .bar addr 4 15 v) s
       = .next (if keyless a (v.extractLsb' 0 32) then regError q a.bar0 s else s)) ∧
   (∀ (q : Requester) (a : RegAddr) (addr : Nat) (v : BitVec 64) (s : State),
     regAddr q addr = some a → addr % 8 = 0 →
     exec (.registerWrite q .bar addr 8 255 v) s
       = .next (regWrite32 q a.next 15 (v.extractLsb' 32 32) (regWrite32 q a 15 (v.extractLsb' 0 32) s))))

/-! ## Board, power and start-up (03, 04) -/

/-- The board's commands. An SMBus block read gives the BRD_ register at offset 4c and changes nothing else; a block
write writes that register; loss of the auxiliary input in D0 lowers VGRID, never raises it, and records fault 0x10; its
return brings back its limit; outside D0, or with MGT off, the loss changes the board alone; an overloaded cage feed
turns off with its fault bit set and a record, and while MGT is off its record waits (the model's choice, log 118). The
available power of the board: 75 W, and the auxiliary input's limit by its sense contacts while it is present; the
effective cap is the least of PWR_CAP, the available power and 420 W. -/
def Obligations.BoardCommands : Prop :=
  ((∀ (p : Fin 2) (c : Fin 64) (s : State), access (.smbus p) (.blk (4 * c)) false s = .go →
     exec (.smbusBlockRead p c) s = .next { s with rdata := ((brdRead (4 * c) s).getD 0).zeroExtend 64 }) ∧
   (∀ (p : Fin 2) (c : Fin 64) (v : BitVec 32) (s t : State), access (.smbus p) (.blk (4 * c)) true s = .go →
     brdWrite (.smbus p) (4 * c) v s = some t → exec (.smbusBlockWrite p c v) s = .next t) ∧
   (∀ (fitMv : Nat) (s : State), s.brd.auxPresent = true → s.pwr.dstate = .d0 → s.on domMGT = true →
     let fit := max 550 (fitMv / 10 * 10)
     let v := min (min s.pwr.vset.toNat s.pwr.vact.toNat) fit
     exec (.auxPowerLoss fitMv) s = .next (fire { detector := 0x10, level := lvlNone, info0 := v, info1 := 75 }
       { s with brd := { s.brd with auxPresent := false }
                pwr := { s.pwr with vact := BitVec.ofNat 10 v, capLimited := decide (fit < s.pwr.vset.toNat) } })) ∧
   (∀ (fitMv : Nat) (s : State), s.pwr.dstate ≠ .d0 ∨ s.on domMGT = false →
     exec (.auxPowerLoss fitMv) s = .next { s with brd := { s.brd with auxPresent := false } }) ∧
   (∀ (x y : Bool) (s : State), exec (.auxInputPresent x y) s = .next { s with
     brd := { s.brd with auxPresent := true, sense0Open := x, sense1Open := y } }) ∧
   (∀ s : State, s.on domAON = true → s.on domMGT = true → s.brd.feedIn = true →
     exec (.cableFeedOverload 0) s = .next (fire { detector := 0x12, level := lvlUnit, location := 0 }
       { s with brd := { s.brd with feedIn := false, faultIn := true } })) ∧
   (∀ s : State, s.on domAON = true → s.on domMGT = true → s.brd.feedOut = true →
     exec (.cableFeedOverload 1) s = .next (fire { detector := 0x12, level := lvlUnit, location := 1 }
       { s with brd := { s.brd with feedOut := false, faultOut := true } })) ∧
   (∀ s : State, s.on domAON = true → s.on domMGT = false →
     (s.brd.feedIn = true → exec (.cableFeedOverload 0) s = .next { s with brd := { s.brd with
       feedIn := false, faultIn := true, feedDue := s.brd.feedDue ++ [0] } }) ∧
     (s.brd.feedOut = true → exec (.cableFeedOverload 1) s = .next { s with brd := { s.brd with
       feedOut := false, faultOut := true, feedDue := s.brd.feedDue ++ [1] } }))) ∧
  (∀ s : State, s.effectiveCap = min s.pwr.capW.toNat (min (75 + if s.brd.auxPresent then
       (if s.brd.sense0Open then (if s.brd.sense1Open then 150 else 450) else (if s.brd.sense1Open then 300 else 600))
     else 0) 420))

/-- Start-up, step by step, each from the stage before it: the AON supply, the resonator, MGT, the boot ROM's choice
of a slot, PERST#, the link, a stack's training, and the scrub that ends in ready. A slot is accepted when its image
can be read, its digest and its signature are right, and its anti-rollback number is at least the fused minimum; its
failure is otherwise 4, 1, 2 or 3, the first of these that applies. The voltage as MGT comes on (log 120), the overloads
recorded then (log 118) and the relock that a stack's training begins with (log 121) are the model's choices. -/
def Obligations.StartUp : Prop :=
  ((∀ s : State, s.boot.stage = .unpowered → exec .coldPowerOn s = .next
     (powerRetimer (domainOn domAON { s with
       boot := { s.boot with stage := .aon }, chn := { s.chn with copy := none } }))) ∧
   (∀ s : State, s.boot.stage = .aon → exec .memsStable s = .next { s with boot := { s.boot with stage := .mems } }) ∧
   (∀ s : State, s.boot.stage = .mems → s.pwr.perst = true → s.pwr.dstate ≠ .d3cold → exec .mainPowerGood s = .next
     (replayOverloads (settleVgrid (domainOn domMGT { s with boot := { s.boot with stage := .mgt } })))) ∧
   (∀ s : State, s.boot.stage = .mgt → s.slotFailure s.boot.activeB = 0 →
     exec .bootVerifyDone s = .next (bootSlot s.boot.activeB s)) ∧
   (∀ s : State, s.boot.stage = .mgt → s.slotFailure s.boot.activeB ≠ 0 → s.slotFailure (!s.boot.activeB) = 0 →
     exec .bootVerifyDone s = .next (bootSlot (!s.boot.activeB) s)) ∧
   (∀ s : State, s.boot.stage = .mgt → s.slotFailure s.boot.activeB ≠ 0 → s.slotFailure (!s.boot.activeB) ≠ 0 →
     exec .bootVerifyDone s = .next (pcieLock (domainOn domHIF { s with boot := { s.boot with
       stage := .recovery, status := BitVec.ofNat 4 (s.slotFailure (!s.boot.activeB)), resetting := false } }))) ∧
   (∀ s : State, s.boot.stage ≠ .unpowered →
     exec .perstDeassert s = .next { s with
       pwr := { s.pwr with perst := false }
       clk := { s.clk with locked := if s.on domHIF then setBit s.clk.locked 3 true else s.clk.locked } }) ∧
   (∀ (w : BitVec 5) (g : BitVec 3) (cxl : Bool) (s : State), [1, 2, 4, 8, 16].contains w.toNat = true →
     1 ≤ g.toNat → g.toNat ≤ 5 → s.hif.linkUp = false → s.pwr.perst = false → s.on domHIF = true → s.pwr.dstate = .d0 →
     exec (.linkTrain w g cxl) s = .next (replayFires (checkReady (forEach tenants holdChime
       { s with hif := { s.hif with linkUp := true, width := w, speed := g, cxl := cxl } })))) ∧
   (∀ (k : Fin 4) (s : State), s.boot.stage = .running → (s.stack k).trained = false → (s.stack k).fenced = false →
     (s.dramHeld k = false → exec (.memTrained k true) s = .next (rescaleStack k (domainOn (domMEM k)
       (s.setStack k { s.stack k with trained := true, patrol := 0 })))) ∧
     (s.dramHeld k = true → exec (.memTrained k true) s = .next s) ∧
     exec (.memTrained k false) s = .next (fence k causeTraining s)) ∧
   (∀ s : State, s.boot.stage = .running → s.boot.scrubbed = false →
     (∀ k ∈ [0, 1, 2, 3], ((s.stack k).trained || (s.stack k).fenced) = true) →
     exec .dramScrubDone s = .next { s with
       mem := { s.mem with cells := [], ecc := [] }
       boot := { s.boot with scrubbed := true, ready := s.hif.linkUp || s.boot.ready
                             resetting := !s.hif.linkUp && s.boot.resetting } })) ∧
  (∀ (f : ImageFacts) (m : Nat),
     (f.failure m = 0 ↔ f.readable = true ∧ f.digestOk = true ∧ f.sigOk = true ∧ m ≤ f.arb) ∧
     (f.readable = false → f.failure m = 4) ∧ (f.readable = true → f.digestOk = false → f.failure m = 1) ∧
     (f.readable = true → f.digestOk = true → f.sigOk = false → f.failure m = 2) ∧
     (f.readable = true → f.digestOk = true → f.sigOk = true → f.arb < m → f.failure m = 3))

/-- The resets. Loss of the AON supply leaves the reset state but for the flash, the fuses, the cables, the auxiliary
input, the board's revision and a retimer that a cable feeds; PERST# with MGT on writes no completion, raises every
epoch, clears MGT and HIF and turns every domain but AON, MGT and BYP off; a keyed card reset aborts, writes the
completions it can, and reruns from step 4; a hot reset drops every job and every tenant page; an FLR drops its tenant
alone. What the parts of a reset do: every epoch rises by 1; the rings are dropped with nothing issued on the link; the
MGT blocks are cleared with the Gong's era one higher, start-up not ready, no job, no port, queue, token set or stream;
a domain that is turned off is off and no other changes. The power states, from the state before each and with their
guards met: D3hot aborts the jobs and turns the switched domains off; D0 brings back the writes and firings held; D3cold
leaves AON and BYP; the return is a fundamental reset that start-up follows from step 3. A switched domain is turned on
when it is needed and off when nothing needs it, and a stack that no tenant page maps to is turned off; no other domain
changes. What a return from D3cold counts as is the model's choice (log 51), as are the stage a fundamental reset reruns
from (log 56) and the voltage after a reset (log 120). -/
def Obligations.ResetsAndPowerStates : Prop :=
  ((∀ s : State, ∃ t, exec .aonSupplyLoss s = .next t ∧ t.boot.stage = .unpowered ∧ t.boot.activeB = s.boot.activeB ∧
     t.boot.fusedArb = s.boot.fusedArb ∧ t.car = State.reset.car ∧ t.gng = State.reset.gng ∧
     t.pwr = { State.reset.pwr with dom := setBit State.reset.pwr.dom domBYP s.cableFed } ∧
     (s.cableFed = false → t.chn.copy = none ∧ ∀ x, (t.link x).up = false ∧ (t.link x).cable = (s.link x).cable) ∧
     t.mem = State.reset.mem ∧ t.rings = [] ∧ t.ten = State.reset.ten ∧ t.grd = State.reset.grd ∧ t.flt = State.reset.flt ∧
     t.sch = State.reset.sch ∧ t.pending = s.pending ∧ t.out = s.out) ∧
   (∀ s : State, s.pwr.perst = false → s.boot.stage ≠ .unpowered →
     let u := settleVgrid (domainsOff (switched ++ [3, 4, 5, 6, 2])
       (clearHif (clearMgt true (bumpEpochs (setCause 1 (dropRings s))))))
     exec .fundamentalReset s = .next { u with
       pwr := { u.pwr with perst := true, dstate := .d0 }
       clk := { u.clk with locked := setBit u.clk.locked 3 false }
       boot := { u.boot with stage := if u.on domMGT then .mgt else u.boot.stage, resetting := false } }) ∧
   (∀ (q : Requester) (v : BitVec 32) (s : State), access q (.blk 0x100030) true s = .go → v.toNat / 65536 = 0x5A5A →
     v.toNat % 2 = 1 → s.boot.resetting = false → exec (.cardReset q v) s = .next (cardReset s)) ∧
   (∀ (q : Requester) (v : BitVec 32) (s : State), access q (.blk 0x100030) true s = .go → v.toNat / 65536 ≠ 0x5A5A →
     v.toNat % 2 = 1 → exec (.cardReset q v) s = .next (regError q 0x100030 s)) ∧
   (∀ s : State, s.hif.linkUp = true →
     let u := forEach s.existing tenantLost (bumpEpochs (dropAll s))
     let w := forEach tenants clearCq (clearHif u)
     exec .hotReset s = .next { w with
       hif := { w.hif with width := u.hif.width, speed := u.hif.speed, cxl := u.hif.cxl }
       pwr := { w.pwr with dstate := .d0 } }) ∧
   (∀ (f : Fin 64) (s : State), f.val ≠ 0 → s.hif.linkUp = true → s.tenantExists f = true → (s.func f).flrBusy = false →
     exec (.flr f) s = .next (flrTenant f s)) ∧
   (∀ (f : Fin 64) (s : State), exec (.flrComplete f) s = .next (s.setFunc f { s.func f with flrBusy := false })) ∧
   (∀ s : State, s.hif.linkUp = true → (s.func 0).flrBusy = false →
     let u := forEach (0 :: s.existing) flrTenant s
     exec .pf0Flr s = .next (forEach s.existing (fun t s => tenantGone t (s.setFunc t {}))
       { u with hif := { u.hif with vfEnable := false, numVfs := 0, ari := false, vfBar0 := 0 } }) ∧
     exec (.flr 0) s = exec .pf0Flr s)) ∧
  ((∀ (s : State) (k : Nat), k < 64 → ((bumpEpochs s).tenant k).epoch = (s.tenant k).epoch + 1) ∧
   (∀ s : State, (dropRings s).out = s.out ∧ ∀ t r, ((dropRings s).ring t r).inflight = []) ∧
   (∀ (b : Bool) (s : State), (clearMgt b s).gng.era = s.gng.era + 1 ∧ (clearMgt b s).boot.ready = false ∧
     (clearMgt b s).sch.jobs = [] ∧ (clearMgt b s).rol = [] ∧ (clearMgt b s).ink = {} ∧ (clearMgt b s).tok = {} ∧
     (clearMgt b s).cym = {} ∧ (clearMgt b s).pwr.tripped = false ∧ (clearMgt b s).flt.next = s.flt.next) ∧
   (∀ s : State, 550 ≤ s.pwr.vset.toNat → s.pwr.vset.toNat ≤ 900 → ∃ v : BitVec 10, 550 ≤ v.toNat ∧
     v.toNat ≤ s.pwr.vset.toNat ∧ settleVgrid s = { s with free := s.free + 1, pwr := { s.pwr with vact := v } }) ∧
   (∀ (l : List Nat) (s : State) (d : Nat), d < 16 → (domainsOff l s).on d = (s.on d && !l.contains d))) ∧
  ((∀ s : State, s.pwr.dstate = .d0 → s.hif.linkUp = true →
     let due := tenants.filter s.hasWork
     let u := forEach due (fun t s => tenantReset t (abortTenant t 2 s)) s
     exec .d3hotEnter s = .next (domainsOff switched { u with pwr := { u.pwr with dstate := .d3hot, d3Due := due } })) ∧
   (∀ s : State, s.pwr.dstate = .d3hot →
     exec .d0Enter s = .next (replayFires (forEach tenants (fun t s => forEach ringsOf (flushHalf t) s)
       (sendHeld { s with pwr := { s.pwr with dstate := .d0 } })))) ∧
   (∀ s : State, s.pwr.dstate = .d3hot →
     let u := clearHif (clearMgt true (domainsOff [1, 2, 3, 4, 5, 6, 7, 8, 9, 10, 11, 12, 13, 14] (dropRings s)))
     exec .d3coldEnter s = .next { u with
       pwr := { u.pwr with dstate := .d3cold, perst := true }, mem := { u.mem with cells := [], ecc := [] }
       boot := { u.boot with stage := .mems, resetting := false } }) ∧
   (∀ s : State, s.pwr.dstate = .d3cold →
     exec .d3coldExit s = .next (bumpEpochs (setCause 1 { s with pwr := { s.pwr with dstate := .d0 } }))) ∧
   (∀ (d : Fin 16) (s : State), s.mayPower d = true → s.on d = false → exec (.domainPowerOn d) s = .next (domainOn d s)) ∧
   (∀ (d : Fin 16) (s : State), d.val ∈ switched → s.on d = true → s.needed d = false →
     exec (.domainIdleOff d) s = .next (domainOff d s)) ∧
   (∀ (k : Fin 4) (d : Fin 16) (s : State), d.val = domMEM k → s.on d = true →
     (∀ t < 64, s.onStack t k = false) → exec (.domainIdleOff d) s
       = .next (rescale (domainOff d (s.setStack k { s.stack k with trained := false })))) ∧
   (∀ (d e : Nat) (s : State), d < 16 → e < 16 →
     (domainOn d s).on e = (s.on e || e == d) ∧ (domainOff d s).on e = (s.on e && e != d)))

/-- VGRID, temperature and the sensor clocks. VGRID_EVALUATE moves the applied voltage by at most 100 mV in its 50 µs
and changes PWR_ alone: it rises only to what the request and the cap allow, and the tiles are held exactly where it
stands at 550 mV with the measured power above the effective cap. TEMP_SAMPLE below every limit stores the two highest
temperatures; a stack above 85 °C gets hot. A frequency from 20,000 to 250,000 kHz starts a relock with the PLL's output
disconnected and the port's outputs low, or while FRONT is off only takes the frequency (the model's choice, log 123);
another is refused with cfg_err. A lock reconnects the output; 40 µs without one set lock_fail and record fault 0x0F,
and the output stays disconnected. -/
def Obligations.VoltageAndClocks : Prop :=
  (∀ (fitMv : Nat) (dw : BitVec 16) (s : State), s.on domMGT = true → s.pwr.vact.toNat ≤ 900 →
    ∃ p : Pwr, exec (.vgridEvaluate fitMv dw) s = .next { s with pwr := p } ∧ p.inputDw = dw ∧ p.capW = s.pwr.capW ∧
      p.vset = s.pwr.vset ∧ p.vact.toNat ≤ s.pwr.vact.toNat + 100 ∧
      (p.holdActive = true ↔ p.vact.toNat = 550 ∧ 10 * s.effectiveCap < dw.toNat) ∧
      (550 ≤ s.pwr.vset.toNat → s.pwr.thermalLimited = false → s.pwr.dieHot = false →
        (s.pwr.vact.toNat ≤ p.vact.toNat + 100 ∧
         (p.vact.toNat ≤ s.pwr.vact.toNat ∨ p.vact.toNat ≤ min s.pwr.vset.toNat (max 550 (fitMv / 10 * 10))) ∧
         (10 * s.effectiveCap < dw.toNat → 560 ≤ s.pwr.vact.toNat → p.vact.toNat < s.pwr.vact.toNat)))) ∧
  (∀ (die : List Int) (stackC : List (Option Int)) (s : State), die.length = 64 → stackC.length = 4 → s.on domMGT = true →
    s.pwr.tripped = false → maxTemp die < 115 → maxTemp (stackC.filterMap id) < 105 →
    exec (.tempSample die stackC) s = .next (forEach [0, 1, 2, 3] (fun k s => stackSample k (stackC.getD k none) s)
      { s with pwr := { (s.pwr.followDie (maxTemp die)) with
        dieC := BitVec.ofInt 8 (maxTemp die), dramC := BitVec.ofInt 8 (maxTemp (stackC.filterMap id)) } })) ∧
  (∀ (k : Nat) (t : Int) (s : State), s.on (domMEM k) = true → (s.stack k).fenced = false →
    (85 < t → (s.stack k).hot = false → stackSample k (some t) s
      = rescaleStack k (raise (292 + k) (s.setStack k { s.stack k with hot := true, cool := 0 }))) ∧
    (t ≤ 82 → stackSample k (some t) s = s.setStack k { s.stack k with cool := (s.stack k).cool + 1 }) ∧
    stackSample k none s = fence k causeSensor s) ∧
  (∀ (q : Requester) (p : Fin 4) (v : BitVec 32) (s : State), access q (.blk (0x200010 + 4 * p)) true s = .go →
    20000 ≤ v.toNat % 2 ^ 18 → v.toNat % 2 ^ 18 ≤ 250000 →
    (s.on domFRONT = true → exec (.lineFreqWrite q p v) s = .next { linesLow p s with clk := { s.clk with
      lineKhz := Tbl.put 50000 s.clk.lineKhz p (BitVec.ofNat 18 (v.toNat % 2 ^ 18))
      relock := setBit s.clk.relock (9 + p) true, disconnected := setBit s.clk.disconnected (9 + p) true
      locked := setBit s.clk.locked (9 + p) false } }) ∧
    (s.on domFRONT = false → ∃ t, exec (.lineFreqWrite q p v) s = .next t ∧
      t.clk.lineKhz = Tbl.put 50000 s.clk.lineKhz p (BitVec.ofNat 18 (v.toNat % 2 ^ 18)) ∧
      t.clk.locked = s.clk.locked ∧ bit t.clk.relock (9 + p) = false)) ∧
  (∀ (q : Requester) (p : Fin 4) (v : BitVec 32) (s : State), access q (.blk (0x200010 + 4 * p)) true s = .go →
    (v.toNat % 2 ^ 18 < 20000 ∨ 250000 < v.toNat % 2 ^ 18) →
    exec (.lineFreqWrite q p v) s = .next { s with clk := { s.clk with cfgErr := true } }) ∧
  (∀ (i : Fin 13) (s : State), bit s.clk.relock i = true →
    let u : State := { s with clk := { s.clk with
      relock := setBit s.clk.relock i false, disconnected := setBit s.clk.disconnected i false
      locked := setBit s.clk.locked i true } }
    (i.val < 9 ∨ (s.port (i - 9)).enable = false → exec (.pllLock i) s = .next u) ∧
    (9 ≤ i.val → (s.port (i - 9)).enable = true →
      ((s.port (i - 9)).rateOk (s.lineKhz (i - 9)).toNat = true → exec (.pllLock i) s
        = .next (u.setPort (i - 9) { s.port (i - 9) with retrain := true, terminated := true })) ∧
      ((s.port (i - 9)).rateOk (s.lineKhz (i - 9)).toNat = false → exec (.pllLock i) s
        = .next (portStopGroup (i - 9) 1 u)))) ∧
  (∀ (i : Fin 13) (s : State), bit s.clk.relock i = true →
    exec (.pllLockTimeout i) s = .next (fire
      { detector := 0x0F, level := if 5 ≤ i.val ∧ i.val ≤ 8 then lvlStack else lvlUnit, location := i }
      { s with clk := { s.clk with relock := setBit s.clk.relock i false, lockFail := setBit s.clk.lockFail i true } }))

/-! ## Host attach, tenants, rings and completions (05, 06) -/

/-- The commands of the host link and of configuration space: a read of the card that fails is logged in AER against its
function and recorded, and stops its ring, every ring of its tenant, or its job; while the timeout is disabled no read
ends in one. The tenants' commands, with their accesses answered. A
map write that nothing refuses changes its entry and queues the page it gave up; one that is refused sets its bits of
TEN_MAP_STAT and nothing else; enable, disable, its end, and scrub act on their tenant. -/
def Obligations.HostAndTenants : Prop :=
  ((∀ (why : ReadEnd) (a : BitVec 64) (s : State), why ≠ .timeout ∨ (s.func 0).ctoDisable = false →
     let logged (t : Nat) : State := s.setFunc t { s.func t with
       aer := (s.func t).aer + 1
       aerStatus := setBit (s.func t).aerStatus (match why with | .timeout => 14 | .completerAbort => 15 | .unsupported => 20)
         true }
     let rec' (level t err : Nat) : Finding :=
       { detector := 0x09, level := level, location := t, info0 := err, info1 := a.toNat % 2 ^ 32 }
     (∀ (t : Fin 64) (r : Fin 8), s.fetchable t r = true →
       exec (.hostReadFail (.descriptor t r) why a) s = .next (stopRing t r 1 (fire (rec' lvlRing t 1) (logged t)))) ∧
     (∀ t : Fin 64, s.lineRead t = true → exec (.hostReadFail (.chime t) why a) s
       = .next (forEach [0, 1, 2, 3, 4, 5, 6, 7] (fun r s => stopRing t r 2 s)
           (endLineRead t false (fire (rec' lvlRing t 2) (logged t))))) ∧
     (∀ (j : Nat) (x : Job), s.job? j = some x → exec (.hostReadFail (.buffer j) why a) s
       = .next (fireJob (rec' lvlJob x.tenant 0) j (logged x.tenant)))) ∧
   (∀ (what : HostRead) (a : BitVec 64) (s : State), (s.func 0).ctoDisable = true →
     exec (.hostReadFail what .timeout a) s = .next s) ∧
   (∀ (n : BitVec 16) (e ari : Bool) (s : State), s.hif.linkUp = true → (s.func 0).flrBusy = false →
     let u : State := { s with hif := { s.hif with
       numVfs := n, vfEnable := e && (s.hif.vfEnable || decide (s.boot.stage ≠ .recovery)), ari := ari } }
     exec (.numvfsWrite n e ari) s = .next (forEach (s.existing.filter (fun t => !u.tenantExists t))
       (fun t s => (tenantGone t (flrTenant t s)).setFunc t {}) u)) ∧
   (∀ (t : Fin 64) (s : State), s.configurable t = true → (s.func t).bme = true →
     exec (.bmeClear t none) s
       = .next (tenantReset t (abortTenant t 3 (s.setFunc t { s.func t with bme := false })))) ∧
   (∀ (t : Fin 64) (s : State), s.configurable t = true → (s.func t).bme = false →
     exec (.bmeSet t) s = .next (forEach ringsOf (flushHalf t) (s.setFunc t { s.func t with bme := true })))) ∧
  ((∀ (q : Requester) (i : Fin 49152) (v : BitVec 32) (s : State),
     access q (.blk (baseTEN + 0x10000 + 4 * i)) true s = .go → s.locked i = false → (s.mapEntry i).valid = false →
     (bit v 31 = true → s.pageConflict i (fldv v 0 16 : BitVec 16).toNat = false ∧
       s.pageReserved (fldv v 0 16 : BitVec 16).toNat = false) →
     exec (.tenMapWrite q i v) s = .next (s.setMap i { valid := bit v 31, ppn := fldv v 0 16 })) ∧
   (∀ (q : Requester) (i : Fin 49152) (v : BitVec 32) (s : State),
     access q (.blk (baseTEN + 0x10000 + 4 * i)) true s = .go → s.locked i = true → bit v 31 = false →
     exec (.tenMapWrite q i v) s = .next { s with ten := { s.ten with mapStat := s.ten.mapStat ||| 4 } }) ∧
   (∀ (p : ScrubPage) (rest : List ScrubPage) (s : State), s.ten.scrubQ = p :: rest → s.pwr.dstate = .d0 →
     s.on (domMEM (p.ppn / stackPages)) = true →
     exec .pageZeroed s = .next (zeroBytes (p.ppn * pageBytes) pageBytes { s with ten := { s.ten with scrubQ := rest } })) ∧
   (∀ (q : Requester) (t : Fin 64) (s : State), access q (.blk (tenBlock t)) true s = .go →
     (s.tenant t).enable = false → (s.tenant t).disabling = false → s.tenantExists t = true →
     (s.tenant t).mapBase.toNat + (s.tenant t).mapCount.toNat ≤ 49152 → s.overlaps t = false → s.scrubbing t = false →
     exec (.tenantEnable q t) s = .next (holdChime t (s.setTenant t { s.tenant t with enable := true }))) ∧
   (∀ (q : Requester) (t : Fin 64) (s : State), access q (.blk (tenBlock t)) true s = .go →
     (s.tenant t).enable = true → (s.tenant t).disabling = false →
     exec (.tenantDisable q t) s = .next (tenantLost t (tenantReset t
       (abortTenant t 4 (s.setTenant t { s.tenant t with disabling := true }))))) ∧
   (∀ (t : Fin 64) (s : State), (s.tenant t).disabling = true → (∀ r ∈ ringsOf, (s.ring t r).inflight = []) →
     ((s.tenant t).hintDue = false → exec (.tenantDisableDone t) s = .next (tenantGone t s)) ∧
     ((s.tenant t).hintDue = true → ((tailHint t s).tenant t).hintDue = false →
       exec (.tenantDisableDone t) s = .next (tenantGone t (tailHint t s))) ∧
     (tenantGone t s).tenant t = { s.tenant t with
       enable := false, disabling := false, chime := .absent, polls := 0, hintDue := false, hintHeld := false }) ∧
   (∀ (q : Requester) (t : Fin 64) (s : State), access q (.blk (tenBlock t)) true s = .go → (s.tenant t).enable = false →
     exec (.tenantScrub q t) s = .next (queueScrub (some t) ((s.pages t).map (·.2)) s)))

/-- Which tenants exist: tenant 0, and tenant t while VF Enable is 1 and t is at most NumVFs, at most 63 with ARI
Capable Hierarchy set and at most 7 without. -/
def Obligations.TenantsThatExist : Prop :=
  ∀ (t : Nat) (s : State), s.tenantExists t = true ↔
    t = 0 ∨ (s.hif.vfEnable = true ∧ t ≤ s.hif.numVfs.toNat ∧ t ≤ 63 ∧ (s.hif.ari = false → t ≤ 7))

/-- Translation: a tenant's address is translated through the entry of its page inside the tenant's own range, and
refused outside the range, through an entry that is not valid, and from 2^40 on. -/
def Obligations.Translation : Prop :=
  ∀ (s : State) (t a : Nat),
    (∀ p, s.translate t a = some p ↔
      a < 2 ^ 40 ∧ a / 2097152 < (s.tenant t).mapCount.toNat ∧
      (s.mapEntry ((s.tenant t).mapBase.toNat + a / 2097152)).valid = true ∧
      p = (s.mapEntry ((s.tenant t).mapBase.toNat + a / 2097152)).ppn.toNat * 2097152 + a % 2097152)

/-- The ring and chime registers, and the chime lines, with their guards met. What a ring sees in its chime line: its
two indices are taken, and an enabled ring that more descriptors wait for than it holds stops with error 3. A fetch of
descriptors: one read of the link for all of them, in ring order and not past the ring's end, each taking the next
index, unchecked; nothing else of the card changes. The chime values taken as 0 when a ring is enabled are the model's
choice (log 40). -/
def Obligations.RingsAndChimes : Prop :=
  ((∀ (q : Requester) (t : Fin 64) (r : Fin 8) (k : BitVec 5) (s : State),
     access q (.tpg t (ringCtl r)) true s = .go → (s.ring t r).enable = false → (s.ring t r).inflight = [] →
     4 ≤ k.toNat → k.toNat ≤ 16 →
     exec (.ringEnable q t r k) s = .next (holdChime t (s.setRing t r { s.ring t r with
       k := k, enable := true, stopped := false, err := 0, sqHead := 0, cqTail := 0, sqProd := 0, cqCons := 0,
       markerDue := true, half := none }))) ∧
   (∀ (q : Requester) (t : Fin 64) (r : Fin 8) (k : BitVec 5) (s : State),
     access q (.tpg t (ringCtl r)) true s = .go → (s.ring t r).enable = false → (k.toNat < 4 ∨ 16 < k.toNat) →
     exec (.ringEnable q t r k) s = .next (regError q (RegAddr.tpg t (ringCtl r)).bar0 s)) ∧
   (∀ (q : Requester) (t : Fin 64) (r : Fin 8) (s : State),
     access q (.tpg t (ringCtl r)) true s = .go → (s.ring t r).enable = true → (s.ring t r).inflight = [] →
     exec (.ringEnable q t r (s.ring t r).k) s = .next (s.setRing t r { s.ring t r with
       sqHead := 0, cqTail := 0, sqProd := 0, cqCons := 0, markerDue := true, half := none })) ∧
   (∀ (q : Requester) (t : Fin 64) (r : Fin 8) (s : State), access q (.tpg t (ringCtl r)) true s = .go →
     exec (.ringDisable q t r) s = .next (s.setRing t r { s.ring t r with enable := false, markerDue := false })) ∧
   (∀ (q : Requester) (t : Fin 64) (v : BitVec 32) (s : State), access q (.tpg t 0x308) true s = .go →
     exec (.pollPeriodWrite q t v) s = .next (s.setTenant t { s.tenant t with
       pollUs := BitVec.ofNat 10 (max 1 (min 1000 (v.toNat % 1024))) })) ∧
   (∀ (t : Fin 64) (s : State), s.hif.cxl = true → s.hif.linkUp = true →
     ((s.tenant t).chime = .held →
       exec (.chimeSnoop t false) s = .next (readChime t (s.emit (.snoopAnswer (s.tenant t).chimeHpa)))) ∧
     ((s.tenant t).chime = .absent →
       exec (.chimeSnoop t false) s = .next (s.emit (.snoopAnswer (s.tenant t).chimeHpa))) ∧
     exec (.chimeSnoop t true) s = .next ((s.setTenant t { s.tenant t with hintHeld := false }).emit
       (.snoopAnswer (s.tenant t).hintHpa))) ∧
   (∀ (t : Fin 64) (s : State), s.hif.cxl = false → s.linkOk t = true → (s.tenant t).enable = true → s.boot.ready = true →
     exec (.chimePoll t) s = .next ((s.setTenant t { s.tenant t with polls := (s.tenant t).polls + 1 }).emit
       (.readLine t (s.tenant t).chimeAddr))) ∧
   (∀ (t : Fin 64) (line : List Byte) (s : State), line.length = 64 →
     let u := forEach [0, 1, 2, 3, 4, 5, 6, 7] (fun r s =>
       seeIndices t r (BitVec.ofNat 32 (le line (4 * r) 4)) (BitVec.ofNat 32 (le line (32 + 4 * r) 4)) s) s
     (s.hif.cxl = false → 0 < (s.tenant t).polls → (s.tenant t).chime = .absent → exec (.chimeLineData t line) s
       = .next (u.setTenant t { u.tenant t with polls := (u.tenant t).polls - 1 })) ∧
     (s.hif.cxl = true → (s.tenant t).chime = .reading → exec (.chimeLineData t line) s
       = .next (u.setTenant t { u.tenant t with chime := .held })) ∧
     (s.hif.cxl = true → (s.tenant t).chime = .readingAgain → exec (.chimeLineData t line) s = .next (readChime t u)) ∧
     (s.lineRead t = false → exec (.chimeLineData t line) s = .next s)) ∧
   (∀ (t : Fin 64) (s : State), s.hif.cxl = true → s.hif.linkUp = true → s.hif.l1 = false → s.pwr.dstate = .d0 →
     (s.func t).bme = true → (s.tenant t).enable = true → (s.tenant t).hintDue = true →
     exec (.tailHintWrite t) s = .next ((s.setTenant t { s.tenant t with hintDue := false, hintHeld := true }).emit
       (.itoMWr (s.tenant t).hintHpa (s.hintBytes t))))) ∧
  (∀ (t r : Nat) (p c : BitVec 32) (s : State),
     let x := { s.ring t r with sqProd := p, cqCons := c }
     (2 ^ x.k.toNat < (p - x.sqHead).toNat → x.enable = true → x.stopped = false →
       seeIndices t r p c s = stopRing t r 3 (s.setRing t r x)) ∧
     ((p - x.sqHead).toNat ≤ 2 ^ x.k.toNat → seeIndices t r p c s = s.setRing t r x)) ∧
  (∀ (t : Fin 64) (r : Fin 8) (d : List (List Byte)) (s : State), 1 ≤ d.length → d.length ≤ 8 →
     (∀ x ∈ d, x.length = 64) → s.fetchable t r = true → d.length ≤ s.fetchLimit t r →
     let x := s.ring t r
     exec (.descriptorFetch t r d) s = .next ((s.emit
         (.readDesc t (x.sqBase + BitVec.ofNat 64 (64 * (x.sqHead.toNat % 2 ^ x.k.toNat))) d.length)).setRing t r
       { x with
         inflight := x.inflight ++ d.mapIdx (fun i y => { seq := x.sqHead + BitVec.ofNat 32 i, desc := y, st := .fetched })
         sqHead := x.sqHead + BitVec.ofNat 32 d.length }))

/-- Completions: the oldest descriptor that is decided, once space, the link and the firmware allow, asks for a stamp;
where no request waits at its port of the Gong, and none that waits has seen its port granted, it takes the next stamp,
the next index, and the two writes of its entry, and otherwise it waits; a marker likewise, with the tenant's epoch; a
job of the descriptor leaves the card. -/
def Obligations.Completions : Prop :=
  (∀ (t : Fin 64) (r : Fin 8) (d : Inflight) (rest : List Inflight) (c : Cpl) (s : State),
    (s.ring t r).inflight = d :: rest → s.decision d = some c → s.linkOk t = true → s.firmware (coreOf t) = true →
    (s.ring t r).space = true → (s.ring t r).half = none → s.atPort (.completion t r) = [] →
    let u := gongPassed (gongPort (.completion t r)) s
    let v := writeEntry t r d.jobId d.seq c (u.setRing t r { s.ring t r with inflight := rest })
    exec (.completionWrite t r true) s = .next (gongWait (.completion t r) s) ∧
    (s.gongFree (gongPort (.completion t r)) = false →
      exec (.completionWrite t r false) s = .next (gongWait (.completion t r) s)) ∧
    (s.gongFree (gongPort (.completion t r)) = true → (∀ j, d.st ≠ .admitted j) →
      exec (.completionWrite t r false) s = .next v) ∧
    (∀ j, s.gongFree (gongPort (.completion t r)) = true → d.st = .admitted j →
      exec (.completionWrite t r false) s = .next (removeJob j v))) ∧
  (∀ (t : Fin 64) (r : Fin 8) (s : State), (s.ring t r).enable = true → (s.ring t r).markerDue = true →
    (s.ring t r).inflight = [] → (s.ring t r).half = none → (s.ring t r).space = true → s.mayFetch t = true →
    s.atPort (.marker t r) = [] →
    exec (.epochMarker t r true) s = .next (gongWait (.marker t r) s) ∧
    (s.gongFree (gongPort (.marker t r)) = true → exec (.epochMarker t r false) s
      = .next (writeEntry t r 0 (s.ring t r).sqHead (cpl stMarker (s.tenant t).epoch.toNat)
          ((gongPassed (gongPort (.marker t r)) s).setRing t r { s.ring t r with markerDue := false })))) ∧
  (∀ (t r : Nat) (j i : BitVec 32) (c : Cpl) (s : State),
    (writeEntry t r j i c s).gng.next = s.gng.next + 1 ∧
    ((writeEntry t r j i c s).ring t r).cqTail = (s.ring t r).cqTail + 1 ∧ (writeEntry t r j i c s).mem = s.mem)

/-- The entry's bytes: 32 of them, the phase byte first, then status, flags, ring, job identifier, stamp, detail,
tile-µs, output bytes and index, each at its place. -/
def Obligations.CompletionEntryLayout : Prop :=
  ∀ (ph r : Nat) (j i : BitVec 32) (st : BitVec 48) (c : Cpl), ph < 256 → r < 256 →
    let b := entryBytes ph r j st c i
    b.length = 32 ∧ le b 0 1 = ph ∧ le b 1 1 = c.status.toNat ∧ le b 2 1 = c.flags.toNat ∧ le b 3 1 = r ∧
    le b 4 4 = j.toNat ∧ le b 8 6 = st.toNat ∧ le b 14 2 = c.detail.toNat ∧ le b 16 8 = c.tileUs.toNat ∧
    le b 24 4 = c.outBytes.toNat ∧ le b 28 4 = i.toNat

/-! ## Gong and Carillon (07, 08) -/

/-- A stamp is the previous stamp plus 1 modulo 2^48, and a wrap is counted; nothing else changes. -/
def Obligations.StampIncrement : Prop :=
  ∀ s : State, (takeStamp s).gng.next.toNat = (s.gng.next.toNat + 1) % 2 ^ 48 ∧
    (takeStamp s).gng.wrap = (if s.gng.next.toNat = 2 ^ 48 - 1 then s.gng.wrap + 1 else s.gng.wrap) ∧
    takeStamp s = { s with gng := (takeStamp s).gng }

/-- One event: it takes a stamp, which its source keeps; an idle source becomes pending; a source that is pending or
active keeps its state and counts the event as lost, up to 255; no other source changes. -/
def Obligations.EventOfASource : Prop :=
  ∀ (n m : Nat) (s : State),
    (raise n s).gng = (takeStamp s).gng ∧ ((raise n s).src n).stamp = s.gng.next ∧
    ((s.src n).pending = false → (s.src n).active = false →
      (raise n s).src n = { s.src n with pending := true, stamp := s.gng.next }) ∧
    ((s.src n).pending = true ∨ (s.src n).active = true →
      ((raise n s).src n).pending = (s.src n).pending ∧ ((raise n s).src n).active = (s.src n).active ∧
      ((raise n s).src n).lost = true ∧ ((raise n s).src n).count.toNat = min 255 ((s.src n).count.toNat + 1)) ∧
    (m ≠ n → (raise n s).src m = s.src m)

/-- The Gong's commands. A read of GNG_NEXT_LO gives bits [31:0] of the next stamp, latches bits [47:32] and takes no
stamp; a read of GNG_HOLD gives the held ticks and clears them; a request that waits is granted where it is the oldest
at its port and no port that waits has seen that port granted since its own last grant, and goes on with its stamp;
another stays. An event of a source waits at its port, or is stamped. The pins. A new filtered level is kept, and is an
event when the source's sense selects it, which waits while MGT is off; a fall of a motor driver's fault input stops its
ports; while CK_AON is stopped a matching edge sets the pin's latch; when it runs again each latch is one event, in any
order, and all are clear. An input at a pin's filter that gives the level it already has changes nothing. Where another
driver brings an output that the card drives to the other level, the filter shows some level, which is open (log 135).
A level sense that is an event only on a change is the model's choice (log 43). -/
def Obligations.GongAndPins : Prop :=
  ((∀ (q : Requester) (s : State), access q (.blk 0x500000) false s = .go →
     exec (.gngNextRead q) s = .next { s with
       rdata := (s.gng.next.extractLsb' 0 32).zeroExtend 64
       gng := { s.gng with nextHi := s.gng.next.extractLsb' 32 16 } }) ∧
   (∀ (q : Requester) (s : State), access q (.blk 0x500010) false s = .go →
     exec (.gngHoldRead q) s = .next { s with rdata := s.gng.hold.zeroExtend 64, gng := { s.gng with hold := 0 } }) ∧
   (∀ (e : GongRequest) (s : State), s.on domMGT = true →
     ((s.atPort e).head? = some e → (∀ w ∈ s.gng.passed, w.1 = gongPort e ∨ gongPort e ∉ w.2) → exec (.gongGrant e) s
       = .next (granted e (gongPassed (gongPort e) { s with gng := { s.gng with held := s.gng.held.erase e } }))) ∧
     ((s.atPort e).head? ≠ some e ∨ (∃ w ∈ s.gng.passed, w.1 ≠ gongPort e ∧ gongPort e ∈ w.2) →
       exec (.gongGrant e) s = .next s)) ∧
   (∀ (n : Nat) (s : State), granted (.source n) s = raise n s) ∧
   (∀ (n : Fin 512) (s : State), s.on domMGT = true → reservedSource n = false → isPin n = false →
     exec (.sourceEvent n true) s = .next (gongWait (.source n) s) ∧
     (s.atPort (.source n) ≠ [] → exec (.sourceEvent n false) s = .next (gongWait (.source n) s)) ∧
     (s.atPort (.source n) = [] → s.gongFree (gongPort (.source n)) = true →
       exec (.sourceEvent n false) s = .next (raise n (gongPassed (gongPort (.source n)) s)))) ∧
   (∀ (e : GongRequest) (s : State), (gongWait e s).gng.held = s.gng.held ++ [e] ∧
     (gongWait e s).gng.next = s.gng.next ∧ (gongWait e s).car = s.car ∧ (gongWait e s).rings = s.rings)) ∧
  ((∀ (k : Fin 20) (b held : Bool) (s : State), s.ckAon = true → bit s.car.levels k = !b → s.drivenOther k b = false →
     let e : GongRequest := .source (384 + k)
     let u : State := { s with car := { s.car with levels := setBit s.car.levels k b } }
     let mflt (v : State) : State := if 16 ≤ k.val ∧ b = false then mfltFall (k - 16) v else v
     (senses (s.src (384 + k)).sense b = false → exec (.glitchFilterOutput k b held) s = .next (mflt u)) ∧
     (senses (s.src (384 + k)).sense b = true → held = true ∨ s.on domMGT = false →
       exec (.glitchFilterOutput k b held) s = .next (mflt (gongWait e u))) ∧
     (senses (s.src (384 + k)).sense b = true → s.on domMGT = true → s.atPort e = [] → s.gongFree (gongPort e) = true →
       exec (.glitchFilterOutput k b false) s = .next (mflt (raise (384 + k) (gongPassed (gongPort e) u))))) ∧
   (∀ (k : Fin 20) (b held : Bool) (s : State), s.ckAon = true → bit s.car.levels k = !b → s.drivenOther k b = true →
     ∃ l, exec (.glitchFilterOutput k b held) s = .next (filteredLevel k l held { s with free := s.free + 1 })) ∧
   (∀ (k : Fin 20) (b held : Bool) (s : State), bit s.car.levels k = b → filteredLevel k b held s = s) ∧
   (∀ (k : Fin 20) (b : Bool) (s : State), s.on domAON = true → s.ckAon = false → bit s.car.latches k = false →
     senses (s.src (384 + k)).sense b = true → s.hif.pmeEn = false →
     exec (.pinLatchCatch k b) s = .next { s with car := { s.car with latches := setBit s.car.latches k true } }) ∧
   (∀ s : State, s.ckAon = true → s.on domMGT = true →
     exec .pinLatchReplay s = .next (forEachAny ((List.range 20).filter (fun k => bit s.car.latches k))
       (fun k s => askEvent (384 + k) false s) { s with car := { s.car with latches := 0 } })) ∧
   (∀ (k : Fin 20) (s : State), s.ckAon = true → s.on domMGT = true → s.car.latches = setBit 0 k true →
     s.atPort (.source (384 + k)) = [] → s.gongFree (gongPort (.source (384 + k))) = true →
     exec .pinLatchReplay s = .next (raise (384 + k) (gongPassed (gongPort (.source (384 + k)))
       { s with car := { s.car with latches := 0 } })))) ∧
  (∀ (k : Fin 20) (held : Bool) (s : State), exec (.glitchFilterOutput k (bit s.car.levels k) held) s = .next s)

/-- The registers of a source and its path to a core: the RW fields of CAR_SRCn, the choice of a selection, the claim of
the presented source, which becomes active, its end, each of which presents the next selected source (the model's
choice, log 133), a software event, the count of lost events, the stamp, a hold-off. A core may not claim for another,
or end a source that it has not claimed: each is one register access error. -/
def Obligations.SourcesAndClaims : Prop :=
  ((∀ (q : Requester) (n : Fin 512) (v : BitVec 32) (s : State), access q (.blk (baseCAR + 4 * n)) true s = .go →
     (s.src n).active = false → (s.src n).presented = false →
     (s.src n).target = v.extractLsb' 15 3 → (s.src n).vector = v.extractLsb' 18 6 → (s.src n).sense = v.extractLsb' 12 3 →
     exec (.carSrcWrite q n v false) s = .next (s.setSrc n { s.src n with
       priority := v.extractLsb' 24 8, wake := bit v 11, mask := bit v 10 })) ∧
   (∀ (n : Fin 512) (s : State), s.on domMGT = true → s.boot.stage = .running → (s.src n).target.toNat < 4 →
     s.selected n = true → exec (.sourceCommit n) s = .next (s.setSrc n { s.src n with presented := true, committing := false })) ∧
   (∀ (n : Fin 512) (s : State), s.on domMGT = true → s.hostReady n = true → (s.src n).mask = false →
     exec (.sourceCommit n) s
       = .next (fireMsix 0 (s.src n).vector.toNat (s.setSrc n { s.src n with pending := false, committing := false }))) ∧
   (∀ (c : Fin 4) (n : Nat) (s : State), access (.core c) (.blk (baseCAR + 0x4000 + 0x10 * c)) false s = .go →
     s.presentedTo c = some n → s.car.holdoff.find 0 (sourceGroup n) = 0 →
     exec (.carClaim (.core c) c) s = .next { presentNext c ((s.setSrc n { s.src n with
         presented := false, pending := false, active := true }).setClaimed c ((n, (s.src n).priority.toNat) :: s.claimed c))
       with rdata := (BitVec.ofNat 32 (n + 1)).zeroExtend 64 }) ∧
   (∀ (c : Fin 4) (s : State), access (.core c) (.blk (baseCAR + 0x4000 + 0x10 * c)) false s = .go →
     s.presentedTo c = none → exec (.carClaim (.core c) c) s = .next { s with rdata := 0 }) ∧
   (∀ (c : Fin 4) (v : BitVec 32) (s : State), access (.core c) (.blk (baseCAR + 0x4004 + 0x10 * c)) true s = .go →
     (s.claimed c).any (fun x => x.1 == fld v 0 9) = true →
     exec (.carDone (.core c) c v) s
       = .next (presentNext c (endActive (fld v 0 9)
           (s.setClaimed c ((s.claimed c).filter (fun x => x.1 != fld v 0 9)))))) ∧
   (∀ (c n : Nat) (s : State), s.boot.stage = .running → s.car.srcs.find? (fun e => e.2.target.toNat == c && s.selected e.1)
     = some (n, s.src n) → presentNext c s = s.setSrc n { s.src n with presented := true }) ∧
   (∀ (q : Requester) (w : Fin 16) (j : Fin 32) (s : State), access q (.blk (baseCAR + 0x800 + 4 * w)) true s = .go →
     exec (.carSwset q w (BitVec.ofNat 32 (2 ^ j.val))) s = .next (raise (32 * w + j) s)) ∧
   (∀ (q : Requester) (n : Fin 512) (v : BitVec 32) (s : State), access q (.blk (baseCAR + 0x1000 + 4 * n)) true s = .go →
     bit v 31 = true →
     exec (.carLostClear q n v) s = .next (s.setSrc n { s.src n with lost := false, count := 0 })) ∧
   (∀ (q : Requester) (n : Fin 512) (s : State), access q (.blk (baseCAR + 0x2000 + 8 * n)) false s = .go →
     exec (.carStampRead q n) s = .next { s.setSrc n { s.src n with stampHi := (s.src n).stamp.extractLsb' 32 16 } with
       rdata := ((s.src n).stamp.extractLsb' 0 32).zeroExtend 64 }) ∧
   (∀ (g : Fin 32) (s : State), exec (.holdoffExpire g) s
     = .next { s with car := { s.car with inHoldoff := setBit s.car.inHoldoff g false } })) ∧
  (∀ (q : Requester) (c : Fin 4) (v : BitVec 32) (s : State), (∀ d : Fin 4, q = .core d → d ≠ c) →
     (access q (.blk (baseCAR + 0x4000 + 0x10 * c)) false s = .go →
       exec (.carClaim q c) s = .next { regError q (baseCAR + 0x4000 + 0x10 * c) s with rdata := 0 }) ∧
     (access q (.blk (baseCAR + 0x4004 + 0x10 * c)) true s = .go →
       exec (.carDone q c v) s = .next (regError q (baseCAR + 0x4004 + 0x10 * c) s)))

/-- A selection takes a presentable source that is not masked, and no presentable unmasked source of the same target
comes before it in the order of group priority, priority and number. -/
def Obligations.SelectionIsFirst : Prop :=
  ∀ (n m : Nat) (s : State), s.selected n = true → m ≠ n → (m, s.src m) ∈ s.car.srcs → s.presentable m = true →
    (s.src m).mask = false → (s.src m).target = (s.src n).target → s.before m n = false

/-- Completion interrupts and messages. One firing of an entry: a blocked entry keeps it in its pending bit and issues
nothing; with the link in L1, or PF0 outside D0, it is held; otherwise one message is issued. -/
def Obligations.CompletionInterrupts : Prop :=
  ((∀ (t : Fin 64) (r : Fin 8) (s : State), (s.ring t r).uncovered ≠ 0 →
     exec (.coalesceTimerExpire t r) s = .next (fireCq t r s)) ∧
   (∀ (q : Requester) (t : Fin 64) (r : Fin 8) (v : BitVec 32) (m : Bool) (s : State),
     access q (.tpg t (0x400 + 8 * r)) true s = .go → (s.ring t r).uncovered = 0 →
     let c : Coal := { timeUs := if v.toNat / 65536 % 65536 = 0 then 1 else v.extractLsb' 16 16
                       countM1 := v.extractLsb' 8 8, wake := bit v 0 }
     exec (.coalWrite q t r v m) s = .next (s.setRing t r { s.ring t r with coal := c, copy := c })) ∧
   (∀ (t e : Fin 64) (s : State), s.tenantExists t = true → bit (s.func t).pba e = true → (s.func t).blocked e = false →
     s.pwr.dstate = .d0 → s.hif.l1 = false →
     exec (.msixUnblock t e) s
       = .next ((s.setFunc t { s.func t with pba := setBit (s.func t).pba e false }).emit (.msix t e))) ∧
   (∀ s : State, s.hif.l1 = true →
     (s.pwr.dstate = .d0 → exec .l1ExitSend s = .next { s with
       hif := { s.hif with l1 := false, heldMsix := [] }, out := s.out ++ s.hif.heldMsix.map (fun m => .msix m.1 m.2) }) ∧
     (s.pwr.dstate ≠ .d0 → exec .l1ExitSend s = .next { s with hif := { s.hif with l1 := false } })) ∧
   (∀ (c e : Bool) (s : State), s.hif.linkUp = true → (s.func 0).flrBusy = false → s.car.latches = 0 →
     exec (.pmeConfigWrite c e) s = .next { s with
       hif := { s.hif with pmeStatus := s.hif.pmeStatus && !c, pmeEn := e } })) ∧
  (∀ (t e : Nat) (s : State),
     ((s.func t).blocked e = true → fireMsix t e s = s.setFunc t { s.func t with pba := setBit (s.func t).pba e true }) ∧
     ((s.func t).blocked e = false → s.hif.l1 = true ∨ s.pwr.dstate ≠ .d0 →
       fireMsix t e s = { s with hif := { s.hif with heldMsix := s.hif.heldMsix ++ [(t, e)] } }) ∧
     ((s.func t).blocked e = false → s.hif.l1 = false → s.pwr.dstate = .d0 → fireMsix t e s = s.emit (.msix t e)))

/-! ## Grid and device memory (09, 12) -/

/-- The grid's commands: a bell core's choke, turned away while one is busy; its end; a watchdog at its limit; the
rate window; the pace, which a read of its low part latches; the fence count, which its read clears. A tile fault: the
tile stops with its code and pc kept, and its job, if it has one that is not decided, fails. A second choke while one
is busy counts as a register access error. -/
def Obligations.GridCommands : Prop :=
  ((∀ (c : Fin 4) (v : BitVec 32) (s : State), access (.core c) (.blk baseGRD) true s = .go → s.grd.chokeBusy = false →
     fld v 10 3 ≤ 5 → (∀ m ∈ s.grd.msgs, m.ports.contains (fld v 0 10, fld v 10 3) = false) →
     exec (.grdChokeWrite (.core c) v) s = .next { s with grd := { s.grd with chokeBusy := true } }) ∧
   (∀ (c : Fin 4) (v : BitVec 32) (s : State), access (.core c) (.blk baseGRD) true s = .go → s.grd.chokeBusy = true →
     exec (.grdChokeWrite (.core c) v) s = .next (regError (.core c) baseGRD s)) ∧
   (∀ s : State, exec .chokeComplete s = .next { s with grd := { s.grd with chokeBusy := false } }) ∧
   (∀ (i : Fin 1024) (s : State), (s.tile i).running = true → s.grd.wdogLimit.toNat ≤ (s.tile i).wdog.toNat →
     exec (.tileWatchdogExpire i) s = .next (tileFault i 1 (s.tile i).pc.toNat s)) ∧
   (∀ (d : Fin 4) (s : State), s.on domMGT = true → ∃ t, exec (.qrateUpdate d) s = .next t ∧
     t.grd.qrate.find {} d = { tiles := BitVec.ofNat 16 (s.windowPaces d).length
                               mhs := BitVec.ofNat 16 ((s.windowPaces d).sum / (1000 * (s.windowPaces d).length)) } ∧
     t.mem = s.mem ∧ t.car = s.car ∧ t.gng = s.gng) ∧
   (∀ (q : Requester) (i : Fin 1024) (s : State), access q (.blk (tileReg i 0x8)) false s = .go →
     s.on (domGRID (quadrant i)) = true →
     exec (.paceRead q i) s = .next { s.setTile i { s.tile i with paceHi := (s.tile i).pace.extractLsb' 32 16 } with
       rdata := ((s.tile i).pace.extractLsb' 0 32).zeroExtend 64 }) ∧
   (∀ (q : Requester) (s : State), access q (.blk (baseGRD + 0x30)) false s = .go →
     exec (.fenceStatRead q) s = .next { s with
       rdata := (pack [(16, s.grd.fenceCount.toNat), (0, s.grd.fenceTag.toNat)]).zeroExtend 64
       grd := { s.grd with fenceCount := 0 } })) ∧
  (∀ (i code info : Nat) (s : State), (s.tile i).running = true → (s.tile i).job = none →
     ((tileFault i code info s).tile i).running = false ∧
     ((tileFault i code info s).tile i).fault = BitVec.ofNat 8 code ∧
     ((tileFault i code info s).tile i).pc = (s.tile i).pc ∧
     ∀ m, m ≠ i → (tileFault i code info s).tile m = s.tile m)

/-- Device memory's commands: a patrol read of a beat without error only moves the patrol on, within its stack; a
keyed fence command fences the stack it names; the error counts are given and cleared; a stack that has cooled for 10
ms is no longer hot. -/
def Obligations.MemoryCommands : Prop :=
  (∀ (k : Fin 4) (s : State), s.on (domMEM k) = true → s.pwr.dstate = .d0 → s.dramHeld k = false →
    s.beat (k * stackBytes + (s.stack k).patrol) = none →
    exec (.patrolRead k none) s
      = .next (s.setStack k { s.stack k with patrol := ((s.stack k).patrol + 8) % stackBytes })) ∧
  (∀ (q : Requester) (k : Fin 4) (v : BitVec 32) (s : State), access q (.blk (baseMEM + 0x80)) true s = .go →
    keyed v = true → fld v 0 4 = 2 ^ k.val → exec (.memFenceCmd q v) s = .next (fence k causeCommand s)) ∧
  (∀ (q : Requester) (k : Fin 4) (s : State), access q (.blk (baseMEM + 0x50 + 4 * k)) false s = .go →
    exec (.memCeRead q k) s
      = .next { s.setStack k { s.stack k with ce := 0 } with rdata := (s.stack k).ce.zeroExtend 64 }) ∧
  (∀ (q : Requester) (k : Fin 4) (s : State), access q (.blk (baseMEM + 0x60 + 4 * k)) false s = .go →
    exec (.memUeRead q k) s
      = .next { s.setStack k { s.stack k with ue := 0 } with rdata := (s.stack k).ue.zeroExtend 64 }) ∧
  (∀ (k : Fin 4) (s : State), (s.stack k).hot = true → 100 ≤ (s.stack k).cool →
    exec (.stackCool k) s = .next (rescaleStack k (s.setStack k { s.stack k with hot := false, cool := 0 })))

/-! ## Tile instructions (10, 11) -/

/-- The register instructions with fn = 0: g[rd] takes the result of g[rs1] and g[rs2] modulo 2^36, the pc moves by
one, the watchdog restarts, and nothing else changes; g0 reads 0 and keeps nothing. Shift counts are bits [5:0] of
g[rs2]. The immediate instructions: ADDI sign-extends, ANDI, ORI and XORI zero-extend, a shift takes 0 to 63, LUI
multiplies its 25 bits by 2^11; NOP does nothing but move the pc. Register 0 reads 0 and a write to it changes
nothing; a write to another register is read back and leaves every other register as it was. -/
def Obligations.TileArithmetic : Prop :=
  (∀ (i : Fin 1024) (w : Word) (s : State), wFn w = 0 →
     let x := s.tile i
     let a := x.reg (wRs1 w)
     let b := x.reg (wRs2 w)
     (s.Runs i 0x01 w → exec (.add i) s = .next (s.advance i (x.setReg (wRd w) (a + b)))) ∧
     (s.Runs i 0x02 w → exec (.sub i) s = .next (s.advance i (x.setReg (wRd w) (a - b)))) ∧
     (s.Runs i 0x03 w → exec (.and i) s = .next (s.advance i (x.setReg (wRd w) (a &&& b)))) ∧
     (s.Runs i 0x04 w → exec (.or i) s = .next (s.advance i (x.setReg (wRd w) (a ||| b)))) ∧
     (s.Runs i 0x05 w → exec (.xor i) s = .next (s.advance i (x.setReg (wRd w) (a ^^^ b)))) ∧
     (s.Runs i 0x06 w → exec (.sll i) s = .next (s.advance i (x.setReg (wRd w) (a <<< (b.toNat % 64))))) ∧
     (s.Runs i 0x07 w → exec (.srl i) s = .next (s.advance i (x.setReg (wRd w) (a >>> (b.toNat % 64))))) ∧
     (s.Runs i 0x08 w → exec (.sra i) s = .next (s.advance i (x.setReg (wRd w) (a.sshiftRight (b.toNat % 64))))) ∧
     (s.Runs i 0x09 w → exec (.mul i) s = .next (s.advance i (x.setReg (wRd w) (BitVec.ofNat 36 (a.toNat * b.toNat))))) ∧
     (s.Runs i 0x0A w → exec (.slt i) s = .next (s.advance i (x.setReg (wRd w) (if a.toInt < b.toInt then 1 else 0)))) ∧
     (s.Runs i 0x0B w → exec (.sltu i) s = .next (s.advance i (x.setReg (wRd w) (if a.toNat < b.toNat then 1 else 0))))) ∧
  (∀ (i : Fin 1024) (w : Word) (s : State),
     let x := s.tile i
     let a := x.reg (wRs1 w)
     let simm : Word := (w.extractLsb' 0 20).signExtend 36
     let uimm : Word := (w.extractLsb' 0 20).zeroExtend 36
     (s.Runs i 0x0C w → exec (.addi i) s = .next (s.advance i (x.setReg (wRd w) (a + simm)))) ∧
     (s.Runs i 0x0D w → exec (.andi i) s = .next (s.advance i (x.setReg (wRd w) (a &&& uimm)))) ∧
     (s.Runs i 0x0E w → exec (.ori i) s = .next (s.advance i (x.setReg (wRd w) (a ||| uimm)))) ∧
     (s.Runs i 0x0F w → exec (.xori i) s = .next (s.advance i (x.setReg (wRd w) (a ^^^ uimm)))) ∧
     (s.Runs i 0x10 w → wImm w ≤ 63 → exec (.slli i) s = .next (s.advance i (x.setReg (wRd w) (a <<< wImm w)))) ∧
     (s.Runs i 0x11 w → wImm w ≤ 63 → exec (.srli i) s = .next (s.advance i (x.setReg (wRd w) (a >>> wImm w)))) ∧
     (s.Runs i 0x12 w → wImm w ≤ 63 → exec (.srai i) s = .next (s.advance i (x.setReg (wRd w) (a.sshiftRight (wImm w))))) ∧
     (s.Runs i 0x13 w → exec (.lui i) s
       = .next (s.advance i (x.setReg (wRd w) (BitVec.ofNat 36 (w.toNat % 2 ^ 25 * 2 ^ 11))))) ∧
     (s.Runs i 0x3F w → exec (.nopTile i) s = .next (s.advance i x))) ∧
  (∀ (x : Tile) (n m : Nat) (v : Word), x.reg 0 = 0 ∧ x.setReg 0 v = x ∧
     (n ≠ 0 → (x.setReg n v).reg n = v) ∧ (m ≠ n → (x.setReg n v).reg m = x.reg m))

/-- An opcode of 0, a nonzero fn of a register instruction, and a shift by more than 63 stop the tile with fault 0x10
or 0x11 at its pc, which does not move. A scratchpad access outside its 262,144 nonets, or one that is not aligned as
its instruction needs, stops the tile with fault 0x12 or 0x13, and the scratchpad is not touched by it. -/
def Obligations.TileIllegalAndFaulting : Prop :=
  (∀ (i : Fin 1024) (w : Word) (s : State),
     (s.Runs i 0x00 w → exec (.illegalOpcode i) s = .next (tileFault i 0x10 (s.tile i).pc.toNat s)) ∧
     (wFn w ≠ 0 →
       (s.Runs i 0x01 w → exec (.add i) s = .next (tileFault i 0x11 (s.tile i).pc.toNat s)) ∧
       (s.Runs i 0x09 w → exec (.mul i) s = .next (tileFault i 0x11 (s.tile i).pc.toNat s)) ∧
       (s.Runs i 0x0B w → exec (.sltu i) s = .next (tileFault i 0x11 (s.tile i).pc.toNat s))) ∧
     (63 < wImm w →
       (s.Runs i 0x10 w → exec (.slli i) s = .next (tileFault i 0x11 (s.tile i).pc.toNat s)) ∧
       (s.Runs i 0x12 w → exec (.srai i) s = .next (tileFault i 0x11 (s.tile i).pc.toNat s)))) ∧
  (∀ (i : Fin 1024) (w : Word) (s : State),
     let x := s.tile i
     let a := (x.reg (wRs1 w) + (w.extractLsb' 0 20).signExtend 36).toNat
     (262144 < a + 1 → s.Runs i 0x14 w → exec (.ldn i) s = .next (tileFault i 0x12 x.pc.toNat s)) ∧
     (262144 < a + 4 → s.Runs i 0x18 w → exec (.stw i) s = .next (tileFault i 0x12 x.pc.toNat s)) ∧
     (a + 4 ≤ 262144 → a % 4 ≠ 0 → s.Runs i 0x16 w → exec (.ldw i) s = .next (tileFault i 0x13 x.pc.toNat s)) ∧
     (a + 4 ≤ 262144 → a % 4 ≠ 0 → s.Runs i 0x18 w → exec (.stw i) s = .next (tileFault i 0x13 x.pc.toNat s)))

/-- Scratchpad loads and stores at g[rs1] + imm, with an access that neither faults nor waits. -/
def Obligations.TileLoadsAndStores : Prop :=
  ∀ (i : Fin 1024) (w : Word) (s : State),
    let x := s.tile i
    let a := (x.reg (wRs1 w) + (w.extractLsb' 0 20).signExtend 36).toNat
    (s.Runs i 0x14 w → x.Allows [{ write := false, addr := a, n := 1 }] →
      exec (.ldn i) s = .next (s.advance i (x.setReg (wRd w) ((x.scr.find 0 a).signExtend 36)))) ∧
    (s.Runs i 0x15 w → x.Allows [{ write := false, addr := a, n := 1 }] →
      exec (.ldnu i) s = .next (s.advance i (x.setReg (wRd w) ((x.scr.find 0 a).zeroExtend 36)))) ∧
    (s.Runs i 0x16 w → x.Allows [{ write := false, addr := a, n := 4, align := 4 }] →
      exec (.ldw i) s = .next (s.advance i (x.setReg (wRd w) (wordOf (x.scratch a 4))))) ∧
    (s.Runs i 0x17 w → x.Allows [{ write := true, addr := a, n := 1 }] →
      exec (.stn i) s = .next (s.advance i (x.setScratch a [(x.reg (wRd w)).extractLsb' 0 9]))) ∧
    (s.Runs i 0x18 w → x.Allows [{ write := true, addr := a, n := 4, align := 4 }] →
      exec (.stw i) s = .next (s.advance i (x.setScratch a (wordNonets (x.reg (wRd w))))))

/-- Branches and jumps: the branch is taken to pc + imm exactly when its comparison holds, and the pc moves by one
otherwise; JAL and JR write pc + 1 to g[rd] and jump; the target of each jump taken here lies in the instruction
memory. -/
def Obligations.TileBranches : Prop :=
  ∀ (i : Fin 1024) (w : Word) (s : State),
    let x := s.tile i
    let a := x.reg (wB1 w)
    let b := x.reg (wB2 w)
    let t : Int := x.pc.toNat + ((w.extractLsb' 0 20).signExtend 36 : Word).toInt
    let go (y : Tile) (n : Nat) : State := s.setTile i { y with pc := BitVec.ofNat 14 n, wdog := 0 }
    (0 ≤ t → t ≤ 16383 →
      (s.Runs i 0x19 w → exec (.beq i) s = .next (if a = b then go x t.toNat else s.advance i x)) ∧
      (s.Runs i 0x1A w → exec (.bne i) s = .next (if a ≠ b then go x t.toNat else s.advance i x)) ∧
      (s.Runs i 0x1B w → exec (.blt i) s = .next (if a.toInt < b.toInt then go x t.toNat else s.advance i x)) ∧
      (s.Runs i 0x1C w → exec (.bge i) s = .next (if b.toInt ≤ a.toInt then go x t.toNat else s.advance i x)) ∧
      (s.Runs i 0x1D w → exec (.bltu i) s = .next (if a.toNat < b.toNat then go x t.toNat else s.advance i x)) ∧
      (s.Runs i 0x1E w → exec (.bgeu i) s = .next (if b.toNat ≤ a.toNat then go x t.toNat else s.advance i x)) ∧
      (s.Runs i 0x1F w → wRs1 w = 0 → exec (.jal i) s
        = .next (go (x.setReg (wRd w) (BitVec.ofNat 36 (x.pc.toNat + 1))) t.toNat))) ∧
    (∀ n : Nat, (x.reg (wRs1 w) + (w.extractLsb' 0 20).signExtend 36).toNat = n → n ≤ 16383 → s.Runs i 0x20 w →
      exec (.jr i) s = .next (go (x.setReg (wRd w) (BitVec.ofNat 36 (x.pc.toNat + 1))) n))

/-- The vector instructions, in a format they take and with accesses allowed: a load or store of 64 nonets; the
element-wise sum, difference and product, each stored once by the format's rounding, with the number that saturated
counted in the instruction's slot; the larger and smaller; the broadcast; the mask. VCVT between a legal pair of
formats converts 16 elements of its part, leaves the other elements of the target as they were, and counts the
elements that saturated. -/
def Obligations.TileVectors : Prop :=
  (∀ (i : Fin 1024) (w : Word) (f : Fmt) (s : State),
     let x := s.tile i
     let a := (x.reg (wVrs w)).toNat
     let arith (op : Val → Val → Val) : State :=
       let rs := List.zipWith (fun c d => f.store (wVrnd w) (op (f.value c) (f.value d)))
         (x.codes f (wVs1 w)) (x.codes f (wVs2 w))
       countSat i (wVslot w) (rs.countP (·.2)) (s.advance i (x.setVec (wVd w) (f.nonets (rs.map (·.1)))))
     let picked (larger : Bool) : State := s.advance i (x.setVec (wVd w)
       (f.nonets (List.zipWith (pick f larger) (x.codes f (wVs1 w)) (x.codes f (wVs2 w)))))
     (s.Runs i 0x21 w → wVfn w = 0 → x.Allows [{ write := false, addr := a, n := 64, align := 8 }] →
       exec (.vld i) s = .next (s.advance i (x.setVec (wVd w) (x.scratch a 64)))) ∧
     (s.Runs i 0x22 w → wVfn w = 0 → x.Allows [{ write := true, addr := a, n := 64, align := 8 }] →
       exec (.vst i) s = .next (s.advance i (x.setScratch a (x.vec (wVs1 w))))) ∧
     (vecFmt w = some f →
       (s.Runs i 0x23 w → exec (.vadd i) s = .next (arith Val.add)) ∧
       (s.Runs i 0x24 w → exec (.vsub i) s = .next (arith (fun c d => Val.add c d.neg))) ∧
       (s.Runs i 0x25 w → exec (.vmul i) s = .next (arith Val.mul)) ∧
       (s.Runs i 0x26 w → exec (.vmax i) s = .next (picked true)) ∧
       (s.Runs i 0x27 w → exec (.vmin i) s = .next (picked false)) ∧
       (s.Runs i 0x28 w → exec (.vbc i) s = .next (s.advance i (x.setVec (wVd w)
         (f.nonets (List.replicate f.elements (a % 2 ^ f.bits)))))) ∧
       (s.Runs i 0x29 w → wVsub w = 0 → exec (.vred i) s =
         (let r := f.store (wVrnd w) (Val.sum ((x.codes f (wVs1 w)).map f.value))
         .next (countSat i (wVslot w) (if r.2 then 1 else 0)
           (s.advance i (x.setReg (wVrs w) (BitVec.ofNat 36 r.1)))))) ∧
       (s.Runs i 0x2A w → exec (.vmsk i) s = .next (s.advance i (x.setVec (wVd w) (f.nonets
         ((x.codes f (wVs1 w)).mapIdx (fun e c =>
           if 32 * (wVsub w % 2) ≤ e ∧ e ≤ 32 * (wVsub w % 2) + 31 ∧ !bit (x.reg (wVrs w)) (e - 32 * (wVsub w % 2))
           then f.lowest else c)))))))) ∧
  (∀ (i : Fin 1024) (w : Word) (src tgt : Fmt) (s : State), s.Runs i 0x2B w → Fmt.ofCode (wVs2 w) = some src →
     Fmt.ofCode (wVfmt w) = some tgt → tilePair src tgt = true →
     (wVsub w % 4 < 2 ∨ (src.elements ≠ 32 ∧ tgt.elements ≠ 32)) →
     let x := s.tile i
     let p := wVsub w % 4
     let rs := (List.range 16).map (fun e => convertCode src tgt (wVrnd w) (wVovf w)
       (src.element (x.vec (wVs1 w)) ((if src.elements > 16 then 16 * p else 0) + e)))
     exec (.vcvt i) s = .next (countSat i (wVslot w) (rs.countP (·.2)) (s.advance i (x.setVec (wVd w)
       (spliceElements tgt (x.vec (wVd w)) (if tgt.elements > 16 then 16 * p else 0) (rs.map (·.1)))))))

/-- The matrix instructions, with legal rows and accesses allowed: a bank of 1,024 weights; rows of exact sums of
products added to the accumulator with its saturation counted in slot 15 and one handshake a row; a column of
outliers; an accumulator of zeros; rows loaded and stored. An accumulator element takes its old value, or 0, plus the
exact sum, limited to S36; it saturates exactly when the exact result does not fit. -/
def Obligations.TileMatrix : Prop :=
  (∀ (i : Fin 1024) (w : Word) (s : State),
     let x := s.tile i
     let a := (x.reg (wM1 w)).toNat
     let n := wRows w
     (s.Runs i 0x2C w → wM2 w = 0 → wMfn w ≤ 1 → x.Allows [{ write := false, addr := a, n := 1024, align := 64 }] →
       exec (.wld i) s = .next (s.advance i { x with w := x.w.putAll 0 (1024 * wMfn w) (x.scratch a 1024) })) ∧
     (s.Runs i 0x2D w → wM2 w = 0 → wR0 w + n ≤ 32 → x.Allows [{ write := false, addr := a, n := 32 * n, align := 8 }] →
       exec (.mma i) s =
         (let out := forRows n (fun r y => addRow (wAd w) (bit w 0) (wR0 w + r)
           ((List.range 32).map (fun j => dot (inputRow w x r)
             ((List.range 32).map (fun k => x.weight (fld w 1 1) k j)))) y) x
         .next (countSat i 15 out.2 (s.advance i { out.1 with pace := x.pace + BitVec.ofNat 48 n })))) ∧
     (s.Runs i 0x2E w → wMfn w % 4 = 0 → wR0 w + n ≤ 32 →
       x.Allows [{ write := false, addr := a, n := 32 * n, align := 8 },
         { write := false, addr := fld (x.reg (wM2 w)) 0 18, n := 64, align := 64 }] →
       exec (.oma i) s =
         (let ws := (List.range 32).map (fun k =>
           (BitVec.ofNat 18 (Fmt.s18.element (x.scratch (fld (x.reg (wM2 w)) 0 18) 64) k)).toInt)
         let out := forRows n (fun r y => addRow (wAd w) false (wR0 w + r)
           ((List.range 32).map (fun c => if c = fld (x.reg (wM2 w)) 18 5 then dot (inputRow w x r) ws else 0)) y) x
         .next (countSat i 15 out.2 (s.advance i out.1)))) ∧
     (s.Runs i 0x2F w → wM1 w = 0 → wM2 w = 0 → wMfn w = 0 →
       exec (.azr i) s = .next (s.advance i { x with acc := x.acc.filter (fun e => e.1 / 1024 != wAd w) })) ∧
     (s.Runs i 0x30 w → wR0 w + n ≤ 32 → x.Allows [{ write := false, addr := a, n := 128 * n, align := 4 }] →
       exec (.ald i) s = .next (s.advance i (forRows n (fun r y => (y.setAccRow (wAd w) (wR0 w + r)
         ((List.range 32).map (fun j => x.scratchWord (a + 128 * r + 4 * j))), 0)) x).1)) ∧
     (s.Runs i 0x31 w → wR0 w + n ≤ 32 → x.Allows [{ write := true, addr := a, n := 128 * n, align := 4 }] →
       exec (.ast i) s = .next (s.advance i (forRows n (fun r y => (y.setScratch (a + 128 * r)
         (wordsNonets (x.accRow (wAd w) (wR0 w + r))), 0)) x).1))) ∧
  (∀ v : Int, (sat36 v).1.toInt = max (-34359738368) (min 34359738367 v) ∧
     ((sat36 v).2 = true ↔ v < -34359738368 ∨ 34359738367 < v))

/-- QNT, with a legal format and parameters and accesses allowed: each row's accumulators are rescaled, converted and
written at their stride, and the elements that saturated are counted in its slot. -/
def Obligations.TileQuantise : Prop :=
  ∀ (i : Fin 1024) (w : Word) (f : Fmt) (stride : Nat) (s : State), s.Runs i 0x32 w →
    Fmt.ofCode (fld w 14 4) = some f → qntStride f = some stride → bit w 13 = false →
    let x := s.tile i
    let n := fld w 2 5 + 1
    let out := (x.reg (wM1 w)).toNat
    let pb := (x.reg (wM2 w)).toNat
    x.Allows [{ write := false, addr := pb, n := 192, align := 64 }, { write := true, addr := out, n := stride * n }] →
    let p := x.scratch pb 192
    let res := forRows n (fun r y =>
      let cs := List.zipWith (fun (a : Word) j => f.convert (bit w 12) (bit w 11)
          (rescaleFloat a (p.getD j 0) (Fmt.f36.element (p.drop 32) 0) (Fmt.f36.element (p.drop 64) j)))
        (x.accRow (wAd w) r) (List.range 32)
      (y.setScratch (out + stride * r) (f.nonets (cs.map (·.1) ++ (if f = .s4 then [0, 0, 0, 0] else []))),
        cs.countP (·.2))) x
    exec (.qnt i) s = .next (countSat i (fld w 7 4) res.2 (s.advance i res.1))

/-- Transfers of device lines: DLD and DST start one, DWT ends when no more than imm are outstanding, and a transfer
completes whole where every line can be read or written and no claim or request holds it back. -/
def Obligations.TileTransfers : Prop :=
  (∀ (i : Fin 1024) (w : Word) (s : State),
    let x := s.tile i
    let n := wFn w + 1
    let dl := (x.reg (wRs1 w)).toNat
    let sl := (x.reg (wRs2 w)).toNat
    let xf (store : Bool) : Xfer := { store := store, dline := dl, sline := sl, lines := n, pc := x.pc
                                      tenant := s.tenantOf i, job := x.job.getD 0 }
    wRd w = 0 → wFn w < 256 → sl + n ≤ 4096 → 72 * (dl + n) ≤ 2 ^ 40 → x.xfers.length < 8 →
    (s.Runs i 0x33 w → x.Allows [{ write := true, addr := 64 * sl, n := 64 * n }] →
      exec (.dld i) s = .next (s.advance i { x with xfers := x.xfers ++ [xf false] })) ∧
    (s.Runs i 0x34 w → x.Allows [{ write := false, addr := 64 * sl, n := 64 * n }] →
      exec (.dst i) s = .next (s.advance i { x with xfers := x.xfers ++ [xf true] }))) ∧
  (∀ (i : Fin 1024) (w : Word) (s : State), s.Runs i 0x35 w → wImm w ≤ 7 → wRd w = 0 → wRs1 w = 0 →
    exec (.dwt i) s = .next (if (s.tile i).xfers.length ≤ wImm w then s.advance i (s.tile i) else s)) ∧
  (∀ (i : Fin 1024) (n : Fin 8) (t : Xfer) (u : State) (s : State), (s.tile i).xfers[n.val]? = some t →
    s.requestsDue t = false → s.claimedIn t.tenant (72 * t.dline) (72 * t.lines) = false →
    (if t.store then moveOut i t t.lines 0 (s.setTile i { s.tile i with xfers := (s.tile i).xfers.eraseIdx n })
      else moveIn i t t.lines 0 (s.setTile i { s.tile i with xfers := (s.tile i).xfers.eraseIdx n })) = (.all, u) →
    exec (.transferComplete i n [] []) s = .next u)

/-- Messages: SEND puts its message in the mesh and waits; SEND_DONE, once the last lane has left or the path was
choked, writes 0 or 1 and moves on; RECV gives the address of the oldest header, MBPOP releases it, MBCFG configures and
MBSTAT gives prod − cons; a message whose header has arrived is written whole into its mailbox where it has room. The
fence: a message whose tag is not its destination tile's, or whose destination has tag 0, never reaches a mailbox; it is
counted and its tag shown. -/
def Obligations.TileMessages : Prop :=
  ((∀ (i : Fin 1024) (w : Word) (m : Msg) (s : State), s.Runs i 0x36 w → sendOut i s w (s.tile i) = .inr m →
     exec (.send i) s = .next { (s.setTile i { s.tile i with
         sending := some (BitVec.ofNat 5 (wRd w)), choked := false, wdog := 0 }) with
       grd := { (s.setTile i { s.tile i with
         sending := some (BitVec.ofNat 5 (wRd w)), choked := false, wdog := 0 }).grd with msgs := s.grd.msgs ++ [m] } }) ∧
   (∀ (i : Fin 1024) (rd : BitVec 5) (s : State), (s.tile i).sending = some rd →
     ((s.tile i).choked = true ∨ s.allLeft i = true) → ∃ t, exec (.sendDone i) s = .next t ∧
     t.tile i = { ((s.tile i).setReg rd.toNat (if (s.tile i).choked then 1 else 0)) with
       sending := none, choked := false, pc := (s.tile i).pc + 1, wdog := 0 } ∧
     t.grd.msgs.length = s.grd.msgs.length) ∧
   (∀ (i : Fin 1024) (w : Word) (s : State), wImm w < 16 → wRs1 w = 0 →
     let x := s.tile i
     let b := x.box (wImm w)
     (s.Runs i 0x37 w → b.size ≠ 0 → b.prod ≠ b.cons → exec (.recv i) s = .next (s.advance i
       (x.setReg (wRd w) (BitVec.ofNat 36 (8 * (b.base.toNat + b.cons.toNat % b.size.toNat)))))) ∧
     (s.Runs i 0x37 w → b.size ≠ 0 → b.prod = b.cons → exec (.recv i) s = .next s) ∧
     (s.Runs i 0x38 w → b.size ≠ 0 → b.prod ≠ b.cons → x.Allows [{ write := false, addr := 8 * b.headLane, n := 8 }] →
       exec (.mbpop i) s = .next (s.advance i (x.setBox (wImm w)
       { b with cons := b.cons + BitVec.ofNat 32 (hdrLength (laneOf (x.scratch (8 * b.headLane) 8)) + 1) }))) ∧
     (s.Runs i 0x3A w → exec (.mbstat i) s
       = .next (s.advance i (x.setReg (wRd w) (BitVec.ofNat 36 (b.prod - b.cons).toNat))))) ∧
   (∀ (i : Fin 1024) (w : Word) (s : State), s.Runs i 0x39 w → wFn w = 0 → wRd w ≤ 15 →
     let x := s.tile i
     let base := (x.reg (wRs1 w)).toNat
     let size := (x.reg (wRs2 w)).toNat
     (x.box (wRd w)).size = 0 → base + size ≤ 32768 →
     (∀ e ∈ x.mbox, e.1 = wRd w ∨ e.2.size = 0 ∨ base + size ≤ e.2.base.toNat ∨
       e.2.base.toNat + e.2.size.toNat ≤ base) →
     exec (.mbcfg i) s = .next (s.advance i (x.setBox (wRd w)
       { base := BitVec.ofNat 15 base, size := BitVec.ofNat 16 size, prod := 0, cons := 0 }))) ∧
   (∀ (m : Nat) (x : Msg) (s : State), s.grd.msgs[m]? = some x → x.outward = false →
     x.arrived = true → (s.grd.msgs.take m).any (Msg.samePair x) = false → (s.tile x.dst).tag ≠ 0 → (s.tile x.dst).tag = x.tag →
     let b := (s.tile x.dst).box x.mailbox.toNat
     b.size ≠ 0 → x.lanes.length + b.used ≤ b.size.toNat →
     exec (.messageAccept m) s = .next ((dropMsg m s).setTile x.dst
       ((writeRing b 0 x.lanes (s.tile x.dst)).setBox x.mailbox.toNat
         { b with prod := b.prod + BitVec.ofNat 32 x.lanes.length })))) ∧
  (∀ (m : Nat) (x : Msg) (s : State), s.grd.msgs[m]? = some x → x.outward = false →
     x.arrived = true → (s.grd.msgs.take m).any (Msg.samePair x) = false → ((s.tile x.dst).tag = 0 ∨ (s.tile x.dst).tag ≠ x.tag) →
     exec (.messageAccept m) s = .next (fenceDiscard x (dropMsg m s)))

/-- BAR, STAMP, SYS and END: a BAR with no transfer outstanding zeroes the vector, accumulator and weight state and
records its declaration; STAMP takes one stamp and writes its 48 bits to an even-odd pair, or waits at the Gong; SYS
reads its tile's number, its tag and its pace; END stops a tile whose job still has a running tile. -/
def Obligations.TileControl : Prop :=
  (∀ (i : Fin 1024) (w : Word) (j : Job) (d : Decl) (s : State), s.Runs i 0x3B w → wImm w < 65536 → wRd w = 0 →
    wRs1 w = 0 → s.jobOf i = some j → j.phase ≠ .preempting → j.man.decls[wImm w]? = some d → (s.tile i).mbox = [] →
    (s.tile i).xfers = [] → ∃ t, exec (.bar i) s = .next t ∧ (t.tile i).v = [] ∧ (t.tile i).acc = [] ∧
      (t.tile i).w = [] ∧ (t.tile i).decl = wImm w ∧ (t.tile i).barTime = 0 ∧ (t.tile i).g = (s.tile i).g ∧
      (t.tile i).running = (s.tile i).running ∧ (t.tile i).pc = (s.tile i).pc + 1 ∧
      (∀ l, d.holds (l / 64) = true → (t.tile i).scr.find 0 l = (s.tile i).scr.find 0 l)) ∧
  (∀ (i : Fin 1024) (w : Word) (s : State), s.Runs i 0x3C w → wRd w % 2 = 0 → 2 ≤ wRd w → wImm w = 0 → wRs1 w = 0 →
    s.atPort (.stamp i) = [] →
    (s.gongFree (gongPort (.stamp i)) = true →
      let u := gongPassed (gongPort (.stamp i)) s
      exec (.stamp i false) s = .next (takeStamp (u.advance i
        (((s.tile i).setReg (wRd w) (s.gng.next.extractLsb' 0 36)).setReg (wRd w + 1)
          ((s.gng.next.extractLsb' 36 12).zeroExtend 36))))) ∧
    exec (.stamp i true) s = .next (gongWait (.stamp i) s)) ∧
  (∀ (i : Fin 1024) (w : Word) (v : Word) (s : State), s.Runs i 0x3D w → wRs1 w = 0 →
    sysValue i s (s.tile i) (wImm w) = some v →
    exec (.sys i) s = .next (s.advance i ((s.tile i).setReg (wRd w) v))) ∧
  (∀ (i : Fin 1024) (w : Word) (j : Job) (s : State), s.Runs i 0x3E w → w.toNat % 2 ^ 30 = 0 → (s.tile i).xfers = [] →
    s.jobOf i = some j →
    (s.setTile i { s.tile i with running := false, ended := true, wdog := 0 }).allEnded j = false →
    exec (.endTile i) s = .next (s.setTile i { s.tile i with running := false, ended := true, wdog := 0 }))

/-! ## Jobs (13) -/

/-- The checks of a descriptor. NOP is answered OK, or its first bad byte with REJECTED_FORMAT; a JOB, or a fenced JOB
at the head of its ring, is checked when the firmware checks: a bad byte, a bad source and a bad auxiliary input
reject it in that order; one that passes every check is admitted. A job that passed the manifest's checks meets the
last checks in their order: its domains, its tiles, its spill region, its bandwidth; one that passes them all is
admitted with the next number, at the end of the list of jobs. -/
def Obligations.DescriptorChecks : Prop :=
  ((∀ (t : Fin 64) (r : Fin 8) (d : Inflight) (s : State), (s.ring t r).unchecked = some d → le d.desc 0 1 = 0 →
     s.firmware (coreOf t) = true →
     (badByte d.seq d.desc = none → exec (.nopDescriptor t r) s = .next (decide1 t r d.seq (.decided (cpl stOk 0)) s)) ∧
     (∀ b, badByte d.seq d.desc = some b →
       exec (.nopDescriptor t r) s = .next (decide1 t r d.seq (.decided (cpl stFormat b)) s))) ∧
   (∀ (t : Fin 64) (r : Fin 8) (hdr : List Byte) (d : Inflight) (s : State), (s.ring t r).unchecked = some d →
     le d.desc 0 1 ≠ 0 → fenced d.desc = false → (s.ring t r).clearBefore d.seq = true → s.checking t = true →
     s.checkWaits t d.desc = false →
     exec (.job t r hdr) s = .next (checkJob t r d hdr s)) ∧
   (∀ (t : Fin 64) (r : Fin 8) (hdr : List Byte) (d : Inflight) (rest : List Inflight) (s : State),
     (s.ring t r).inflight = d :: rest → d.st = .fetched → le d.desc 0 1 ≠ 0 → fenced d.desc = true →
     s.checking t = true → s.checkWaits t d.desc = false → exec (.fencedAdmit t r hdr) s = .next (checkJob t r d hdr s)) ∧
   (∀ (t r : Nat) (d : Inflight) (hdr : List Byte) (b : Nat) (s : State), badByte d.seq d.desc = some b →
     checkJob t r d hdr s = decide1 t r d.seq (.decided (cpl stFormat b)) s) ∧
   (∀ (t r : Nat) (d : Inflight) (hdr : List Byte) (c : Cpl) (s : State), badByte d.seq d.desc = none →
     s.tagReads t d.desc = [] → s.sourceCheck t d.desc hdr = .inl c →
     checkJob t r d hdr s
       = decide1 t r d.seq (.decided c) (emitReads t (dInAddr d.desc) (s.headerBytes t d.desc) s)) ∧
   (∀ (t r : Nat) (d : Inflight) (hdr : List Byte) (m : Option Dims) (c : Cpl) (s : State),
     badByte d.seq d.desc = none → s.tagReads t d.desc = [] → s.sourceCheck t d.desc hdr = .inr m →
     let u := countLookup d.desc (emitReads t (dInAddr d.desc) (s.headerBytes t d.desc) s)
     u.auxCheck t d.desc m = some c → checkJob t r d hdr s = decide1 t r d.seq (.decided c) u) ∧
   (∀ (t r : Nat) (d : Inflight) (hdr : List Byte) (m : Option Dims) (s : State),
     badByte d.seq d.desc = none → s.tagReads t d.desc = [] → s.sourceCheck t d.desc hdr = .inr m →
     let u := countLookup d.desc (emitReads t (dInAddr d.desc) (s.headerBytes t d.desc) s)
     u.auxCheck t d.desc m = none → checkJob t r d hdr s = manifestChecks t r d m u)) ∧
  (∀ (j : Job) (s u : State),
     (∀ c, s.domainCheck j.tenant j.desc j.man = some c → lateChecks j s = rejectJob j c s) ∧
     (s.domainCheck j.tenant j.desc j.man = none →
       (∀ c, s.tileCheck j.tenant j.man = some c → lateChecks j s = rejectJob j c s) ∧
       (s.tileCheck j.tenant j.man = none →
         readChecks schBlock j.tenant j.ring { seq := j.seq, desc := j.desc, st := .fetched } j.man.chanReads s = (true, u) →
         u.tooManyOutliers j.tenant j.man = false →
         ((j.man.spans = false → (u.spillRun j.tenant j.man.spill).isSome = true) →
           (u.bandwidthExcess j.tenant j.man.bw = 0 → lateChecks j s = admitJob j u) ∧
           (u.bandwidthExcess j.tenant j.man.bw ≠ 0 → lateChecks j s = rejectJob j (cpl stBandwidth
             (min 65535 (ceilDiv (u.bandwidthExcess j.tenant j.man.bw) 1000))) u)))) ∧
     (admitJob j s).sch.jobs.length = s.sch.jobs.length + 1 ∧ (admitJob j s).sch.nextJob = s.sch.nextJob + 1)

/-- The scheduler's commands on a job, each in the phase it acts in. Output stage 1: the output tensor is converted and
issued as the write of its first out_len bytes, in order, and its bytes and its saturations are counted in the job. A
job ends once: its completion, once decided, is kept by everything that would decide it again. -/
def Obligations.SchedulerCommands : Prop :=
  ((∀ (id o : Nat) (j : Job) (s : State), s.order = [id] → s.job? id = some j → j.queued = true →
     s.placing j.tenant = true → s.heldBack j = false → j.kept = none → j.phase = .waiting →
     j.find (s.tileFree id) = some o → exec .jobPlace s = .next (startJob id o s)) ∧
   (∀ (id : Nat) (j : Job) (p : Nat) (s : State), s.job? id = some j → j.queued = true → j.passedAt = some p →
     p + 2500000 ≤ s.now → exec (.starveTimeout id) s = .next (s.modJob id (fun x => { x with starving := true }))) ∧
   (∀ (k id o : Nat) (j : Job) (s : State), s.job? k = some j → s.sliceClaim j = some (id, o) →
     exec (.sliceExpire k) s = .next (chooseVictims id o s)) ∧
   (∀ (id : Nat) (j : Job) (s : State), s.job? id = some j → j.phase = .preempting → s.quiet j = true →
     j.tiles.any (fun i => (s.tile i).atBar) = true →
     exec (.spillStart id) s = .next (s.modJob id (fun j => { j with phase := .spilling }))) ∧
   (∀ (id : Nat) (j : Job) (s : State), s.job? id = some j → j.phase = .spilling →
     s.claimedIn j.tenant (s.spillAddr j.tenant j.spillFirst) (72 * j.spillLines) = false →
     (∀ i ∈ j.tiles, (s.tile i).spillParity j.man.decls = none) →
     exec (.spillComplete id) s = .next ((forEach j.tiles
       (fun i s => s.setTile i { exclude := (s.tile i).exclude, recent := (s.tile i).recent, lastJob := some id })
       (chargeJob id (forEach (List.range j.count) (spillTile j) s))).modJob id
         (fun k => { k with
           phase := .spilled, keptFor := none, passedAt := none
           satSeen := k.satSeen || j.tiles.any (fun i => !(s.tile i).sat.isEmpty)
           satKept := j.tiles.map (fun i => (s.tile i).satWin) }))) ∧
   (∀ (id : Nat) (j : Job) (u : State) (s : State), s.job? id = some j → j.phase = .spilled → j.kept = some j.origin →
     j.tiles.all (s.tileFree id) = true → s.placing j.tenant = true →
     s.claimedAny j.tenant (j.programs ++ s.slotRegions j) = false →
     readRegions schBlock id j.tenant (j.programs ++ s.slotRegions j) (powerQuadrants j.tiles s) = (true, u) →
     exec (.jobRestore id) s = .next ((forEach (List.range j.count) (fun o s =>
         s.setTile (j.tiles.getD o 0) (restoredTile s j o (s.programWords j o) (s.tile (j.tiles.getD o 0)))) u).modJob id
       (fun j => { j with phase := .running, kept := none, passedAt := none, starving := false, ran := 0 }))) ∧
   (∀ (i : Fin 1024) (j : Nat) (s : State), (s.tile i).job = some j → (s.tile i).running = true →
     500 * (s.tile i).interval ≤ (s.tile i).barTime →
     exec (.barTimeout i) s = .next (fireJob { detector := 0x05, level := lvlJob, location := i
                                               info0 := (s.tile i).interval, info1 := (s.tile i).pc.toNat } j s)) ∧
   (∀ (id : Nat) (j : Job) (s : State), s.job? id = some j → j.phase = .output → j.stageDue = false → j.pictures = 0 →
     exec (.jobComplete id) s = .next (finishJob id stOk 0 s)) ∧
   (∀ s : State, s.on domMGT = true → exec .usedUpdate s = .next (forEach (s.sch.jobs.map (·.id)) chargeJob s)) ∧
   (∀ (q : Requester) (t : Fin 64) (s : State), access q (.blk (baseSCH t + 0x18)) false s = .go →
     exec (.usedRead q t) s = .next { s.setSchTen t { s.schTen t with usedHi := (s.schTen t).used.extractLsb' 32 32 } with
       rdata := ((s.schTen t).used.extractLsb' 0 32).zeroExtend 64 })) ∧
  (∀ (id : Nat) (j : Job) (c h : Fmt) (u : State) (s : State), s.job? id = some j → j.phase = .output →
     j.man.outStage = 1 → j.stageDue = true → s.linkOk j.tenant = true →
     s.claimedIn j.tenant j.man.outRegion j.man.outBytes = false →
     readRegions schBlock id j.tenant [(j.man.outRegion, j.man.outBytes)] s = (true, u) →
     Fmt.ofCode j.man.outCardFmt = some c → Fmt.ofCode (dOutFmt j.desc) = some h →
     let bs := (u.readTen j.tenant j.man.outRegion j.man.outBytes).getD []
     let o := outputBytes c h (dOutWide j.desc) (dZero j.desc) ((List.range j.man.outNonets).map (packedNonet bs))
     exec (.outputStageCopy id) s = .next ((writeOutput j 0 o.1 u).modJob id (fun j => { j with
       stageDue := false, outBytes := o.1.length, outSat := o.2 }))) ∧
  (∀ (id : Nat) (j : Job) (st : BitVec 8) (d : Nat) (s : State), s.job? id = some j → j.result.isSome = true →
     finishJob id st d s = s)

/-! ## Woodblock (14) -/

/-- Time and position. The time counter's wrap is event 84; a read of WBK_TIME_LO latches the high part; inputs that a
filter with N = 0 passes at once, and that no other filter has anything to do with, count one edge up or down where they
move one place in 00, 10, 11, 01, and one error with its event where they move two, enabled or not; inputs that no
filter passes at once only take their levels; a read of POSq_ERR clears its count; a write of POSq sets the counter and
matches nothing. -/
def Obligations.TimeAndPosition : Prop :=
  (∀ s : State, s.on domMGT = true → s.wbk.time = BitVec.allOnes 40 →
    exec .timeWrap s = .next (raise 84 { s with wbk := { s.wbk with
      time := 0, wrap := s.wbk.wrap + 1, ch := s.wbk.ch.update {} (fun _ x => { x with matched := false }) } })) ∧
  (∀ (q : Requester) (s : State), access q (.blk 0x700000) false s = .go →
    exec (.wbkTimeRead q) s = .next { s with
      rdata := (s.wbk.time.extractLsb' 0 32).zeroExtend 64
      wbk := { s.wbk with timeHi := s.wbk.time.extractLsb' 32 8 } }) ∧
  (∀ (p : Fin 4) (a b : Bool) (s : State),
    let u : State := { s with wbk := { s.wbk with
      pins := setBit (setBit s.wbk.pins (16 + 2 * p) a) (17 + 2 * p) b } }
    let x := s.pos p
    let y : Pos := { x with a := a, b := b, na := 0, nb := 0 }
    let moved := (quadIndex a b + 4 - quadIndex x.a x.b) % 4
    u.captureDue true = [] →
    (u.posDue true = [] → exec (.posCount p a b) s = .next u) ∧
    (u.posDue true = [p.val] → s.on domMGT = true → x.filt = 0 →
      (moved = 2 → exec (.posCount p a b) s = .next (raise (80 + p) (u.setPos p { y with err := satInc x.err }))) ∧
      (moved ≠ 2 → x.enable = false → exec (.posCount p a b) s = .next (u.setPos p y)) ∧
      (∀ v : BitVec 32, x.enable = true →
        (v = x.val + 1 ∧ moved = 1 ∧ x.invert = false ∨ v = x.val + 1 ∧ moved = 3 ∧ x.invert = true ∨
          v = x.val - 1 ∧ moved = 3 ∧ x.invert = false ∨ v = x.val - 1 ∧ moved = 1 ∧ x.invert = true) →
        (∀ up : Bool, s.positionMatches p v up = []) →
        exec (.posCount p a b) s = .next (u.setPos p { y with val := v })))) ∧
  (∀ (q : Requester) (p : Fin 4) (s : State), access q (.blk (basePOS p + 0xC)) false s = .go →
    exec (.posErrRead q p) s = .next { s.setPos p { s.pos p with err := 0 } with
      rdata := ((s.pos p).err.zeroExtend 32).zeroExtend 64 }) ∧
  (∀ (q : Requester) (p : Fin 4) (v : BitVec 32) (s : State), access q (.blk (basePOS p + 4)) true s = .go →
    exec (.posSet q p v) s = .next (s.setPos p { s.pos p with val := v }))

/-- Channels. A write of CHk_CTL that leaves the channel disarmed takes its fields; an armed channel keeps its shape and
a write that would change it is one error; a write of CMP takes effect at once and is refused to PF0 on an owned
channel; an armed time-base compare fires when the counter equals CMP; an output that another driver brings to the other
level is seen at some level, which is open (log 135); a pin that takes a level passes a filter with N = 0 at once, and
every (presc + 1)-th counted edge of the channel that watches it is captured, with its event, and with
its overrun's when the last capture was not read; a read of CAP_LO latches the high part; a pulse ends low. A match: a
step that is not 0 is added to CMP, in a time base modulo 2^40 (the step is STEP, or the pitch read at enable on the
trigger channel of an enabled port); a REMAIN that is not 0 goes down, and the match that takes it from 1 disarms the
channel; WB_OUT takes the channel's action; the match is an event, and the last one a second; the order of two events of
one moment is free (log 130). -/
def Obligations.Channels : Prop :=
  ((∀ (q : Requester) (k : Fin 16) (v : BitVec 32) (s : State), access q (.blk (baseCH k)) true s = .go →
     (q = .fn 0 → s.owned k = false) → (s.chan k).armed = false → bit v 31 = false → fld v 12 3 ≤ 4 → fld v 10 2 ≠ 3 → fld v 5 5 ≤ 27 →
     exec (.channelCtlWrite q k v) s = .next (s.setChan k { s.chan k with
       lport := v.extractLsb' 22 3, outForce := v.extractLsb' 20 2, action := v.extractLsb' 17 3
       edgeDir := v.extractLsb' 15 2, base := v.extractLsb' 12 3, mode := v.extractLsb' 10 2, capSrc := v.extractLsb' 5 5
       armed := false, late := (s.chan k).late && !bit v 30, overrun := (s.chan k).overrun && !bit v 29 })) ∧
   (∀ (q : Requester) (k : Fin 16) (v : BitVec 32) (s : State), access q (.blk (baseCH k)) true s = .go →
     (q = .fn 0 → s.owned k = false) → (s.chan k).armed = true →
     ((s.chan k).mode ≠ v.extractLsb' 10 2 ∨ (s.chan k).base ≠ v.extractLsb' 12 3 ∨
       (s.chan k).edgeDir ≠ v.extractLsb' 15 2 ∨ (s.chan k).capSrc ≠ v.extractLsb' 5 5) →
     exec (.channelCtlWrite q k v) s = .next (regError q (baseCH k) s)) ∧
   (∀ (q : Requester) (k : Fin 16) (high : Bool) (v : BitVec 32) (s : State),
     access q (.blk (baseCH k + if high then 8 else 4)) true s = .go →
     ((q = .fn 0 → s.owned k = false) →
       exec (.cmpWrite q k high v) s = .next (s.setChan k { s.chan k with cmp :=
         (if high then v.extractLsb' 0 8 ++ (s.chan k).cmp.extractLsb' 0 32
          else (s.chan k).cmp.extractLsb' 32 8 ++ v) })) ∧
     (s.owned k = true → q = .fn 0 →
       exec (.cmpWrite q k high v) s = .next (regError q (baseCH k + if high then 8 else 4) s))) ∧
   (∀ (k : Fin 16) (s : State), s.on domMGT = true → (s.chan k).armed = true → (s.chan k).mode = 1 →
     (s.chan k).base = 0 → (s.chan k).cmp = s.wbk.time → (s.chan k).matched = false →
     exec (.timeMatch k) s = .next (matchAndStop k s)) ∧
   (∀ (i : Fin 28) (e : Bool) (s : State),
     let u : State := { s with wbk := { s.wbk with pins := setBit s.wbk.pins i e } }
     (s.drivenOther i e = true →
       ∃ l, exec (.capture i e) s = .next (pinLevels [(i.val, l)] { s with free := s.free + 1 })) ∧
     (∀ k : Fin 16, s.drivenOther i e = false → u.posDue true = [] → u.captureDue true = [k.val] →
       s.on domMGT = true → (s.chan k).capSrc.toNat = i → (s.chan k).seen ≠ e →
       let x : Chan := { s.chan k with seen := e, seenFor := 0 }
       let y : Chan := { x with cap := s.baseValue x, captured := true, overrun := x.overrun || x.captured, edges := 0 }
       (x.counts e = false → exec (.capture i e) s = .next (u.setChan k x)) ∧
       (x.counts e = true → x.edges < x.presc.toNat →
         exec (.capture i e) s = .next (u.setChan k { x with edges := x.edges + 1 })) ∧
       (x.counts e = true → x.presc.toNat ≤ x.edges → x.captured = false →
         exec (.capture i e) s = .next (raise (32 + k) (u.setChan k y))) ∧
       (x.counts e = true → x.presc.toNat ≤ x.edges → x.captured = true →
         exec (.capture i e) s = .next (forEachAny [32 + k.val, 64 + k.val] raise (u.setChan k y))))) ∧
   (∀ (q : Requester) (k : Fin 16) (s : State), access q (.blk (baseCH k + 0x18)) false s = .go →
     exec (.capRead q k) s = .next { s.setChan k { s.chan k with
         capHi := (s.chan k).cap.extractLsb' 32 8, captured := false } with
       rdata := ((s.chan k).cap.extractLsb' 0 32).zeroExtend 64 }) ∧
   (∀ (k : Fin 16) (s : State), (s.chan k).pulse = 1 →
     exec (.pulseEnd k) s = .next (s.setChan k { s.chan k with pulse := 0, level := false }))) ∧
  (∀ (k : Nat) (s : State), (s.chan k).base = 0 → (s.chan k).lport = 0 → (s.chan k).action = 0 →
     let x := s.chan k
     let y := { x with cmp := BitVec.ofNat 40 (x.cmp.toNat + (s.stepOf k).toNat), matched := true
                       remain := x.remain - (if x.remain = 0 then 0 else 1)
                       armed := x.armed && !(x.remain == 1) }
     (x.remain ≠ 1 → matchChannel k s = raise (32 + k) (s.setChan k y)) ∧
     (x.remain = 1 → matchChannel k s = forEachAny [32 + k, 48 + k] raise (s.setChan k y)) ∧
     ((∀ p < 4, (s.port p).enable = false ∨ (s.port p).trigCh ≠ k) → s.stepOf k = x.step))

/-! ## Roll (15) -/

/-- Enable, training and disable. An enable that no check refuses clears the ring, takes the port's reservation and
starts training; one that a check refuses leaves the port disabled with that check's err; training ends
once every used pair has shown 64 consecutive training words while the port's clock is connected, and puts the port in
run, and the end of a training after a relock is nothing else; a training not
ended in time stops the port with err 4 and event 5; a disable stops the port and its followers. The order of the
checks of an enable is the model's choice (log 44). -/
def Obligations.PortEnableAndTraining : Prop :=
  (∀ (q : Requester) (p : Fin 4) (v : BitVec 32) (s : State), access q (.blk (baseROL p)) true s = .go →
    (s.port p).enable = false → bit v 31 = true →
    let x : Port := { s.port p with motion := bit v 30, hostRead := bit v 28 }
    let u := s.setPort p x
    (u.enableErr p x = 0 → exec (.portEnable q p v) s = .next (rescale (s.setPort p { x with
      enable := true, err := 0, state := .train, wr := 0, rd := 0, rdLo := 0
      slot := BitVec.ofNat 32 x.slotBytes, mres := BitVec.ofNat 32 x.mbs, restarts := 0
      pitch := (s.chan x.trigCh).step, parts := u.portParts x, issued := [], refusedSince := false
      q := none, requests := [], moving := false, mfltStop := false, retrain := false, terminated := true }))) ∧
    (u.enableErr p x ≠ 0 → exec (.portEnable q p v) s
      = .next (s.setPort p { x with err := BitVec.ofNat 4 (u.enableErr p x) }))) ∧
  (∀ (p : Fin 4) (pairs : List (List (BitVec 16))) (s : State), (s.port p).enable = true → s.on domFRONT = true →
    bit s.clk.disconnected (9 + p) = false → pairs.length = (s.port p).lanes →
    (∀ ws ∈ pairs, 64 ≤ ws.length ∧ ∀ w ∈ ws.drop (ws.length - 64), w = 0x0F35) →
    ((s.port p).state = .train → ∃ t, exec (.trainingDone p pairs) s = .next t ∧
      (t.port p).state = .run ∧ (t.port p).retrain = false) ∧
    ((s.port p).state ≠ .train →
      exec (.trainingDone p pairs) s = .next (s.setPort p { s.port p with retrain := false }))) ∧
  (∀ (p : Fin 4) (s : State), (s.port p).enable = true → (s.port p).state = .train →
    exec (.trainingTimeout p) s = .next (portStopGroup p 4 (raise (96 + 16 * p + 5) s))) ∧
  (∀ (q : Requester) (p : Fin 4) (s : State), access q (.blk (baseROL p)) true s = .go →
    ((s.port p).enable = true → exec (.portDisable q p) s = .next (stopFollowers p (portOff p 0 s))) ∧
    ((s.port p).enable = false → exec (.portDisable q p) s = .next s)) ∧
  (∀ (p : Nat) (err : BitVec 4) (s : State), let x := (portOff p err s).port p
    x.enable = false ∧ x.state = .off ∧ x.err = err ∧ x.parts = [] ∧ x.issued = [] ∧ x.requests = [] ∧ x.moving = false)

/-- Triggers and lines. The oldest request is issued when the port can take it, which keeps its position and the time
and drives the sensor's lines, and is refused and counted otherwise; an issued line with no sync word is dropped,
counted as a framing error and refused; a sync word with no trigger outstanding is counted, with its event; a line whose
bits follow the sync word on every used pair writes its whole slot and advances WR by 1, and a seam line counts one
restart, with its event. Pixel i of a colour row is the d bits, most significant first, at its place on pair i mod n. -/
def Obligations.TriggersAndLines : Prop :=
  (∀ (p : Fin 4) (received : Bool) (pos : BitVec 32) (rest : List (BitVec 32)) (s : State), (s.port p).requests = pos :: rest →
    (s.port p).enable = true → (s.port p).state = .run → s.on domFRONT = true →
    let u := s.setPort p { s.port p with requests := rest }
    (u.issues p received = true → (s.port p).q = none →
      exec (.triggerRequest p received) s = .next ((s.setPort p { s.port p with
        requests := rest, issued := (s.port p).issued ++ [{ pos := pos, time := s.wbk.time, seam := false }]
        ltrig := (s.port p).ltrigW, exsync := (s.port p).exp }).emit
          (.lineOut p true (decide ((s.port p).exp ≠ 0))))) ∧
    (u.issues p received = false →
      exec (.triggerRequest p received) s = .next (refuseTrigger p pos u))) ∧
  (∀ (p : Fin 4) (l : Issued) (s : State), (s.port p).issued.getLast? = some l →
    exec (.solTimeout p) s = .next (refuseTrigger p l.pos (s.setPort p { s.port p with
      issued := (s.port p).issued.dropLast, framing := satInc (s.port p).framing }))) ∧
  (∀ (p : Fin 4) (received : Bool) (s : State), (s.port p).enable = true → s.on domFRONT = true →
    (s.port p).state ≠ .train → (received = true ∨ (s.port p).issued = []) →
    exec (.syncWithoutTrigger p received) s
      = .next (raise (96 + 16 * p + 4) (s.setPort p { s.port p with framing := satInc (s.port p).framing }))) ∧
  (∀ (p : Fin 4) (l : Issued) (rest : List Issued) (pairs : List (List Bool)) (s : State),
    (s.port p).issued = l :: rest → (s.port p).framed pairs = true → s.on domFRONT = true →
    let x := s.port p
    let y := { x with restarts := x.restarts + if l.seam then 1 else 0 }
    let u := (s.writeTen x.tenant.toNat (x.slotAddr x.wr) (y.slotOf x.wr l (x.deframe pairs))).setPort p
      { y with wr := x.wr + 1, issued := rest }
    exec (.lineStored p pairs) s = .next (highWater p (if l.seam then raise (96 + 16 * p + 2) u else u))) ∧
  (∀ (x : Port) (pairs : List (List Bool)) (c i : Nat), c < x.rows → i < x.w →
    ((x.deframe pairs).getD c []).getD i 0 = BitVec.ofNat 16 (msbFirst
      (((pairs.getD (i % x.lanes) []).drop (16 + (c * ceilDiv x.w x.lanes + i / x.lanes) * x.depth)).take x.depth))) ∧
  (∀ (p : Nat) (s : State),
    ((s.port p).state = .run → (s.port p).hw.toNat ≤ (s.port p).fill →
      highWater p s = raise (96 + 16 * p + 1) (stopBegin p s)) ∧
    ((s.port p).fill < (s.port p).hw.toNat → highWater p s = s))

/-- What a trigger that is refused does: one more in the count and one event; in run, or run-up, the motion of the
group stops, and Q is fixed: the position refused, or the lower one where Q stands already (log 136). -/
def Obligations.RefusedTrigger : Prop :=
  ∀ (p : Nat) (pos : BitVec 32) (s : State), p < 4 → (s.port p).enable = true → (s.port p).state = .run →
    let t := refuseTrigger p pos s
    (t.port p).state = .stopping ∧ (t.port p).refused = satInc (s.port p).refused ∧ (t.port p).refusedSince = true ∧
    (t.port p).q = some ((s.port p).q.elim pos (fun q => lowerPos q pos)) ∧ (t.chan (s.port p).trigCh).armed = false ∧ t.mem = s.mem

/-- A stop, a back-up and a restart, and the registers of a port. A stopping port whose position has settled waits for
low water with Q fixed; a low water, a settled back-up and a resume act in their own states; motion is kept in CTL; RD
moves when its high half is written, from PF0 and not past WR; a read of WR's low half latches the high half, and a
read of ERRCNT clears both counts. -/
def Obligations.StopAndRestart : Prop :=
  (∀ (p : Fin 4) (s : State), (s.port p).enable = true → s.on domFRONT = true →
    ((s.port p).state = .stopping → ∃ t, exec (.settleExpire p) s = .next t ∧
      (t.port p).state = (if (s.port p).mfltStop then .fault else .waitLow) ∧
      (t.port p).restartPos = (s.port p).q.getD ((s.chan (s.port p).trigCh).cmp.extractLsb' 0 32) ∧
      (t.port p).q = some (t.port p).restartPos ∧ (t.chan (s.port p).trigCh).armed = false) ∧
    ((s.port p).state = .settleBack → (s.port p).kind ≠ 2 → exec (.settleExpire p) s = .next (runUp p s)) ∧
    exec (.lowWaterReached p) s = .next (backUp p s)) ∧
  (∀ (p : Fin 4) (s : State), access (.fn 0) (.blk (baseROL p)) true s = .go →
    ((s.port p).state = .fault → s.mfltHigh p = true →
      exec (.portResume (.fn 0) p) s = .next (s.setPort p { s.port p with state := .waitLow, mfltStop := false })) ∧
    ((s.port p).state ≠ .fault → exec (.portResume (.fn 0) p) s = .next s)) ∧
  (∀ (q : Requester) (p : Fin 4) (on : Bool) (s : State), access q (.blk (baseROL p)) true s = .go →
    ((s.port p).state = .run → exec (.motionWrite q p on) s
      = .next (motionAsked p (s.setPort p { s.port p with motion := on }))) ∧
    ((s.port p).state ≠ .run → (s.port p).state ≠ .runup → exec (.motionWrite q p on) s
      = .next (s.setPort p { s.port p with motion := on }))) ∧
  (∀ (q : Requester) (p : Fin 4) (v : BitVec 32) (s : State), access q (.blk (baseROL p + 0x40)) true s = .go →
    exec (.rdWrite q p false v) s = .next (s.setPort p { s.port p with rdLo := v })) ∧
  (∀ (p : Fin 4) (v : BitVec 32) (s : State), access (.fn 0) (.blk (baseROL p + 0x44)) true s = .go →
    (s.port p).hostRead = true → let n : BitVec 64 := v ++ (s.port p).rdLo
    ((s.port p).rd ≤ n → n ≤ (s.port p).wr →
      exec (.rdWrite (.fn 0) p true v) s = .next (s.setPort p { s.port p with rd := n })) ∧
    ((s.port p).wr < n ∨ n < (s.port p).rd →
      exec (.rdWrite (.fn 0) p true v) s = .next (regError (.fn 0) (baseROL p + 0x44) s))) ∧
  (∀ (q : Requester) (p : Fin 4) (s : State), access q (.blk (baseROL p + 0x38)) false s = .go →
    exec (.wrRead q p) s = .next { s.setPort p { s.port p with wrHi := (s.port p).wr.extractLsb' 32 32 } with
      rdata := ((s.port p).wr.extractLsb' 0 32).zeroExtend 64 }) ∧
  (∀ (q : Requester) (p : Fin 4) (s : State), access q (.blk (baseROL p + 0x54)) false s = .go →
    exec (.errcntRead q p) s = .next { s.setPort p { s.port p with framing := 0, refused := 0 } with
      rdata := (pack [(16, (s.port p).framing.toNat), (0, (s.port p).refused.toNat)]).zeroExtend 64 })

/-! ## Intake (16) -/

/-- The registers of a queue. An enable that no check refuses empties the queue, its cache and its count; one that a
check refuses leaves it disabled with that check's err; a disable waits until no sample is left; a flush makes every
tag invalid; a read of the hits gives both counts and clears them. A flush while the queue is enabled doing nothing
else is the model's choice (log 74), and so is that an enable makes every tag invalid (log 75). -/
def Obligations.IntakeQueues : Prop :=
  (∀ (q : Requester) (n : Fin 16) (v : BitVec 32) (s : State), access q (.blk (baseINK n)) true s = .go →
    (s.queue n).enable = false → bit v 31 = true →
    let y : Queue := { s.queue n with
      cfg := v &&& 0x6FE0003F, tags := if bit v 28 then [] else (s.queue n).tags }
    (s.queueErr y = 0 → exec (.queueEnable q n v) s = .next (s.setQueue n { y with
      cfg := setBit (v &&& 0x6FE0003F) 31 true, err := 0, count := 0, samples := [], tags := [] })) ∧
    (s.queueErr y ≠ 0 → exec (.queueEnable q n v) s
      = .next (s.setQueue n { y with err := BitVec.ofNat 3 (s.queueErr y) }))) ∧
  (∀ (q : Requester) (n : Fin 16) (v : BitVec 32) (s : State), access q (.blk (baseINK n)) true s = .go →
    (s.queue n).enable = true → bit v 28 = false → bit v 31 = false →
    (s.unforwarded n = false → exec (.queueEnable q n v) s
      = .next (s.setQueue n { s.queue n with cfg := setBit (s.queue n).cfg 31 false })) ∧
    (s.unforwarded n = true → exec (.queueEnable q n v) s = .next (regError q (baseINK n) s))) ∧
  (∀ (q : Requester) (n : Fin 16) (s : State), access q (.blk (baseINK n)) true s = .go →
    exec (.cacheFlush q n) s = .next (s.setQueue n { s.queue n with tags := [] })) ∧
  (∀ (q : Requester) (n : Fin 16) (s : State), access q (.blk (baseINK n + 0x2C)) false s = .go →
    exec (.inkHitsRead q n) s = .next { s.setQueue n { s.queue n with hits := 0, misses := 0 } with
      rdata := (pack [(16, (s.queue n).hits.toNat), (0, (s.queue n).misses.toNat)]).zeroExtend 64 })

/-- Samples. The cut of a sample of kind 4 or 5 takes the queue's next index; a line of the port's ring, and a picture
of the feeding stream, move into the sample it cuts and their reader's count goes up by 1; image data that fails to
decode fails its job, with its event, and data that decodes does not; a decoded sample is written, with its cache slot,
and is then complete; the oldest, once complete, goes forward; a direct load writes its converted tensor from src_param
on. Each with no line it reads or writes claimed, and with every region it reads or writes mapped. -/
def Obligations.Samples : Prop :=
  (∀ (n : Fin 16) (y : Sample) (j : Job) (s : State), s.cutting n = some (y, j) → s.inkServes n = true →
    4 ≤ (s.queue n).kind → y.cut = false → y.budget = 0 →
    let x := s.queue n
    exec (.sampleCutStart n) s = .next (modSample n j.id
      (fun y => { y with cut := true, index := x.count, roiStale := false, rects := [] })
      ((serveInk x.tenant s).setQueue n { x with count := x.count + 1 }))) ∧
  (∀ (n : Fin 16) (y : Sample) (j : Job) (u : State) (s : State), s.cutting n = some (y, j) → s.inkServes n = true →
    (s.queue n).kind = 4 → y.cut = true → y.taken < y.lines → 0 < (s.port (s.queue n).port).fill →
    (s.port (s.queue n).port).hostRead = false →
    let p := s.port (s.queue n).port
    s.claimedAny p.tenant.toNat [(p.slotAddr p.rd, p.slotBytes)] = false →
    readRegions inkBlock j.id p.tenant.toNat [(p.slotAddr p.rd, p.slotBytes)] s = (true, u) →
    ∃ t, exec (.ringLineConsume n) s = .next t ∧ (t.port (s.queue n).port).rd = p.rd + 1 ∧
      (t.port (s.queue n).port).wr = p.wr ∧ t.mem = u.mem ∧ t.gng = u.gng) ∧
  (∀ (n : Fin 16) (y : Sample) (j : Job) (k : Nat) (u : State) (s : State), s.cutting n = some (y, j) →
    s.feeder n = some k → s.inkServes n = true → (s.queue n).kind = 5 → y.cut = true → y.taken = 0 →
    let c := s.stream k
    c.outWr ≠ c.outRd → s.claimedAny c.tenant [c.slotAt c.outRd] = false →
    readRegions inkBlock j.id c.tenant [c.slotAt c.outRd] s = (true, u) →
    ∃ t, exec (.pictureTake n) s = .next t ∧ (t.stream k).outRd = c.outRd + 1 ∧ (t.stream k).outWr = c.outWr ∧
      t.mem = u.mem ∧ t.gng = u.gng) ∧
  (∀ (n : Fin 16) (id : Nat) (input : List Byte) (y : Sample) (j : Job) (s : State), s.sampleFor n id = some y →
    s.job? id = some j → s.decodes n y j = true →
    let read := decodePlanes (s.queue n).kind j.srcDims (input.take (dInLen j.desc))
    (∀ f : DecodeFault, read = .error f →
      let u := emitReads j.tenant (dInAddr j.desc) (min (dInLen j.desc) (f.1 + 1)) (serveInk (s.queue n).tenant s)
      exec (.decodeFail n id input) s = .next (raise (160 + n) (fireJob
        { detector := 0x0A, level := lvlJob, location := n, info0 := f.1, info1 := f.2 + 1 } id
        (modSample n id (fun y => { y with complete := true, failed := true, planes := [] }) u)))) ∧
    (∀ (ps : List (List Byte)) (used : Nat), read = .ok (ps, used) →
      exec (.decodeFail n id input) s = .next s ∧
      (s.claimedAny j.tenant (s.sampleWrites n j y) = false →
        (∀ r ∈ s.sampleWrites n j y, s.mapped j.tenant r.1 r.2 = true) →
        let u := storeInk j.tenant ps (emitReads j.tenant (dInAddr j.desc) used s)
        exec (.sampleComplete n id input) s = .next (modSample n j.id
          (fun y => { y with complete := true, planes := [] }) (writeSample n j y ps false (fillCache n j ps u)))))) ∧
  (∀ (n : Fin 16) (y : Sample) (rest : List Sample) (s : State), (s.queue n).samples = y :: rest →
    (s.sampleDone n y = true →
      (∀ id, y.job = some id → exec (.sampleForward n) s
        = .next ((s.setQueue n { s.queue n with samples := rest }).modJob id (fun j => { j with sampleDue := false }))) ∧
      (y.job = none → exec (.sampleForward n) s = .next (s.setQueue n { s.queue n with samples := rest }))) ∧
    (s.sampleDone n y = false → exec (.sampleForward n) s = .next s)) ∧
  (∀ (id : Nat) (input : List Byte) (j : Job) (f : Fmt) (s : State), s.job? id = some j → j.loadDue = true →
    j.result = none → s.on domFRONT = true → s.linkOk j.tenant = true → Fmt.ofCode (dInFmt j.desc) = some f →
    let ns := loadNonets f (dInWide j.desc) (dZero j.desc) (input.take (dInLen j.desc))
    s.claimedAny j.tenant [(72 * dParam j.desc, 72 * ceilDiv ns.length 64)] = false →
    s.mapped j.tenant (72 * dParam j.desc) (72 * ceilDiv ns.length 64) = true →
    exec (.directLoadDone id input) s
      = .next ((writeLinesFor id j.tenant (dParam j.desc) ns
          (emitReads j.tenant (dInAddr j.desc) (dInLen j.desc) s)).modJob id (fun j => { j with loadDue := false })))

/-- The Shaker's draws lie in their limits, and its gain keeps every sample inside 0 to 255. -/
def Obligations.ShakerLimits : Prop :=
  (∀ (x : BitVec 32) (j : Nat), -(j : Int) ≤ drawn x j ∧ drawn x j ≤ j) ∧
  (∀ (a o : Int) (u : Nat), gained a o u ≤ 255) ∧
  (∀ u : Nat, u ≤ 255 → gained 0 0 u = u)

/-! ## Paradiddle and the Damper (17) -/

/-- Tables. Loading and clearing are refused, each as one error, while a check runs or the tenant has an admitted job;
a load starts a check, or a grammar with no valid set fails with error 11 and its event; a check that ends stores the
CRC and makes the tables valid, or stores its error with its event; a read of the loads gives both counts and clears
them. Token streams and the Damper. The first live stream is served when its tables are on die; a stream that is
complete is written with its tokens, its bytes and its words, and leaves the queue; a detokenized output is issued as
one write; a tile's write of a request line is accepted and its result lines are claimed; the Damper answers the
oldest request. -/
def Obligations.TablesAndTokens : Prop :=
  ((∀ (q : Requester) (t : Fin 64) (s : State), access q (.blk (baseTOK t)) true s = .go →
     (s.tokLocked t = true →
       exec (.tokLoad q t) s = .next (regError q (baseTOK t + 0) s) ∧
       exec (.gramLoad q t) s = .next (regError q (baseTOK t + 0) s) ∧
       exec (.tokClear q t) s = .next (regError q (baseTOK t + 0) s) ∧
       exec (.gramClear q t) s = .next (regError q (baseTOK t + 0) s)) ∧
     (s.tokLocked t = false →
       exec (.tokLoad q t) s = .next (s.setTokTen t { s.tokTen t with checking := .set }) ∧
       ((s.tokTen t).tokValid = true →
         exec (.gramLoad q t) s = .next (s.setTokTen t { s.tokTen t with checking := .grammar })) ∧
       ((s.tokTen t).tokValid = false → exec (.gramLoad q t) s
         = .next (raise 193 (s.setTokTen t { s.tokTen t with gramValid := false, gramErr := 11 }))) ∧
       exec (.tokClear q t) s
         = .next (s.setTokTen t { s.tokTen t with tokValid := false, gramValid := false }) ∧
       exec (.gramClear q t) s = .next (s.setTokTen t { s.tokTen t with gramValid := false }))) ∧
   (∀ (t : Fin 64) (u : State) (s : State), (s.tokTen t).checking = .set → s.on domTOK = true →
     s.claimedAny t (s.setReads t) = false →
     readTables t (s.setReads t) (dropOnDie t s) = (true, u) →
     exec (.tokCheckDone t) s = .next (match u.checkSet t with
       | .inr (_, bs) => u.setTokTen t { u.tokTen t with
           tokValid := true, tokErr := 0, tokCrc := Config.tableCrc bs, checking := .none }
       | .inl e => raise 192 (u.setTokTen t { u.tokTen t with
           tokValid := false, gramValid := false, tokErr := BitVec.ofNat 4 e, checking := .none }))) ∧
   (∀ (t : Fin 64) (u : State) (s : State), (s.tokTen t).checking = .grammar → s.on domTOK = true →
     s.claimedAny t (s.gramReads t) = false →
     readTables t (s.gramReads t) (dropOnDie t s) = (true, u) →
     exec (.gramCheckDone t) s = .next (match u.checkGrammar t with
       | .inr (_, bs) => u.setTokTen t { u.tokTen t with
           gramValid := true, gramErr := 0, gramCrc := Config.tableCrc bs, checking := .none }
       | .inl e => raise 193 (u.setTokTen t { u.tokTen t with
           gramValid := false, gramErr := BitVec.ofNat 4 e, checking := .none }))) ∧
   (∀ (q : Requester) (s : State), access q (.blk 0xE00010) false s = .go →
     exec (.tokLoadsRead q) s = .next { s with
       rdata := (pack [(16, s.tok.loadsTok.toNat), (0, s.tok.loadsDamp.toNat)]).zeroExtend 64
       tok := { s.tok with loadsTok := 0, loadsDamp := 0 } })) ∧
  ((∀ (x : TokStream) (rest : List TokStream) (s : State), s.tok.streams = x :: rest → s.liveStreams = x :: rest →
     s.on domTOK = true → s.tok.serving = false → s.tok.onDie = some x.tenant →
     (x.detok = false → exec .tokenStreamStart s = .next { s with tok := { s.tok with serving := true } }) ∧
     (x.detok = true → exec (.detokenizeStart x.job) s = .next { s with tok := { s.tok with serving := true } })) ∧
   (∀ (x : TokStream) (rest : List TokStream) (input : List Byte) (j : Job) (s : State), s.tok.streams = x :: rest →
     s.liveStreams = x :: rest → s.on domTOK = true → s.tok.serving = true → x.detok = false → s.job? x.job = some j →
     s.linkOk j.tenant = true → s.claimedAny j.tenant [s.streamRegion j] = false →
     s.mapped j.tenant (s.streamRegion j).1 (s.streamRegion j).2 = true →
     let r := s.tok.set.tokenize (input.take (dAuxLen j.desc))
     let u := emitReads j.tenant (dAuxAddr j.desc) (dAuxLen j.desc) s
     exec (.tokenStreamComplete input) s = .next ((endStream (writeStream j r.1 r.2.1 r.2.2 u)).modJob x.job
       (fun j => { j with streamDue := false }))) ∧
   (∀ (x : TokStream) (rest : List TokStream) (j : Job) (out : List Byte) (u : State) (s : State),
     s.tok.streams = x :: rest → s.liveStreams = x :: rest → s.on domTOK = true → s.tok.serving = true → x.detok = true →
     s.job? x.job = some j → s.linkOk j.tenant = true → s.claimedIn j.tenant j.man.outRegion j.man.outBytes = false →
     readRegions tokBlock x.job j.tenant [(j.man.outRegion, j.man.outBytes)] s = (true, u) →
     u.tok.set.detokenize 0 (outputIds j.man.outNonets ((u.readTen j.tenant j.man.outRegion j.man.outBytes).getD []))
       = (out, none) →
     exec (.detokenizeDone x.job) s = .next ((endStream (writeOutput j 0 out u)).modJob x.job (fun j => { j with
       stageDue := false, outBytes := out.length }))) ∧
   (∀ (i : Fin 1024) (t : Fin 64) (slot : Fin 1024) (n : Nat) (x : Xfer) (s : State), s.on domTOK = true →
     let d := s.tokTen t
     let line := d.dampReq.toNat + slot
     slot.val < d.slots.toNat → s.tok.damps.length < 256 → s.requestXfer i t line 8 = some (n, x) →
     let r : DampReq := { job := x.job, tenant := t, slot := slot, words := s.xferWords i x line }
     let u := claimLines t (d.dampRes.toNat + 513 * slot) r.lines (acceptLine i n line 8 s)
     exec (.damperRequest i t slot) s = .next { u with tok := { u.tok with damps := u.tok.damps ++ [r] } }) ∧
   (∀ (r : DampReq) (rest : List DampReq) (s : State), s.tok.damps = r :: rest → s.on domTOK = true →
     ((s.tokTen r.tenant).gramValid = true → s.tok.dampOn = some r.tenant →
       exec .damperService s = .next (answerDamper true r { s with tok := { s.tok with damps := rest } })) ∧
     ((s.tokTen r.tenant).gramValid = false →
       (s.tok.dampOn = some r.tenant ∨ s.claimedAny r.tenant (s.damperReads r.tenant) = false) →
       exec .damperService s = .next (answerDamper false r { s with tok := { s.tok with damps := rest } }))))

/-! ## Cymbal (18) -/

/-- A stream's enable, restart and key request. An enable that no check refuses makes the stream ready with an empty
history and places its reservation; one that a check refuses leaves it disabled with that check's err; a restart makes
a stopped stream ready, with an empty history. Requests. A tile's write of a request line is read and judged: one for
a stream that is not enabled, or that has an invalid field, is answered at once; another claims its result line,
counts one picture of its job and waits in the queue. Pictures. Service takes the oldest request; a decode's begins
with nothing read; an encode that ends, with its regions readable, counts one picture and answers its request; a
decoded picture that waits goes to the ring while there is room. What a restart places anew is the model's choice (log
88), and so is the order of the statuses (log 89). -/
def Obligations.StreamsAndPictures : Prop :=
  ((∀ (q : Requester) (n : Fin 8) (s : State), access q (.blk (baseCYM n)) true s = .go → (s.stream n).enable = false →
     (s.streamErr (s.stream n) = 0 → exec (.streamEnable q n) s = .next (rescale (s.setStream n { s.stream n with
       enable := true, state := 1, err := 0, first := true, sinceIdr := 0, pics := 0, recon := [], waiting := []
       copies := [], parts := s.streamParts (s.stream n) }))) ∧
     (s.streamErr (s.stream n) ≠ 0 → exec (.streamEnable q n) s = .next (s.setStream n { s.stream n with
       err := BitVec.ofNat 4 (s.streamErr (s.stream n)) }))) ∧
   (∀ (q : Requester) (n : Fin 8) (s : State), access q (.blk (baseCYM n)) true s = .go →
     ((s.stream n).state = 2 → exec (.streamRestart q n) s = .next (rescale (s.setStream n { s.stream n with
       state := 1, recon := [], waiting := [], first := true, parts := s.streamParts (s.stream n) }))) ∧
     ((s.stream n).state ≠ 2 → exec (.streamRestart q n) s = .next s)) ∧
   (∀ (q : Requester) (n : Fin 8) (s : State), access q (.blk (baseCYM n)) true s = .go →
     exec (.keyReq q n) s = .next (s.setStream n { s.stream n with keyReq := true }))) ∧
  ((∀ (i : Fin 1024) (n : Fin 8) (slot : Fin 16) (k : Nat) (t : Xfer) (decode : Bool) (s : State), s.on domCYM = true →
     let x := s.stream n
     let line := x.req.toNat + slot
     let r : CymReq := { stream := n, slot := slot, job := t.job, decode := decode, words := s.xferWords i t line }
     slot.val < x.slots.toNat → s.cym.reqs.length < 256 → s.requestXfer i x.tenant line n = some (k, t) →
     (decode = false → r.op ≠ 1 →
       exec (.cymbalEncode i n slot) s = .next (takeRequest r (acceptLine i k line n s))) ∧
     (decode = true → r.op = 1 →
       exec (.cymbalDecode i n slot) s = .next (takeRequest r (acceptLine i k line n s)))) ∧
   (∀ (r : CymReq) (s : State), let x := s.stream r.stream
     let line := x.rslt.toNat + r.slot
     (x.enable = false → takeRequest r s = landLine r.job x.tenant line (failedPicture r 3 0) s) ∧
     (x.enable = true → x.state ≠ 2 → (r.bad = true ∨ r.decode ≠ x.dir) →
       takeRequest r s = landLine r.job x.tenant line (failedPicture r 2 0) s) ∧
     (x.enable = true → x.state ≠ 2 → r.bad = false → r.decode = x.dir →
       (s.job? r.job).any (fun j => j.man.outStage != 0) = false →
       (takeRequest r s).cym = { s.cym with reqs := s.cym.reqs ++ [r] } ∧ (takeRequest r s).mem.cells = s.mem.cells))) ∧
  ((∀ (r : CymReq) (rest : List CymReq) (s : State), s.cym.service = none → s.cym.reqs = r :: rest → s.on domCYM = true →
     r.decode = true → exec .pictureServiceStart s = .next { s with cym := { s.cym with
       reqs := rest, service := some { req := r }, lastTenant := some (s.stream r.stream).tenant } }) ∧
   (∀ (v : CymService) (s : State), s.cym.service = some v → s.on domCYM = true → v.finish = none →
     s.claimedAny (s.stream v.req.stream).tenant [v.req.source] = false →
     (v.req.decode = true → exec .pictureDone s = .next (decodeDone v s)) ∧
     (v.req.decode = false → s.linkOk (s.stream v.req.stream).tenant = true →
       exec .pictureDone s = .next (encodeDone v s))) ∧
   (∀ (v : CymService) (u : State) (s : State),
     readPicture v.req [v.req.roiRegion] s = (true, u) →
     (encodeDone v s).cym.service = none) ∧
   (∀ (n : Fin 8) (p : Pict) (rest : List Pict) (s : State), s.on domCYM = true → (s.stream n).waiting = p :: rest →
     (s.stream n).enable = true → s.cym.service = none →
     ((s.stream n).outWr - (s.stream n).outRd).toNat < (s.stream n).outSlots.toNat →
     let x := s.stream n
     s.claimedIn x.tenant (x.slotAt x.outWr).1 (x.slotAt x.outWr).2 = false →
     s.mapped x.tenant (x.slotAt x.outWr).1 (x.slotAt x.outWr).2 = true →
     exec (.pictureOutput n) s = .next ((s.writeTen x.tenant (x.slotAt x.outWr).1
       ((pictureBytes x.b p).take (x.slotAt x.outWr).2)).setStream n
         { x with waiting := rest, outWr := x.outWr + 1, pics := x.pics + 1 })))

/-! ## The chain (19) -/

/-- A link. It trains when a cable is present; the partner's LINKUP is recorded; a bad flit is discarded, counted and
answered with a nak that names the last good sequence number; a nak and a timeout replay what is not acknowledged; a
link whose cable is gone falls, and both fall with a retimer that nothing feeds; CHN_LINKx_STAT takes what the card sees
of its link, which is nothing while its retimer bypasses; and the registers whose read latches or clears. -/
def Obligations.ChainLinks : Prop :=
  (∀ (x : Fin 2) (s : State), (s.link x).cabled = true → (s.link x).up = false → s.on domCHN = true →
    s.chn.bypassing = false → (s.link x).returnDue = false →
    exec (.chainLinkUp x) s = .next (relayCtrl x (.linkup (s.address.getD 0) s.address.isSome s.gng.era false)
      (raise (258 + x) (showLink x (s.setLink x { s.link x with
        up := true, partnerBypass := false, partnerInDown := false, txSeq := 0, rxSeq := 0xFF, replay := []
        fails := 0, rx := .idle, tx := .free, fwd := [], returnDue := false }))))) ∧
  (∀ (x : Fin 2) (cable : Cable) (s : State),
    let u := powerRetimer (s.setLink x { s.link x with cable := cable })
    (s.on domAON = true →
      ((s.link x).up = false ∨ cable ≠ .none → exec (.linkTrainRetry x cable) s = .next u) ∧
      ((s.link x).up = true → cable = .none → exec (.linkTrainRetry x cable) s = .next (linkFalls x u))) ∧
    (s.on domAON = false → u.cableFed = false → ∃ t, exec (.linkTrainRetry x cable) s = .next t ∧
      t.on domBYP = false ∧ (t.link 0).up = false ∧ (t.link 1).up = false)) ∧
  (∀ (x : Fin 2) (unit : BitVec 12) (a i b : Bool) (era : BitVec 16) (s : State), s.carries x = true →
    (s.chn.bypassing = true ∨ a = false ∨ s.chn.route = []) →
    exec (.linkup x unit a era i b) s = .next (showLink x (s.setLink x { s.link x with
      rxSeq := (s.link x).rxSeq + 1, partnerUnit := unit, partnerAssigned := a, partnerEra := era, partnerInDown := i
      partnerBypass := b }))) ∧
  (∀ (x : Nat) (s : State),
    (s.chn.bypassing = true → showLink x s = s) ∧
    (s.chn.bypassing = false → showLink x s = s.setLink x { s.link x with stat :=
      { up := (s.link x).up, bypass := (s.link x).partnerBypass, assigned := (s.link x).partnerAssigned
        unit := (s.link x).partnerUnit } })) ∧
  (∀ (x : Fin 2) (raw : List Byte) (s : State), raw.length = 80 → s.carries x = true →
    (rawGood (s.link x) raw = false → exec (.flitDiscard x raw) s
      = .next ((s.setLink x { s.link x with crc := satInc (s.link x).crc }).emit (.chain x (.nak (s.link x).rxSeq)))) ∧
    (rawGood (s.link x) raw = true → exec (.flitDiscard x raw) s = .next s)) ∧
  (∀ (x : Fin 2) (ack : BitVec 8) (s : State), s.carries x = true →
    exec (.nakReplay x ack) s = .next (pumpAll x (replay x (applyAck x ack s))) ∧
    exec (.replayTimeout x) s = .next (replay x s)) ∧
  (∀ (x : Nat) (s : State), (s.link x).replay ≠ [] → (s.link x).fails < 8 →
    replay x s = forEach ((s.link x).replay.take 128) (fun m s => s.emit (.chain x m))
      (s.setLink x { s.link x with fails := (s.link x).fails + 1 })) ∧
  (∀ (q : Requester) (s : State), access q (.blk (baseCHN + 0x30)) false s = .go →
    exec (.chnArrRead q) s = .next { s with
      rdata := (pack [(16, s.chn.arr.unit.toNat), (0, s.chn.arr.era.toNat)]).zeroExtend 64
      chn := { s.chn with arrShown := s.chn.arr } }) ∧
  (∀ (q : Requester) (s : State), access q (.blk (baseCHN + 8)) false s = .go →
    exec (.chnStatRead q) s = .next { s with
      rdata := (pack [(16, s.chn.stale.toNat), (3, s.chn.noAddress.toNat), (2, s.chn.duplicate.toNat),
        (0, s.chn.enumState.toNat)]).zeroExtend 64
      chn := { s.chn with stale := 0 } }) ∧
  (∀ (q : Requester) (x : Fin 2) (s : State), access q (.blk (baseCHN + 0x10 + 4 * x)) false s = .go →
    exec (.chnLinkStatRead q x) s = .next { s.setLink x { s.link x with down := 0 } with
      rdata := (pack [(31, (s.link x).stat.up.toNat), (30, (s.link x).stat.bypass.toNat),
        (29, (s.link x).stat.assigned.toNat), (12, (s.link x).stat.unit.toNat), (0, (s.link x).down.toNat)]).zeroExtend 64 }) ∧
  (∀ (q : Requester) (x : Fin 2) (s : State), access q (.blk (baseCHN + 0x18 + 4 * x)) false s = .go →
    exec (.chnCrcRead q x) s = .next { s.setLink x { s.link x with crc := 0 } with
      rdata := (s.link x).crc.zeroExtend 64 })

/-- Messages on the chain. A message of this card whose header is at the chain port starts with a stamp, on the link its
route names, or waits at the Gong, or ends with code 3 where no link reaches its unit; a good FIRST flit for this card
enters with an arrival record, one for another unit goes on to the other link; a CONT flit goes where its message went;
an ABORT flit drops its message; an ANSWER for this card's unit reaches its sender; a message with a gap of 10 µs is
answered with code 3. -/
def Obligations.ChainMessages : Prop :=
  (∀ (m : Nat) (x : Msg) (s : State), s.grd.msgs[m]? = some x → x.outward = true → x.arrived = true → x.sent = 0 →
    s.oldest m x = true →
    (∀ v : Nat, s.chn.absent.contains x.unit = false → s.openLink x = some v → s.atPort (.send x.src) = [] →
      (s.gongFree (gongPort (.send x.src)) = true → exec (.chainSend m false) s
        = .next (sendNext m { x with via := v, stamp := s.gng.next } (takeStamp (gongPassed (gongPort (.send x.src)) s)))) ∧
      exec (.chainSend m true) s = .next (gongWait (.send x.src) s)) ∧
    (∀ held : Bool, s.chn.absent.contains x.unit = true ∨ s.linkTo x.unit.toNat = none →
      exec (.chainSend m held) s = .next (failSender (x.lanes.headD 0) ansUnreachable (dropMsg m s)))) ∧
  (∀ (x : Fin 2) (raw : List Byte) (s : State), raw.length = 80 → s.flitOk x 1 raw = true →
    let hdr := (rawLanes raw).headD 0
    let u := takeFlit x raw s
    (u.ownUnit (hdrUnit hdr) = true → u.chn.bypassing = false →
      exec (.firstFlit x raw) s = .next (addLanes x (rawLanes raw) (rawLast raw) (recordArrival (rawLanes raw) u))) ∧
    (u.ownUnit (hdrUnit hdr) = false → u.carries (otherLink x) = true → u.chn.bypassing = false →
      u.routeTo (hdrUnit hdr) ≠ 0 →
      exec (.firstFlit x raw) s = .next (forwardFlit (otherLink x)
        { kind := 1, last := rawLast raw, lanes := rawLanes raw }
        (setRx x (if rawLast raw then .idle else .through hdr) u)))) ∧
  (∀ (x : Fin 2) (raw : List Byte) (s : State), raw.length = 80 → s.flitOk x 2 raw = true →
    let u := takeFlit x raw s
    (∀ ls, (u.link x).rx = .own ls →
      exec (.contFlit x raw) s = .next (addLanes x (ls ++ rawLanes raw) (rawLast raw) u)) ∧
    ((u.link x).rx = .idle → exec (.contFlit x raw) s = .next u)) ∧
  (∀ (x : Fin 2) (raw : List Byte) (s : State), raw.length = 80 → s.flitOk x 3 raw = true →
    let u := takeFlit x raw s
    (∀ ls, (u.link x).rx = .own ls → exec (.abortFlit x raw) s = .next (setRx x .idle u)) ∧
    (∀ hdr, (u.link x).rx = .through hdr → exec (.abortFlit x raw) s
      = .next (forwardFlit (otherLink x) { kind := 3, last := true } (setRx x .idle u)))) ∧
  (∀ (x : Fin 2) (raw : List Byte) (s : State), raw.length = 80 → s.flitOk x 4 raw = true →
    let u := takeFlit x raw s
    let hdr := (rawLanes raw).headD 0
    (u.ownUnit (hdrSrcUnit hdr) = true → u.chn.bypassing = false →
      exec (.answerFlit x raw) s = .next (answered hdr (fld ((rawLanes raw).getD 1 0) 0 8) u)) ∧
    (u.ownUnit (hdrSrcUnit hdr) = false → u.carries (otherLink x) = true →
      exec (.answerFlit x raw) s = .next (sendFlit (otherLink x)
        { kind := 4, last := rawLast raw, lanes := rawLanes raw } u))) ∧
  (∀ (x : Fin 2) (ls : List Lane) (s : State), s.carries x = true → (s.link x).rx = .own ls →
    exec (.flitGapTimeout x) s = .next (answerBack x (ls.headD 0) ansUnreachable (setRx x .drained s)))

/-- Enumeration, spanning tags, bypass and reset of the chain, with CHN on and no bypass unless the command is one.
What a chain reset leaves at a card: no address, no routes, no absent units, no spanning tags, and its reset cause. -/
def Obligations.ChainUnits : Prop :=
  ((∀ (q : Requester) (v : BitVec 32) (s : State), access q (.blk (baseCHN + 4)) true s = .go →
     (keyed v = true → bit v 0 = false → bit v 1 = true → bit v 2 = false →
       exec (.enumerate q v false) s = .next (requestEnumeration { s with chn := { s.chn with bypassReg := false } })) ∧
     (keyed v = true → bit v 0 = false → bit v 1 = false → bit v 2 = true →
       exec (.chainReset q v) s = .next (startChainReset { s with chn := { s.chn with bypassReg := false } })) ∧
     (keyed v = false → bit v 1 = true → exec (.enumerate q v false) s = .next (regError q (baseCHN + 4) s)) ∧
     (keyed v = false → bit v 2 = true → exec (.chainReset q v) s = .next (regError q (baseCHN + 4) s)) ∧
     exec (.chnBypass q true) s = .next (enterBypass { s with chn := { s.chn with bypassReg := true } }) ∧
     exec (.chnBypass q false) s = .next { s with chn := { s.chn with bypassReg := false } }) ∧
   (∀ (claimed : List (BitVec 12)) (count : Nat) (s : State), s.carries 0 = true → s.chn.bypassing = false →
     (s.chn.assigned = true → claimed.contains s.chn.unit = false → (takeCtrl 0 s).isTail = false →
       exec (.survey 0 claimed count) s
         = .next (relayCtrl 1 (.survey (claimed ++ [s.chn.unit]) (count + 1)) (takeCtrl 0 s)))) ∧
   (∀ (next : Nat) (upset : List (BitVec 12)) (count : Nat) (s : State), s.carries 0 = true → s.chn.bypassing = false →
     exec (.assign 0 next upset count) s = .next (assignHere next upset count (takeCtrl 0 s))) ∧
   (∀ (full : List (BitVec 12)) (count : Nat) (s : State), s.carries 1 = true → s.chn.bypassing = false →
     exec (.doneFlit 1 full count) s = .next (doneHere full count (takeCtrl 1 s))) ∧
   (∀ s : State, s.isHead = true → s.chn.enumState = 1 →
     exec .enumTimeout s = .next (raise 261 { s with chn := { s.chn with enumState := 3 } })) ∧
   (∀ (unit : BitVec 12) (key : BitVec 32) (s : State), s.carries 1 = true →
     ((takeCtrl 1 s).isHead = true → s.chn.bypassing = false →
       exec (.spanFree unit key) s = .next (freeSpan unit key (takeCtrl 1 s))) ∧
     ((takeCtrl 1 s).isHead = false →
       exec (.spanReq unit key none) s = .next (relayCtrl 0 (.spanReq unit key) (takeCtrl 1 s)) ∧
       exec (.spanFree unit key) s = .next (relayCtrl 0 (.spanFree unit key) (takeCtrl 1 s)))) ∧
   (∀ (unit : BitVec 12) (key : BitVec 32) (index : Option (Fin 8192)) (s : State), s.carries 0 = true →
     s.chn.bypassing = false →
     (unit = s.chn.unit → exec (.spanReq unit key (some index)) s = .next (spanAnswered key index (takeCtrl 0 s))) ∧
     (unit ≠ s.chn.unit → exec (.spanReq unit key (some index)) s
       = .next (relayCtrl 1 (.spanGrant unit key index) (takeCtrl 0 s)))) ∧
   (∀ (j : Nat) (s : State), exec (.spanTimeout j) s
     = .next (forEach (s.spanWaiting j) (fun x s => rejectJob x (cpl stLimit 7) s) s)) ∧
   (∀ s : State, s.chn.bypassing = true → exec .bypassEnter s = .next s) ∧
   (∀ s : State, s.chn.bypassing = false → ∃ t, exec .bypassEnter s = .next t ∧ t.chn.bypassing = true) ∧
   (∀ s : State, s.chn.bypassing = true → s.chn.bypassReg = false → s.on domCHN = true →
     (s.link 0).up = false → (s.link 1).up = false →
     exec .bypassExit s = .next (((fun u => u.setLink 1 { u.link 1 with returnDue := true })
       ((fun u => u.setLink 0 { u.link 0 with returnDue := true }) { s with chn := { s.chn with bypassing := false } })))) ∧
   (∀ (x : Fin 2) (unit : BitVec 12) (s : State), s.carries x = true → s.chn.bypassing = false →
     let u := takeCtrl x s
     exec (.returnFlit x unit) s = .next (relayCtrl (otherLink x) (.ret unit)
       (raise 263 { u with chn := { u.chn with absent := u.chn.absent.filter (· ≠ unit) } }))) ∧
   (∀ (x : Fin 2) (s : State), s.carries x = true →
     exec (.resetFlit x) s = .next (relayCtrl (otherLink x) .reset (chainResetHere (takeCtrl x s))))) ∧
  (∀ s : State, let t := chainResetHere s
     t.chn.assigned = false ∧ t.chn.unit = 0 ∧ t.chn.route = [] ∧ t.chn.absent = [] ∧ t.chn.tags = [] ∧
     bit t.pwr.cause 5 = true)

/-- A spanning tag is given once: a key that holds one keeps its index, and a new key takes an index that no other key
holds; where all 8,192 are held, none is given. -/
def Obligations.SpanningTags : Prop :=
  ∀ (unit : BitVec 12) (key : BitVec 32) (s : State),
    (∀ g, s.chn.tags.find? (fun g => g.key == key) = some g → (grantSpan unit key s).1 = some g.index) ∧
    (s.chn.tags.find? (fun g => g.key == key) = none →
      (∀ i, (grantSpan unit key s).1 = some i → i < 8192 ∧ ∀ g ∈ s.chn.tags, g.index ≠ i) ∧
      ((grantSpan unit key s).1 = none ↔ ∀ i < 8192, ∃ g ∈ s.chn.tags, g.index = i))

/-! ## Faults and recovery (20) -/

/-- Parity, the bell-core watchdogs and the counters. A parity error in Intake's store fails the job it serves; a bell
core's watchdog resets its core, records the cause and counts its firings within 1 s; a core that restarts runs again;
the keyed clear empties the counts of every detector and of every tile, and nothing else; a read of FLT_REGERR clears
it. The firmware mailbox. A data write stores its 4 bytes in the staged slot and advances the address by 1; a keyed
commit starts the check; a check that ends makes the staged slot active, or reports its failure and leaves the active
slot; a keyed raise by PF0 lifts the fused minimum to the running image's number, and never lowers it. -/
def Obligations.FaultCommands : Prop :=
  ((∀ (addr : BitVec 32) (job : Nat) (s : State), s.on domFRONT = true →
     (∀ j, s.servedJob 0 job = some j →
       exec (.storeParityError 0 addr job) s = .next (zeroStore 0 (fireJob
         { detector := 0x0D, level := lvlJob, location := 0, info0 := addr.toNat } j s))) ∧
     (s.servedJob 0 job = none →
       exec (.storeParityError 0 addr job) s = .next (zeroStore 0 (fire
         { detector := 0x0D, level := lvlJob, location := 0, info0 := addr.toNat } s)))) ∧
   (∀ (c : Fin 4) (s : State), s.firmware c = true → (s.bell c).resets = [] →
     exec (.bellWatchdogExpire c) s = .next (recheck c (releaseClaims c (setCause 4
       (((fun u => u.setBell c { running := false, resets := [s.now] })
         (fire { detector := 0x0E, level := lvlCore, location := c, info0 := 1 } s)))))) ) ∧
   (∀ (c : Fin 4) (s : State), s.on domMGT = true → s.boot.stage = .running →
     exec (.bellCoreRestart c) s = .next (s.setBell c { s.bell c with running := true })) ∧
   (∀ (q : Requester) (v : BitVec 32) (s : State), access q (.blk (baseFLT + 8)) true s = .go → bit v 0 = true →
     (keyed v = true → exec (.clearCounts q v) s = .next { s with flt := { s.flt with cnt := [], tileHw := [] } }) ∧
     (keyed v = false → exec (.clearCounts q v) s = .next (regError q (baseFLT + 8) s))) ∧
   (∀ (q : Requester) (s : State), access q (.blk (baseFLT + 0x10)) false s = .go →
     exec (.regerrRead q) s = .next { s with rdata := s.flt.regerr.zeroExtend 64, flt := { s.flt with regerr := 0 } })) ∧
  ((∀ (q : Requester) (v : BitVec 32) (s : State), access q (.blk (baseFLT + 0x8008)) true s = .go → s.mailbox = true →
     ∃ t, exec (.fwDataWrite q v) s = .next t ∧ t.boot.fwAddr = s.boot.fwAddr + 1 ∧ t.boot.activeB = s.boot.activeB ∧
       t.slot (!s.stagedSlot) = s.slot (!s.stagedSlot) ∧ (t.slot s.stagedSlot).written = true ∧
       ∀ i < 4, (t.slot s.stagedSlot).staged.find none (4 * s.boot.fwAddr.toNat + i)
         = some (BitVec.ofNat 8 (v.toNat / 256 ^ i))) ∧
   (∀ (q : Requester) (v : BitVec 32) (s : State), access q (.blk (baseFLT + 0x8000)) true s = .go → keyed v = true →
     s.mailbox = true →
     (bit v 0 = true → bit v 1 = false →
       exec (.fwCommit q v) s = .next { s with boot := { s.boot with fwBusy := true } }) ∧
     (bit v 0 = false → bit v 1 = true → exec (.raiseArb q v) s = .next (if q = .fn 0 then raiseMinimum s else s))) ∧
   (∀ s : State, s.boot.stage = .running → raiseMinimum s = { s with boot := { s.boot with
     fusedArb := max s.boot.fusedArb ((s.slot s.boot.slotB).check).arb } }) ∧
   (∀ s : State, s.boot.fwBusy = true →
     (s.slotFailure s.stagedSlot = 0 → exec .fwCheckDone s = .next { s with boot := { s.boot with
       fwBusy := false, fwStatus := 0, activeB := s.stagedSlot } }) ∧
     (s.slotFailure s.stagedSlot ≠ 0 → exec .fwCheckDone s = .next { s with boot := { s.boot with
       fwBusy := false, fwStatus := BitVec.ofNat 4 (s.slotFailure s.stagedSlot) } })))

/-- A firing of a detector for no job. Its record of eight words stands at its number modulo 256: its number, the
stamp it takes, the detector and its level, the location, no job, the two words of information and the era; the
record's number goes up by 1 and the detector's count by 1, up to its greatest value; no other record and no other
count changes. -/
def Obligations.FaultRecord : Prop :=
  ∀ (f : Finding) (s : State), let t := fire f s
    t.flt.next = s.flt.next + 1 ∧
    t.flt.recs.find [] (s.flt.next.toNat % 256) =
      [ s.flt.next, s.gng.next.extractLsb' 0 32,
        pack [(24, f.detector), (20, f.level), (0, (s.gng.next.extractLsb' 32 16).toNat)],
        pack [(16, f.location % 65536)], 0, BitVec.ofNat 32 f.info0, BitVec.ofNat 32 f.info1,
        pack [(0, s.gng.era.toNat)] ] ∧
    (∀ n, n ≠ s.flt.next.toNat % 256 → t.flt.recs.find [] n = s.flt.recs.find [] n) ∧
    t.flt.cnt.find 0 f.detector = satInc (s.flt.cnt.find 0 f.detector) ∧
    (∀ d, d ≠ f.detector → t.flt.cnt.find 0 d = s.flt.cnt.find 0 d) ∧
    t.mem = s.mem ∧ t.grd = s.grd ∧ t.sch = s.sch ∧ t.rings = s.rings

/-! ## Commands that complete

Where a command takes its own effect: under conditions on the state and the operands alone `exec` answers a next state,
in which that effect stands. The statements above give the rest of the next state. -/

/-- The commands of power, resets, VGRID and clocks, of the host link and the tenants, and of the rings each complete,
with the effect named: a reset leaves its stage, a power state is entered, a domain is on or off, a PLL is locked or has
failed, a tenant or a ring has its new state, a descriptor is fetched, a line is written. -/
def Obligations.PowerHostAndRingCommandsComplete : Prop :=
  ((∀ s : State, ∃ u, exec .aonSupplyLoss s = .next u ∧ u.boot.stage = .unpowered ∧ u.rings = []) ∧
   (∀ s : State, s.pwr.perst = false → s.boot.stage ≠ .unpowered →
     ∃ u, exec .fundamentalReset s = .next u ∧ u.pwr.perst = true ∧ u.pwr.dstate = .d0) ∧
   (∀ (q : Requester) (v : BitVec 32) (s : State), access q (.blk 0x100030) true s = .go → keyed v = true →
     bit v 0 = true → s.boot.resetting = false → ∃ u, exec (.cardReset q v) s = .next u ∧ u.boot.stage = .mgt) ∧
   (∀ s : State, s.hif.linkUp = true →
     ∃ u, exec .hotReset s = .next u ∧ u.pwr.dstate = .d0 ∧ u.hif.linkUp = false) ∧
   (∀ (f : Fin 64) (s : State), f.val ≠ 0 → s.hif.linkUp = true → s.tenantExists f = true →
     (s.func f).flrBusy = false → ∃ u, exec (.flr f) s = .next u ∧ (u.func f).flrBusy = true) ∧
   (∀ (f : Fin 64) (s : State), ∃ u, exec (.flrComplete f) s = .next u ∧ (u.func f).flrBusy = false) ∧
   (∀ s : State, s.hif.linkUp = true → (s.func 0).flrBusy = false →
     ∃ u, exec .pf0Flr s = .next u ∧ u.hif.vfEnable = false ∧ u.hif.numVfs = 0) ∧
   (∀ s : State, s.pwr.dstate = .d0 → s.hif.linkUp = true →
     ∃ u, exec .d3hotEnter s = .next u ∧ u.pwr.dstate = .d3hot ∧ u.on domFRONT = false) ∧
   (∀ s : State, s.pwr.dstate = .d3hot → ∃ u, exec .d0Enter s = .next u ∧ u.pwr.dstate = .d0) ∧
   (∀ s : State, s.pwr.dstate = .d3hot →
     ∃ u, exec .d3coldEnter s = .next u ∧ u.pwr.dstate = .d3cold ∧ u.mem.cells = []) ∧
   (∀ s : State, s.pwr.dstate = .d3cold → ∃ u, exec .d3coldExit s = .next u ∧ u.pwr.dstate = .d0) ∧
   (∀ (d : Fin 16) (s : State), s.mayPower d = true → s.on d = false →
     ∃ u, exec (.domainPowerOn d) s = .next u ∧ u.on d = true) ∧
   (∀ (d : Fin 16) (s : State), d.val ∈ switched → s.on d = true → s.needed d = false →
     ∃ u, exec (.domainIdleOff d) s = .next u ∧ u.on d = false)) ∧
  ((∀ (fitMv : Nat) (dw : BitVec 16) (s : State), s.on domMGT = true →
     ∃ u, exec (.vgridEvaluate fitMv dw) s = .next u ∧ u.pwr.inputDw = dw ∧
       u.pwr.vact.toNat ≤ s.pwr.vact.toNat + 100) ∧
   (∀ (die : List Int) (stackC : List (Option Int)) (s : State), die.length = 64 → stackC.length = 4 →
     s.on domMGT = true → s.pwr.tripped = false → maxTemp die < 115 → maxTemp (stackC.filterMap id) < 105 →
     ∃ u, exec (.tempSample die stackC) s = .next u ∧ u.pwr.dieC = BitVec.ofInt 8 (maxTemp die) ∧
       u.pwr.dramC = BitVec.ofInt 8 (maxTemp (stackC.filterMap id))) ∧
   (∀ (q : Requester) (p : Fin 4) (v : BitVec 32) (s : State), access q (.blk (0x200010 + 4 * p)) true s = .go →
     20000 ≤ v.toNat % 2 ^ 18 → v.toNat % 2 ^ 18 ≤ 250000 →
     ∃ u, exec (.lineFreqWrite q p v) s = .next u ∧ (u.lineKhz p).toNat = v.toNat % 2 ^ 18) ∧
   (∀ (i : Fin 13) (s : State), bit s.clk.relock i = true → i.val < 9 ∨ (s.port (i - 9)).enable = false →
     ∃ u, exec (.pllLock i) s = .next u ∧ bit u.clk.locked i = true ∧ bit u.clk.relock i = false) ∧
   (∀ (i : Fin 13) (s : State), bit s.clk.relock i = true →
     ∃ u, exec (.pllLockTimeout i) s = .next u ∧ bit u.clk.lockFail i = true ∧ bit u.clk.relock i = false)) ∧
  ((∀ (t : Fin 64) (r : Fin 8) (why : ReadEnd) (a : BitVec 64) (s : State), s.fetchable t r = true →
     (why ≠ .timeout ∨ (s.func 0).ctoDisable = false) →
     ∃ u, exec (.hostReadFail (.descriptor t r) why a) s = .next u ∧ (u.ring t r).stopped = true) ∧
   (∀ (n : BitVec 16) (e ari : Bool) (s : State), s.hif.linkUp = true → (s.func 0).flrBusy = false →
     ∃ u, exec (.numvfsWrite n e ari) s = .next u ∧ u.hif.numVfs = n ∧ u.hif.ari = ari) ∧
   (∀ (t : Fin 64) (s : State), s.configurable t = true → (s.func t).bme = true →
     ∃ u, exec (.bmeClear t none) s = .next u ∧ (u.func t).bme = false) ∧
   (∀ (t : Fin 64) (s : State), s.configurable t = true → (s.func t).bme = false →
     ∃ u, exec (.bmeSet t) s = .next u ∧ (u.func t).bme = true) ∧
   (∀ (q : Requester) (i : Fin 49152) (v : BitVec 32) (s : State),
     access q (.blk (baseTEN + 0x10000 + 4 * i)) true s = .go → s.locked i = false → (s.mapEntry i).valid = false →
     bit v 31 = false → ∃ u, exec (.tenMapWrite q i v) s = .next u ∧ (u.mapEntry i).valid = false ∧
       (u.mapEntry i).ppn = fldv v 0 16) ∧
   (∀ (q : Requester) (t : Fin 64) (s : State), access q (.blk (tenBlock t)) true s = .go →
     (s.tenant t).enable = false → (s.tenant t).disabling = false → s.tenantExists t = true →
     (s.tenant t).mapBase.toNat + (s.tenant t).mapCount.toNat ≤ 49152 → s.overlaps t = false → s.scrubbing t = false →
     ∃ u, exec (.tenantEnable q t) s = .next u ∧ (u.tenant t).enable = true) ∧
   (∀ (q : Requester) (t : Fin 64) (s : State), access q (.blk (tenBlock t)) true s = .go →
     (s.tenant t).enable = true → (s.tenant t).disabling = false →
     ∃ u, exec (.tenantDisable q t) s = .next u ∧ (u.tenant t).disabling = true) ∧
   (∀ (t : Fin 64) (s : State), (s.tenant t).disabling = true → (∀ r ∈ ringsOf, (s.ring t r).inflight = []) →
     (s.tenant t).hintDue = false → ∃ u, exec (.tenantDisableDone t) s = .next u ∧
       (u.tenant t).enable = false ∧ (u.tenant t).disabling = false) ∧
   (∀ (q : Requester) (t : Fin 64) (s : State), access q (.blk (tenBlock t)) true s = .go → (s.tenant t).enable = false →
     ∃ u, exec (.tenantScrub q t) s = .next u ∧
       ∀ p ∈ s.pages t, u.ten.scrubQ.any (fun x => x.ppn == p.2 && x.owner == some t.val) = true) ∧
   (∀ (p : ScrubPage) (rest : List ScrubPage) (s : State), s.ten.scrubQ = p :: rest → s.pwr.dstate = .d0 →
     s.on (domMEM (p.ppn / stackPages)) = true → ∃ u, exec .pageZeroed s = .next u ∧ u.ten.scrubQ = rest ∧
       ∀ i < pageBytes, u.byte (p.ppn * pageBytes + i) = 0)) ∧
  ((∀ (q : Requester) (t : Fin 64) (r : Fin 8) (k : BitVec 5) (s : State),
     access q (.tpg t (ringCtl r)) true s = .go → (s.ring t r).enable = false → (s.ring t r).inflight = [] →
     4 ≤ k.toNat → k.toNat ≤ 16 →
     ∃ u, exec (.ringEnable q t r k) s = .next u ∧ (u.ring t r).enable = true ∧ (u.ring t r).k = k) ∧
   (∀ (q : Requester) (t : Fin 64) (r : Fin 8) (s : State), access q (.tpg t (ringCtl r)) true s = .go →
     ∃ u, exec (.ringDisable q t r) s = .next u ∧ (u.ring t r).enable = false) ∧
   (∀ (q : Requester) (t : Fin 64) (v : BitVec 32) (s : State), access q (.tpg t 0x308) true s = .go →
     ∃ u, exec (.pollPeriodWrite q t v) s = .next u ∧
       (u.tenant t).pollUs.toNat = max 1 (min 1000 (v.toNat % 1024))) ∧
   (∀ (t : Fin 64) (s : State), s.hif.cxl = true → s.hif.linkUp = true →
     ∃ u, exec (.chimeSnoop t true) s = .next u ∧ (u.tenant t).hintHeld = false ∧
       u.out = s.out ++ [.snoopAnswer (s.tenant t).hintHpa]) ∧
   (∀ (t : Fin 64) (s : State), s.hif.cxl = false → s.linkOk t = true → (s.tenant t).enable = true →
     s.boot.ready = true → ∃ u, exec (.chimePoll t) s = .next u ∧ (u.tenant t).polls = (s.tenant t).polls + 1 ∧
       u.out = s.out ++ [.readLine t (s.tenant t).chimeAddr]) ∧
   (∀ (t : Fin 64) (line : List Byte) (s : State), line.length = 64 → s.hif.cxl = true →
     (s.tenant t).chime = .reading → ∃ u, exec (.chimeLineData t line) s = .next u ∧ (u.tenant t).chime = .held) ∧
   (∀ (t : Fin 64) (r : Fin 8) (d : List (List Byte)) (s : State), 1 ≤ d.length → d.length ≤ 8 →
     (∀ x ∈ d, x.length = 64) → s.fetchable t r = true → d.length ≤ s.fetchLimit t r →
     ∃ u, exec (.descriptorFetch t r d) s = .next u ∧
       (u.ring t r).sqHead = (s.ring t r).sqHead + BitVec.ofNat 32 d.length ∧
       (u.ring t r).inflight.length = (s.ring t r).inflight.length + d.length) ∧
   (∀ (t : Fin 64) (s : State), s.hif.cxl = true → s.hif.linkUp = true → s.hif.l1 = false → s.pwr.dstate = .d0 →
     (s.func t).bme = true → (s.tenant t).enable = true → (s.tenant t).hintDue = true →
     ∃ u, exec (.tailHintWrite t) s = .next u ∧ (u.tenant t).hintDue = false ∧ (u.tenant t).hintHeld = true))

/-- The commands of completions, the Gong, Carillon, the grid, device memory and jobs each complete, with the effect
named: an entry is written, a stamp is given to its source, a source is presented, claimed, done or cleared, a message
is sent, a choke, a watchdog, a rate or a count is kept, a stack is patrolled, fenced or cool, a descriptor is answered
or admitted, a job is placed, passed on, spilled, restored or decided. -/
def Obligations.EventGridAndJobCommandsComplete : Prop :=
  ((∀ (t : Fin 64) (r : Fin 8) (d : Inflight) (rest : List Inflight) (c : Cpl) (s : State),
     (s.ring t r).inflight = d :: rest → d.st = .decided c → s.decision d = some c → s.linkOk t = true →
     s.firmware (coreOf t) = true → (s.ring t r).space = true → (s.ring t r).half = none →
     s.atPort (.completion t r) = [] → s.gongFree (gongPort (.completion t r)) = true →
     ∃ u, exec (.completionWrite t r false) s = .next u ∧ (u.ring t r).inflight = rest ∧
       (u.ring t r).cqTail = (s.ring t r).cqTail + 1 ∧ u.gng.next = s.gng.next + 1) ∧
   (∀ (t : Fin 64) (r : Fin 8) (s : State), (s.ring t r).enable = true → (s.ring t r).markerDue = true →
     (s.ring t r).inflight = [] → (s.ring t r).half = none → (s.ring t r).space = true → s.mayFetch t = true →
     s.atPort (.marker t r) = [] → s.gongFree (gongPort (.marker t r)) = true →
     ∃ u, exec (.epochMarker t r false) s = .next u ∧ (u.ring t r).markerDue = false ∧
       (u.ring t r).cqTail = (s.ring t r).cqTail + 1) ∧
   (∀ (n : Nat) (s : State), s.on domMGT = true → s.grantable (.source n) = true →
     ∃ u, exec (.gongGrant (.source n)) s = .next u ∧ (u.src n).stamp = s.gng.next ∧
       u.gng.held = s.gng.held.erase (.source n)) ∧
   (∀ (q : Requester) (s : State), access q (.blk 0x500000) false s = .go →
     ∃ u, exec (.gngNextRead q) s = .next u ∧ u.rdata = (s.gng.next.extractLsb' 0 32).zeroExtend 64) ∧
   (∀ (q : Requester) (s : State), access q (.blk 0x500010) false s = .go →
     ∃ u, exec (.gngHoldRead q) s = .next u ∧ u.gng.hold = 0) ∧
   (∀ (k : Fin 20) (b held : Bool) (s : State), s.ckAon = true → s.drivenOther k b = false → k.val < 16 ∨ b = true →
     ∃ u, exec (.glitchFilterOutput k b held) s = .next u ∧ bit u.car.levels k = b) ∧
   (∀ (n : Fin 512) (s : State), s.on domMGT = true → reservedSource n = false → isPin n = false →
     s.atPort (.source n) = [] → s.gongFree (gongPort (.source n)) = true →
     ∃ u, exec (.sourceEvent n false) s = .next u ∧ (u.src n).stamp = s.gng.next) ∧
   (∀ (k : Fin 20) (b : Bool) (s : State), s.on domAON = true → s.ckAon = false → bit s.car.latches k = false →
     senses (s.src (384 + k)).sense b = true → s.hif.pmeEn = false →
     ∃ u, exec (.pinLatchCatch k b) s = .next u ∧ bit u.car.latches k = true) ∧
   (∀ s : State, s.ckAon = true → s.on domMGT = true →
     ∃ u, exec .pinLatchReplay s = .next u ∧ u.car.latches = 0)) ∧
  ((∀ (q : Requester) (n : Fin 512) (v : BitVec 32) (s : State), access q (.blk (baseCAR + 4 * n)) true s = .go →
     (s.src n).active = false → (s.src n).presented = false → (s.src n).target = v.extractLsb' 15 3 →
     (s.src n).vector = v.extractLsb' 18 6 → (s.src n).sense = v.extractLsb' 12 3 →
     ∃ u, exec (.carSrcWrite q n v false) s = .next u ∧ (u.src n).priority = v.extractLsb' 24 8 ∧
       (u.src n).mask = bit v 10) ∧
   (∀ (n : Fin 512) (s : State), s.on domMGT = true → s.boot.stage = .running → (s.src n).target.toNat < 4 →
     s.selected n = true → ∃ u, exec (.sourceCommit n) s = .next u ∧ (u.src n).presented = true) ∧
   (∀ (c : Fin 4) (n : Nat) (s : State), access (.core c) (.blk (baseCAR + 0x4000 + 0x10 * c)) false s = .go →
     s.presentedTo c = some n → s.car.holdoff.find 0 (sourceGroup n) = 0 →
     ∃ u, exec (.carClaim (.core c) c) s = .next u ∧ u.rdata = (BitVec.ofNat 32 (n + 1)).zeroExtend 64 ∧
       (n, (s.src n).priority.toNat) ∈ u.claimed c) ∧
   (∀ (c : Fin 4) (v : BitVec 32) (s : State), access (.core c) (.blk (baseCAR + 0x4004 + 0x10 * c)) true s = .go →
     (s.claimed c).any (fun x => x.1 == fld v 0 9) = true →
     ∃ u, exec (.carDone (.core c) c v) s = .next u ∧ (u.claimed c).any (fun x => x.1 == fld v 0 9) = false) ∧
   (∀ (q : Requester) (w : Fin 16) (j : Fin 32) (s : State), access q (.blk (baseCAR + 0x800 + 4 * w)) true s = .go →
     ∃ u, exec (.carSwset q w (BitVec.ofNat 32 (2 ^ j.val))) s = .next u ∧
       (u.src (32 * w + j)).stamp = s.gng.next) ∧
   (∀ (q : Requester) (n : Fin 512) (v : BitVec 32) (s : State), access q (.blk (baseCAR + 0x1000 + 4 * n)) true s = .go →
     bit v 31 = true → ∃ u, exec (.carLostClear q n v) s = .next u ∧ (u.src n).lost = false ∧ (u.src n).count = 0) ∧
   (∀ (q : Requester) (n : Fin 512) (s : State), access q (.blk (baseCAR + 0x2000 + 8 * n)) false s = .go →
     ∃ u, exec (.carStampRead q n) s = .next u ∧ (u.src n).stampHi = (s.src n).stamp.extractLsb' 32 16) ∧
   (∀ (g : Fin 32) (s : State), ∃ u, exec (.holdoffExpire g) s = .next u ∧ bit u.car.inHoldoff g = false) ∧
   (∀ (t : Fin 64) (r : Fin 8) (s : State), (s.ring t r).uncovered ≠ 0 →
     ∃ u, exec (.coalesceTimerExpire t r) s = .next u ∧ (u.ring t r).uncovered = 0) ∧
   (∀ (q : Requester) (t : Fin 64) (r : Fin 8) (v : BitVec 32) (m : Bool) (s : State),
     access q (.tpg t (0x400 + 8 * r)) true s = .go → (s.ring t r).uncovered = 0 →
     ∃ u, exec (.coalWrite q t r v m) s = .next u ∧ (u.ring t r).coal.countM1 = v.extractLsb' 8 8 ∧
       (u.ring t r).coal.wake = bit v 0) ∧
   (∀ (t e : Fin 64) (s : State), s.tenantExists t = true → bit (s.func t).pba e = true → (s.func t).blocked e = false →
     s.pwr.dstate = .d0 → s.hif.l1 = false →
     ∃ u, exec (.msixUnblock t e) s = .next u ∧ bit (u.func t).pba e = false ∧ u.out = s.out ++ [.msix t e]) ∧
   (∀ (c e : Bool) (s : State), s.hif.linkUp = true → (s.func 0).flrBusy = false → s.car.latches = 0 →
     ∃ u, exec (.pmeConfigWrite c e) s = .next u ∧ u.hif.pmeEn = e) ∧
   (∀ s : State, s.hif.l1 = true → ∃ u, exec .l1ExitSend s = .next u ∧ u.hif.l1 = false)) ∧
  ((∀ (c : Fin 4) (v : BitVec 32) (s : State), access (.core c) (.blk baseGRD) true s = .go → s.grd.chokeBusy = false →
     fld v 10 3 ≤ 5 → ∃ u, exec (.grdChokeWrite (.core c) v) s = .next u ∧ u.grd.chokeBusy = true) ∧
   (∀ s : State, ∃ u, exec .chokeComplete s = .next u ∧ u.grd.chokeBusy = false) ∧
   (∀ (i : Fin 1024) (s : State), (s.tile i).running = true → (s.tile i).job = none →
     s.grd.wdogLimit.toNat ≤ (s.tile i).wdog.toNat →
     ∃ u, exec (.tileWatchdogExpire i) s = .next u ∧ (u.tile i).running = false ∧ (u.tile i).fault = 1) ∧
   (∀ (d : Fin 4) (s : State), s.on domMGT = true → ∃ u, exec (.qrateUpdate d) s = .next u ∧
     (u.grd.qrate.find {} d).tiles = BitVec.ofNat 16 (s.windowPaces d).length) ∧
   (∀ (q : Requester) (i : Fin 1024) (s : State), access q (.blk (tileReg i 0x8)) false s = .go →
     s.on (domGRID (quadrant i)) = true →
     ∃ u, exec (.paceRead q i) s = .next u ∧ (u.tile i).paceHi = (s.tile i).pace.extractLsb' 32 16) ∧
   (∀ (q : Requester) (s : State), access q (.blk (baseGRD + 0x30)) false s = .go →
     ∃ u, exec (.fenceStatRead q) s = .next u ∧ u.grd.fenceCount = 0) ∧
   (∀ (k : Fin 4) (s : State), s.on (domMEM k) = true → s.pwr.dstate = .d0 → s.dramHeld k = false →
     ∃ u, exec (.patrolRead k none) s = .next u ∧
       (s.beat (k * stackBytes + (s.stack k).patrol) = none →
         (u.stack k).patrol = ((s.stack k).patrol + 8) % stackBytes)) ∧
   (∀ (q : Requester) (k : Fin 4) (v : BitVec 32) (s : State), access q (.blk (baseMEM + 0x80)) true s = .go →
     keyed v = true → fld v 0 4 = 2 ^ k.val →
     ∃ u, exec (.memFenceCmd q v) s = .next u ∧ (u.stack k).fenced = true) ∧
   (∀ (q : Requester) (k : Fin 4) (s : State), access q (.blk (baseMEM + 0x50 + 4 * k)) false s = .go →
     ∃ u, exec (.memCeRead q k) s = .next u ∧ (u.stack k).ce = 0) ∧
   (∀ (q : Requester) (k : Fin 4) (s : State), access q (.blk (baseMEM + 0x60 + 4 * k)) false s = .go →
     ∃ u, exec (.memUeRead q k) s = .next u ∧ (u.stack k).ue = 0) ∧
   (∀ (k : Fin 4) (s : State), (s.stack k).hot = true → 100 ≤ (s.stack k).cool →
     ∃ u, exec (.stackCool k) s = .next u ∧ (u.stack k).hot = false)) ∧
  ((∀ (t : Fin 64) (r : Fin 8) (d : Inflight) (s : State), (s.ring t r).unchecked = some d → le d.desc 0 1 = 0 →
     s.firmware (coreOf t) = true → badByte d.seq d.desc = none →
     ∃ u, exec (.nopDescriptor t r) s = .next u ∧
       ∃ e ∈ (u.ring t r).inflight, e.seq = d.seq ∧ e.st = .decided (cpl stOk 0)) ∧
   (∀ (t : Fin 64) (r : Fin 8) (hdr : List Byte) (d : Inflight) (m : Option Dims) (p : Parsed) (b v s : State),
     (s.ring t r).unchecked = some d → le d.desc 0 1 ≠ 0 → fenced d.desc = false →
     (s.ring t r).clearBefore d.seq = true → s.checking t = true → s.checkWaits t d.desc = false →
     s.Passes t r d hdr m p b v →
     ∃ u, exec (.job t r hdr) s = .next u ∧ u.sch.jobs.length = s.sch.jobs.length + 1 ∧
       u.sch.nextJob = s.sch.nextJob + 1) ∧
   (∀ (t : Fin 64) (r : Fin 8) (hdr : List Byte) (d : Inflight) (rest : List Inflight) (m : Option Dims) (p : Parsed)
     (b v s : State),
     (s.ring t r).inflight = d :: rest → d.st = .fetched → le d.desc 0 1 ≠ 0 → fenced d.desc = true →
     s.checking t = true → s.checkWaits t d.desc = false → s.Passes t r d hdr m p b v →
     ∃ u, exec (.fencedAdmit t r hdr) s = .next u ∧ u.sch.jobs.length = s.sch.jobs.length + 1 ∧
       u.sch.nextJob = s.sch.nextJob + 1) ∧
   (∀ (id o : Nat) (j : Job) (v : State) (s : State), s.order = [id] → s.job? id = some j → j.queued = true →
     s.placing j.tenant = true → s.heldBack j = false → j.kept = none → j.phase = .waiting →
     j.find (s.tileFree id) = some o → s.claimedAny j.tenant j.programs = false →
     readRegions schBlock id j.tenant j.programs (powerQuadrants (rect o j.man.width j.man.height) s) = (true, v) →
     ∃ u, exec .jobPlace s = .next u ∧ (u.job? id).any (fun x => x.phase == .running && x.origin == o) = true) ∧
   (∀ (id : Nat) (j : Job) (p : Nat) (s : State), s.job? id = some j → j.queued = true → j.passedAt = some p →
     p + 2500000 ≤ s.now → ∃ u, exec (.starveTimeout id) s = .next u ∧ (u.job? id).any (·.starving) = true) ∧
   (∀ (k id o : Nat) (j : Job) (s : State), s.job? k = some j → s.sliceClaim j = some (id, o) →
     ∃ u, exec (.sliceExpire k) s = .next u ∧ (u.job? id).any (·.kept == some o) = true) ∧
   (∀ (id : Nat) (j : Job) (s : State), s.job? id = some j → j.phase = .preempting → s.quiet j = true →
     j.tiles.any (fun i => (s.tile i).atBar) = true →
     ∃ u, exec (.spillStart id) s = .next u ∧ (u.job? id).any (·.phase == .spilling) = true) ∧
   (∀ (id : Nat) (j : Job) (s : State), s.job? id = some j → j.phase = .spilling →
     s.claimedIn j.tenant (s.spillAddr j.tenant j.spillFirst) (72 * j.spillLines) = false →
     (∀ i ∈ j.tiles, (s.tile i).spillParity j.man.decls = none) →
     ∃ u, exec (.spillComplete id) s = .next u ∧ (u.job? id).any (·.phase == .spilled) = true) ∧
   (∀ (id : Nat) (j : Job) (v : State) (s : State), s.job? id = some j → j.phase = .spilled → j.kept = some j.origin →
     j.tiles.all (s.tileFree id) = true → s.placing j.tenant = true →
     s.claimedAny j.tenant (j.programs ++ s.slotRegions j) = false →
     readRegions schBlock id j.tenant (j.programs ++ s.slotRegions j) (powerQuadrants j.tiles s) = (true, v) →
     ∃ u, exec (.jobRestore id) s = .next u ∧ (u.job? id).any (·.phase == .running) = true) ∧
   (∀ (i : Fin 1024) (id : Nat) (j : Job) (s : State), (s.tile i).job = some id → (s.tile i).running = true →
     500 * (s.tile i).interval ≤ (s.tile i).barTime → s.job? id = some j →
     ∃ u, exec (.barTimeout i) s = .next u ∧ (u.job? id).any (·.result.isSome) = true) ∧
   (∀ (id : Nat) (j : Job) (c h : Fmt) (v : State) (s : State), s.job? id = some j → j.phase = .output →
     j.man.outStage = 1 → j.stageDue = true → s.linkOk j.tenant = true →
     s.claimedIn j.tenant j.man.outRegion j.man.outBytes = false →
     readRegions schBlock id j.tenant [(j.man.outRegion, j.man.outBytes)] s = (true, v) →
     Fmt.ofCode j.man.outCardFmt = some c → Fmt.ofCode (dOutFmt j.desc) = some h →
     ∃ u, exec (.outputStageCopy id) s = .next u ∧ (u.job? id).any (fun x => !x.stageDue) = true) ∧
   (∀ (id : Nat) (j : Job) (s : State), s.job? id = some j → j.phase = .output → j.stageDue = false → j.pictures = 0 →
     ∃ u, exec (.jobComplete id) s = .next u ∧ (u.job? id).any (·.result.isSome) = true) ∧
   (∀ (j : Job) (s : State), s.on domMGT = true → s.sch.jobs = [j] → ∃ u, exec .usedUpdate s = .next u ∧
     (u.schTen j.tenant).used = (s.schTen j.tenant).used + BitVec.ofNat 64 (j.tileUs - j.charged)) ∧
   (∀ (q : Requester) (t : Fin 64) (s : State), access q (.blk (baseSCH t + 0x18)) false s = .go →
     ∃ u, exec (.usedRead q t) s = .next u ∧ (u.schTen t).usedHi = (s.schTen t).used.extractLsb' 32 32))

/-- The commands of the Woodblock, the Roll unit, Intake, Paradiddle and the Damper each complete, with the effect
named: a register has its new value, a count is read and cleared, a port, a line, a queue, a sample, a table or a stream
goes on to its next state. -/
def Obligations.TimerLineAndTableCommandsComplete : Prop :=
  ((∀ s : State, s.on domMGT = true → s.wbk.time = BitVec.allOnes 40 →
     ∃ u, exec .timeWrap s = .next u ∧ u.wbk.time = 0 ∧ u.wbk.wrap = s.wbk.wrap + 1) ∧
   (∀ (q : Requester) (s : State), access q (.blk 0x700000) false s = .go →
     ∃ u, exec (.wbkTimeRead q) s = .next u ∧ u.wbk.timeHi = s.wbk.time.extractLsb' 32 8) ∧
   (∀ (p : Fin 4) (a b : Bool) (s : State), ∃ u, exec (.posCount p a b) s = .next u ∧
     bit u.wbk.pins (16 + 2 * p) = a ∧ bit u.wbk.pins (17 + 2 * p) = b) ∧
   (∀ (q : Requester) (p : Fin 4) (s : State), access q (.blk (basePOS p + 0xC)) false s = .go →
     ∃ u, exec (.posErrRead q p) s = .next u ∧ (u.pos p).err = 0) ∧
   (∀ (q : Requester) (p : Fin 4) (v : BitVec 32) (s : State), access q (.blk (basePOS p + 4)) true s = .go →
     ∃ u, exec (.posSet q p v) s = .next u ∧ (u.pos p).val = v) ∧
   (∀ (q : Requester) (k : Fin 16) (v : BitVec 32) (s : State), access q (.blk (baseCH k)) true s = .go →
     (q = .fn 0 → s.owned k = false) → (s.chan k).armed = false → bit v 31 = false → fld v 12 3 ≤ 4 →
     fld v 10 2 ≠ 3 → fld v 5 5 ≤ 27 → ∃ u, exec (.channelCtlWrite q k v) s = .next u ∧
       (u.chan k).mode = v.extractLsb' 10 2 ∧ (u.chan k).base = v.extractLsb' 12 3 ∧
       (u.chan k).capSrc = v.extractLsb' 5 5 ∧ (u.chan k).armed = false) ∧
   (∀ (q : Requester) (k : Fin 16) (v : BitVec 32) (s : State), access q (.blk (baseCH k + 4)) true s = .go →
     (q = .fn 0 → s.owned k = false) →
     ∃ u, exec (.cmpWrite q k false v) s = .next u ∧ (u.chan k).cmp.extractLsb' 0 32 = v) ∧
   (∀ (k : Fin 16) (s : State), s.on domMGT = true → (s.chan k).armed = true → (s.chan k).mode = 1 →
     (s.chan k).base = 0 → (s.chan k).cmp = s.wbk.time → (s.chan k).matched = false →
     ∃ u, exec (.timeMatch k) s = .next u ∧ (u.chan k).matched = true) ∧
   (∀ (i : Fin 28) (e : Bool) (s : State), s.drivenOther i e = false →
     ∃ u, exec (.capture i e) s = .next u ∧ bit u.wbk.pins i = e) ∧
   (∀ (q : Requester) (k : Fin 16) (s : State), access q (.blk (baseCH k + 0x18)) false s = .go →
     ∃ u, exec (.capRead q k) s = .next u ∧ (u.chan k).captured = false ∧
       u.rdata = ((s.chan k).cap.extractLsb' 0 32).zeroExtend 64) ∧
   (∀ (k : Fin 16) (s : State), (s.chan k).pulse = 1 →
     ∃ u, exec (.pulseEnd k) s = .next u ∧ (u.chan k).pulse = 0 ∧ (u.chan k).level = false)) ∧
  ((∀ (q : Requester) (p : Fin 4) (v : BitVec 32) (s : State), access q (.blk (baseROL p)) true s = .go →
     (s.port p).enable = false → bit v 31 = true →
     (let x : Port := { s.port p with motion := bit v 30, hostRead := bit v 28 }
      (s.setPort p x).enableErr p x = 0) →
     ∃ u, exec (.portEnable q p v) s = .next u ∧ (u.port p).enable = true ∧ (u.port p).state = .train) ∧
   (∀ (q : Requester) (p : Fin 4) (s : State), access q (.blk (baseROL p)) true s = .go → (s.port p).enable = true →
     ∃ u, exec (.portDisable q p) s = .next u ∧ (u.port p).enable = false) ∧
   (∀ (p : Fin 4) (pairs : List (List (BitVec 16))) (s : State), (s.port p).enable = true → s.on domFRONT = true →
     s.suppressed p = false → (s.port p).aligned pairs = true → (s.port p).state = .train →
     ∃ u, exec (.trainingDone p pairs) s = .next u ∧ (u.port p).state = .run) ∧
   (∀ (p : Fin 4) (s : State), (s.port p).enable = true → (s.port p).state = .train →
     ∃ u, exec (.trainingTimeout p) s = .next u ∧ (u.port p).enable = false ∧ (u.port p).err = 4) ∧
   (∀ (p : Fin 4) (received : Bool) (pos : BitVec 32) (rest : List (BitVec 32)) (s : State),
     (s.port p).requests = pos :: rest → (s.port p).enable = true → (s.port p).state = .run → s.on domFRONT = true →
     (s.port p).q = none → (s.setPort p { s.port p with requests := rest }).issues p received = true →
     ∃ u, exec (.triggerRequest p received) s = .next u ∧ (u.port p).requests = rest ∧
       (u.port p).issued.length = (s.port p).issued.length + 1) ∧
   (∀ (p : Fin 4) (l : Issued) (s : State), (s.port p).issued.getLast? = some l →
     ∃ u, exec (.solTimeout p) s = .next u ∧ (u.port p).framing = satInc (s.port p).framing ∧
       (u.port p).issued = (s.port p).issued.dropLast) ∧
   (∀ (p : Fin 4) (received : Bool) (s : State), (s.port p).enable = true → s.on domFRONT = true →
     (s.port p).state ≠ .train → (received = true ∨ (s.port p).issued = []) →
     ∃ u, exec (.syncWithoutTrigger p received) s = .next u ∧ (u.port p).framing = satInc (s.port p).framing) ∧
   (∀ (p : Fin 4) (l : Issued) (rest : List Issued) (pairs : List (List Bool)) (s : State),
     (s.port p).issued = l :: rest → (s.port p).framed pairs = true → s.on domFRONT = true →
     ∃ u, exec (.lineStored p pairs) s = .next u ∧ (u.port p).wr = (s.port p).wr + 1 ∧ (u.port p).issued = rest) ∧
   (∀ (p : Fin 4) (s : State), (s.port p).enable = true → s.on domFRONT = true → (s.port p).state = .stopping →
     (s.port p).mfltStop = false → ∃ u, exec (.settleExpire p) s = .next u ∧ (u.port p).state = .waitLow) ∧
   (∀ (p : Fin 4) (s : State), (s.port p).enable = true → s.on domFRONT = true → (s.port p).kind ≠ 2 →
     s.group p = [p.val] → (s.port p).state = .waitLow → (s.port p).fill ≤ (s.port p).lw.toNat →
     s.mfltHigh p = true → atOrBelow (s.pos (s.posOf p)).val (s.groupB [p.val]) = true →
     ∃ u, exec (.lowWaterReached p) s = .next u ∧ (u.port p).state = .settleBack) ∧
   (∀ (p : Fin 4) (s : State), access (.fn 0) (.blk (baseROL p)) true s = .go → (s.port p).state = .fault →
     s.mfltHigh p = true → ∃ u, exec (.portResume (.fn 0) p) s = .next u ∧ (u.port p).state = .waitLow) ∧
   (∀ (q : Requester) (p : Fin 4) (on : Bool) (s : State), access q (.blk (baseROL p)) true s = .go →
     ∃ u, exec (.motionWrite q p on) s = .next u ∧ (u.port p).motion = on) ∧
   (∀ (q : Requester) (p : Fin 4) (v : BitVec 32) (s : State), access q (.blk (baseROL p + 0x40)) true s = .go →
     ∃ u, exec (.rdWrite q p false v) s = .next u ∧ (u.port p).rdLo = v) ∧
   (∀ (q : Requester) (p : Fin 4) (s : State), access q (.blk (baseROL p + 0x38)) false s = .go →
     ∃ u, exec (.wrRead q p) s = .next u ∧ (u.port p).wrHi = (s.port p).wr.extractLsb' 32 32) ∧
   (∀ (q : Requester) (p : Fin 4) (s : State), access q (.blk (baseROL p + 0x54)) false s = .go →
     ∃ u, exec (.errcntRead q p) s = .next u ∧ (u.port p).framing = 0 ∧ (u.port p).refused = 0)) ∧
  ((∀ (q : Requester) (n : Fin 16) (v : BitVec 32) (s : State), access q (.blk (baseINK n)) true s = .go →
     (s.queue n).enable = false → bit v 31 = true →
     s.queueErr { s.queue n with
       cfg := v &&& 0x6FE0003F, tags := if bit v 28 then [] else (s.queue n).tags } = 0 →
     ∃ u, exec (.queueEnable q n v) s = .next u ∧ (u.queue n).enable = true ∧ (u.queue n).samples = []) ∧
   (∀ (q : Requester) (n : Fin 16) (s : State), access q (.blk (baseINK n)) true s = .go →
     ∃ u, exec (.cacheFlush q n) s = .next u ∧ (u.queue n).tags = []) ∧
   (∀ (q : Requester) (n : Fin 16) (s : State), access q (.blk (baseINK n + 0x2C)) false s = .go →
     ∃ u, exec (.inkHitsRead q n) s = .next u ∧ (u.queue n).hits = 0 ∧ (u.queue n).misses = 0) ∧
   (∀ (n : Fin 16) (y : Sample) (j : Job) (s : State), s.cutting n = some (y, j) → s.inkServes n = true →
     4 ≤ (s.queue n).kind → y.cut = false → y.budget = 0 →
     ∃ u, exec (.sampleCutStart n) s = .next u ∧ (u.queue n).count = (s.queue n).count + 1) ∧
   (∀ (n : Fin 16) (y : Sample) (j : Job) (v : State) (s : State), s.cutting n = some (y, j) → s.inkServes n = true →
     (s.queue n).kind = 4 → y.cut = true → y.taken < y.lines → 0 < (s.port (s.queue n).port).fill →
     (s.port (s.queue n).port).hostRead = false →
     (let p := s.port (s.queue n).port
      s.claimedAny p.tenant.toNat [(p.slotAddr p.rd, p.slotBytes)] = false ∧
      readRegions inkBlock j.id p.tenant.toNat [(p.slotAddr p.rd, p.slotBytes)] s = (true, v)) →
     ∃ u, exec (.ringLineConsume n) s = .next u ∧
       (u.port (s.queue n).port).rd = (s.port (s.queue n).port).rd + 1) ∧
   (∀ (n : Fin 16) (y : Sample) (j : Job) (k : Nat) (v : State) (s : State), s.cutting n = some (y, j) →
     s.feeder n = some k → s.inkServes n = true → (s.queue n).kind = 5 → y.cut = true → y.taken = 0 →
     (let c := s.stream k
      c.outWr ≠ c.outRd ∧ s.claimedAny c.tenant [c.slotAt c.outRd] = false ∧
      readRegions inkBlock j.id c.tenant [c.slotAt c.outRd] s = (true, v)) →
     ∃ u, exec (.pictureTake n) s = .next u ∧ (u.stream k).outRd = (s.stream k).outRd + 1) ∧
   (∀ (n : Fin 16) (id : Nat) (input : List Byte) (y : Sample) (j : Job) (f : DecodeFault) (s : State),
     s.sampleFor n id = some y → s.job? id = some j → s.decodes n y j = true →
     decodePlanes (s.queue n).kind j.srcDims (input.take (dInLen j.desc)) = .error f →
     ∃ u, exec (.decodeFail n id input) s = .next u ∧ (u.job? id).any (·.result.isSome) = true ∧
       (u.sampleFor n id).any (·.complete) = true) ∧
   (∀ (n : Fin 16) (id : Nat) (input : List Byte) (y : Sample) (j : Job) (ps : List (List Byte)) (used : Nat) (s : State),
     s.sampleFor n id = some y → s.job? id = some j → s.decodes n y j = true →
     decodePlanes (s.queue n).kind j.srcDims (input.take (dInLen j.desc)) = .ok (ps, used) →
     s.claimedAny j.tenant (s.sampleWrites n j y) = false →
     (∀ r ∈ s.sampleWrites n j y, s.mapped j.tenant r.1 r.2 = true) →
     ∃ u, exec (.sampleComplete n id input) s = .next u ∧ (u.sampleFor n id).any (·.complete) = true) ∧
   (∀ (n : Fin 16) (y : Sample) (rest : List Sample) (s : State), (s.queue n).samples = y :: rest →
     s.sampleDone n y = true → ∃ u, exec (.sampleForward n) s = .next u ∧ (u.queue n).samples = rest) ∧
   (∀ (id : Nat) (input : List Byte) (j : Job) (f : Fmt) (s : State), s.job? id = some j → j.loadDue = true →
     j.result = none → s.on domFRONT = true → s.linkOk j.tenant = true → Fmt.ofCode (dInFmt j.desc) = some f →
     (let region := (72 * dParam j.desc, 72 * ceilDiv
        (loadNonets f (dInWide j.desc) (dZero j.desc) (input.take (dInLen j.desc))).length 64)
      s.claimedAny j.tenant [region] = false ∧ s.mapped j.tenant region.1 region.2 = true) →
     ∃ u, exec (.directLoadDone id input) s = .next u ∧ (u.job? id).any (fun x => !x.loadDue) = true)) ∧
  ((∀ (q : Requester) (t : Fin 64) (s : State), access q (.blk (baseTOK t)) true s = .go → s.tokLocked t = false →
     (∃ u, exec (.tokLoad q t) s = .next u ∧ (u.tokTen t).checking = .set) ∧
     ((s.tokTen t).tokValid = true → ∃ u, exec (.gramLoad q t) s = .next u ∧ (u.tokTen t).checking = .grammar) ∧
     (∃ u, exec (.tokClear q t) s = .next u ∧ (u.tokTen t).tokValid = false ∧ (u.tokTen t).gramValid = false) ∧
     (∃ u, exec (.gramClear q t) s = .next u ∧ (u.tokTen t).gramValid = false)) ∧
   (∀ (t : Fin 64) (s : State), (s.tokTen t).checking = .set → s.on domTOK = true →
     s.claimedAny t (s.setReads t) = false →
     ∃ u, exec (.tokCheckDone t) s = .next u ∧ (u.tokTen t).checking = .none) ∧
   (∀ (t : Fin 64) (s : State), (s.tokTen t).checking = .grammar → s.on domTOK = true →
     s.claimedAny t (s.gramReads t) = false →
     ∃ u, exec (.gramCheckDone t) s = .next u ∧ (u.tokTen t).checking = .none) ∧
   (∀ (q : Requester) (s : State), access q (.blk 0xE00010) false s = .go →
     ∃ u, exec (.tokLoadsRead q) s = .next u ∧ u.tok.loadsTok = 0 ∧ u.tok.loadsDamp = 0) ∧
   (∀ (x : TokStream) (rest : List TokStream) (s : State), s.tok.streams = x :: rest → s.liveStreams = x :: rest →
     s.on domTOK = true → s.tok.serving = false → s.tok.onDie = some x.tenant →
     (x.detok = false → ∃ u, exec .tokenStreamStart s = .next u ∧ u.tok.serving = true) ∧
     (x.detok = true → ∃ u, exec (.detokenizeStart x.job) s = .next u ∧ u.tok.serving = true)) ∧
   (∀ (x : TokStream) (rest : List TokStream) (input : List Byte) (j : Job) (s : State), s.tok.streams = x :: rest →
     s.liveStreams = x :: rest → s.on domTOK = true → s.tok.serving = true → x.detok = false → s.job? x.job = some j →
     s.linkOk j.tenant = true → s.claimedAny j.tenant [s.streamRegion j] = false →
     s.mapped j.tenant (s.streamRegion j).1 (s.streamRegion j).2 = true →
     ∃ u, exec (.tokenStreamComplete input) s = .next u ∧ u.tok.streams = rest ∧ u.tok.serving = false) ∧
   (∀ (x : TokStream) (rest : List TokStream) (j : Job) (s : State), s.tok.streams = x :: rest →
     s.liveStreams = x :: rest → s.on domTOK = true → s.tok.serving = true → x.detok = true → s.job? x.job = some j →
     s.linkOk j.tenant = true → s.claimedIn j.tenant j.man.outRegion j.man.outBytes = false →
     ∃ u, exec (.detokenizeDone x.job) s = .next u ∧ u.tok.streams = rest ∧ u.tok.serving = false) ∧
   (∀ (i : Fin 1024) (t : Fin 64) (slot : Fin 1024) (n : Nat) (x : Xfer) (s : State), s.on domTOK = true →
     slot.val < (s.tokTen t).slots.toNat → s.tok.damps.length < 256 →
     s.requestXfer i t ((s.tokTen t).dampReq.toNat + slot) 8 = some (n, x) →
     ∃ u, exec (.damperRequest i t slot) s = .next u ∧ u.tok.damps.length = s.tok.damps.length + 1) ∧
   (∀ (r : DampReq) (rest : List DampReq) (s : State), s.tok.damps = r :: rest → s.on domTOK = true →
     (s.tokTen r.tenant).gramValid = true → s.tok.dampOn = some r.tenant →
     ∃ u, exec .damperService s = .next u ∧ u.tok.damps = rest))

end
end

