-- ==== Sys2Proof/Laws/Table.lean ====
section
/-!
SUPPORT. Sparse tables: a read after a write, and the canonical form is kept.
-/
namespace Sys2Proof

variable {α : Type} (d : α)

theorem Tbl.find_remove_same (t : Tbl α) (n : Nat) : Tbl.find d (Tbl.remove t n) n = d := by
  induction t with
  | nil => rfl
  | cons e t ih =>
    obtain ⟨k, v⟩ := e
    simp only [Tbl.remove]
    split
    · exact ih
    · next h => simp [Tbl.find, h, ih]

theorem Tbl.find_remove_other (t : Tbl α) {n m : Nat} (h : m ≠ n) :
    Tbl.find d (Tbl.remove t n) m = Tbl.find d t m := by
  induction t with
  | nil => rfl
  | cons e t ih =>
    obtain ⟨k, v⟩ := e
    by_cases hk : k = n
    · have : k ≠ m := fun e => h (e ▸ hk)
      simp [Tbl.remove, Tbl.find, hk, ih, Ne.symm h]
    · simp [Tbl.remove, Tbl.find, hk, ih]

theorem Tbl.find_insert_same (t : Tbl α) (n : Nat) (x : α) : Tbl.find d (Tbl.insert t n x) n = x := by
  induction t with
  | nil => simp [Tbl.insert, Tbl.find]
  | cons e t ih =>
    obtain ⟨k, v⟩ := e
    by_cases hk : k < n
    · have : k ≠ n := by omega
      simp [Tbl.insert, Tbl.find, hk, this, ih]
    · simp [Tbl.insert, Tbl.find, hk]

theorem Tbl.find_insert_other (t : Tbl α) {n m : Nat} (x : α) (h : m ≠ n) :
    Tbl.find d (Tbl.insert t n x) m = Tbl.find d t m := by
  induction t with
  | nil => simp [Tbl.insert, Tbl.find, Ne.symm h]
  | cons e t ih =>
    obtain ⟨k, v⟩ := e
    by_cases hk : k < n
    · simp [Tbl.insert, Tbl.find, hk, ih]
    · simp [Tbl.insert, Tbl.find, hk, Ne.symm h]

/-- A read after a write to the same key. -/
@[simp] theorem Tbl.find_put_same [DecidableEq α] (t : Tbl α) (n : Nat) (x : α) :
    Tbl.find d (Tbl.put d t n x) n = x := by
  unfold Tbl.put
  split
  · next h => rw [h]; exact Tbl.find_remove_same d t n
  · exact Tbl.find_insert_same d _ n x

/-- A write leaves every other key alone. -/
theorem Tbl.find_put_other [DecidableEq α] (t : Tbl α) {n m : Nat} (x : α) (h : m ≠ n) :
    Tbl.find d (Tbl.put d t n x) m = Tbl.find d t m := by
  unfold Tbl.put
  split
  · exact Tbl.find_remove_other d t h
  · rw [Tbl.find_insert_other d _ x h, Tbl.find_remove_other d t h]

/-- Both at once. -/
theorem Tbl.find_put [DecidableEq α] (t : Tbl α) (n m : Nat) (x : α) :
    Tbl.find d (Tbl.put d t n x) m = if m = n then x else Tbl.find d t m := by
  split
  · next h => rw [h, Tbl.find_put_same]
  · next h => exact Tbl.find_put_other d t x h

/-! ## The canonical form -/

theorem Tbl.remove_insert (t : Tbl α) (n : Nat) (x : α) :
    Tbl.remove (Tbl.insert t n x) n = Tbl.remove t n := by
  induction t with
  | nil => simp [Tbl.insert, Tbl.remove]
  | cons e rest ih =>
    obtain ⟨k, v⟩ := e
    by_cases h : k < n
    · have : k ≠ n := by omega
      simp [Tbl.insert, Tbl.remove, h, this, ih]
    · simp [Tbl.insert, Tbl.remove, h]

theorem Tbl.remove_remove (t : Tbl α) (n : Nat) : Tbl.remove (Tbl.remove t n) n = Tbl.remove t n := by
  induction t with
  | nil => rfl
  | cons e rest ih =>
    obtain ⟨k, v⟩ := e
    by_cases h : k = n <;> simp [Tbl.remove, h, ih]

/-- The second of two writes of one key is the one that stands. -/
@[simp] theorem Tbl.put_put [DecidableEq α] (t : Tbl α) (n : Nat) (x y : α) :
    Tbl.put d (Tbl.put d t n x) n y = Tbl.put d t n y := by
  unfold Tbl.put
  split <;> split <;> simp [Tbl.remove_insert, Tbl.remove_remove]

/-- Keys strictly rising and above a bound, as a proposition. -/
theorem Tbl.rising_iff (b : Option Nat) (t : Tbl α) :
    Tbl.rising b t = true ↔ (t.map (·.1)).Pairwise (· < ·) ∧ ∀ e ∈ t, ∀ k, b = some k → k < e.1 := by
  induction t generalizing b with
  | nil => simp [Tbl.rising]
  | cons e t ih =>
    obtain ⟨k, v⟩ := e
    cases b with
    | none =>
      simp only [Tbl.rising, ih]
      simp only [List.map_cons, List.pairwise_cons, List.mem_map, List.mem_cons]
      constructor
      · rintro ⟨h1, h2⟩
        exact ⟨⟨by rintro a ⟨e, he, rfl⟩; exact h2 e he k rfl, h1⟩, by simp⟩
      · rintro ⟨⟨h1, h2⟩, -⟩
        exact ⟨h2, by rintro e he k' hk; cases hk; exact h1 _ ⟨e, he, rfl⟩⟩
    | some b =>
      simp only [Tbl.rising, ih, Bool.and_eq_true, decide_eq_true_eq]
      simp only [List.map_cons, List.pairwise_cons, List.mem_map, List.mem_cons]
      constructor
      · rintro ⟨hb, h1, h2⟩
        refine ⟨⟨by rintro a ⟨e, he, rfl⟩; exact h2 e he k rfl, h1⟩, ?_⟩
        rintro e (rfl | he) k' hk
        · cases hk; exact hb
        · cases hk; have := h2 e he k rfl; omega
      · rintro ⟨⟨h1, h2⟩, h3⟩
        exact ⟨h3 _ (.inl rfl) b rfl, h2, by rintro e he k' hk; cases hk; exact h1 _ ⟨e, he, rfl⟩⟩

/-- The canonical form, as a proposition. -/
theorem Tbl.wf_iff [DecidableEq α] (t : Tbl α) :
    Tbl.wf d t = true ↔ (t.map (·.1)).Pairwise (· < ·) ∧ ∀ e ∈ t, e.2 ≠ d := by
  simp [Tbl.wf, Tbl.rising_iff, List.all_eq_true]

theorem Tbl.remove_eq_filter (t : Tbl α) (n : Nat) : Tbl.remove t n = t.filter (fun e => e.1 != n) := by
  induction t with
  | nil => rfl
  | cons e t ih =>
    obtain ⟨k, v⟩ := e
    by_cases hk : k = n <;> simp [Tbl.remove, hk, ih]

/-- A table with entries taken out stays canonical. -/
theorem Tbl.wf_filter [DecidableEq α] {t : Tbl α} (p : Nat × α → Bool) (h : Tbl.wf d t = true) :
    Tbl.wf d (t.filter p) = true := by
  rw [Tbl.wf_iff] at *
  refine ⟨List.Pairwise.sublist (List.Sublist.map _ List.filter_sublist) h.1, fun e he => ?_⟩
  exact h.2 e (List.mem_filter.1 he).1

theorem Tbl.mem_insert (t : Tbl α) (n : Nat) (x : α) (e : Nat × α) :
    e ∈ Tbl.insert t n x ↔ e = (n, x) ∨ e ∈ t := by
  induction t with
  | nil => simp [Tbl.insert]
  | cons a t ih =>
    obtain ⟨k, v⟩ := a
    simp only [Tbl.insert]
    split
    · simp only [List.mem_cons, ih]; tauto
    · simp only [List.mem_cons]

theorem Tbl.pairwise_insert (t : Tbl α) (n : Nat) (x : α) (h : (t.map (·.1)).Pairwise (· < ·))
    (hn : ∀ e ∈ t, e.1 ≠ n) : ((Tbl.insert t n x).map (·.1)).Pairwise (· < ·) := by
  induction t with
  | nil => simp [Tbl.insert]
  | cons a t ih =>
    obtain ⟨k, v⟩ := a
    simp only [List.map_cons, List.pairwise_cons] at h
    have hk : k ≠ n := hn _ (List.mem_cons_self ..)
    simp only [Tbl.insert]
    split
    · next hlt =>
      simp only [List.map_cons, List.pairwise_cons]
      refine ⟨?_, ih h.2 (fun e he => hn e (List.mem_cons_of_mem _ he))⟩
      intro a ha
      obtain ⟨e, he, rfl⟩ := List.mem_map.1 ha
      rcases (Tbl.mem_insert t n x e).1 he with rfl | he
      · exact hlt
      · exact h.1 _ (List.mem_map.2 ⟨e, he, rfl⟩)
    · next hlt =>
      simp only [List.map_cons, List.pairwise_cons]
      refine ⟨?_, h⟩
      intro a ha
      rcases List.mem_cons.1 ha with rfl | ha
      · omega
      · have := h.1 a ha; omega

/-- A write keeps the canonical form. -/
theorem Tbl.wf_put [DecidableEq α] {t : Tbl α} (n : Nat) (x : α) (h : Tbl.wf d t = true) :
    Tbl.wf d (Tbl.put d t n x) = true := by
  have hr : Tbl.wf d (Tbl.remove t n) = true := by rw [Tbl.remove_eq_filter]; exact Tbl.wf_filter d _ h
  unfold Tbl.put
  split
  · exact hr
  · next hx =>
    rw [Tbl.wf_iff] at *
    refine ⟨Tbl.pairwise_insert _ n x hr.1 ?_, ?_⟩
    · intro e he
      rw [Tbl.remove_eq_filter] at he
      simpa using (List.mem_filter.1 he).2
    · intro e he
      rcases (Tbl.mem_insert _ n x e).1 he with rfl | he
      · exact hx
      · exact hr.2 e he

end Sys2Proof
end

