-- ==== Sys2Proof/Laws/Inv.lean ====
section
/-!
SUPPORT. The invariant, field by field: what a record update of the state has to show, and how a conditional, a
loop and a result inside a pair or an option keep it.
-/
namespace Sys2Proof.Machine

def CellsOk (c : List Host.Cell) : Prop := Tbl.wf 0 c = true
structure UeOk (w : BitVec 8) : Prop where
  ne : w ≠ 0
def PatrolOk (w : BitVec 5) : Prop := 1 ≤ w.toNat ∧ w.toNat ≤ 24
def CapOk (w : BitVec 9) : Prop := 40 ≤ w.toNat ∧ w.toNat ≤ 420
def VsetOk (w : BitVec 10) : Prop := 550 ≤ w.toNat ∧ w.toNat ≤ 900 ∧ w.toNat % 10 = 0
def WdogOk (w : BitVec 16) : Prop := 250 ≤ w.toNat
def SliceOk (w : BitVec 10) : Prop := w.toNat ≤ 1000
def SplitOk (w : BitVec 4) : Prop := w.toNat ≤ 8
structure BwdogOk (w : BitVec 16) : Prop where
  ne : w ≠ 0

structure MemOk (m : DevMem) : Prop where
  cells  : CellsOk m.cells
  ue     : UeOk m.ueThreshold
  patrol : PatrolOk m.patrolH
structure PwrOk (p : Pwr) : Prop where
  cap  : CapOk p.capW
  vset : VsetOk p.vset
structure GrdOk (g : Grd) : Prop where
  wdog : WdogOk g.wdogLimit
structure SchOk (x : Sch) : Prop where
  slice : SliceOk x.slice
structure CarOk (x : Car) : Prop where
  split : SplitOk x.priSplit
structure FltOk (x : Flt) : Prop where
  bwdog : BwdogOk x.bwdogMs

variable {s : State}

theorem State.Inv.memOk (h : s.Inv) : MemOk s.mem := ⟨h.mem, ⟨h.ranges.ue⟩, h.ranges.patrol⟩
theorem State.Inv.pwrOk (h : s.Inv) : PwrOk s.pwr := ⟨h.ranges.cap, h.ranges.vset⟩
theorem State.Inv.grdOk (h : s.Inv) : GrdOk s.grd := ⟨h.ranges.wdog⟩
theorem State.Inv.schOk (h : s.Inv) : SchOk s.sch := ⟨h.ranges.slice⟩
theorem State.Inv.carOk (h : s.Inv) : CarOk s.car := ⟨h.ranges.split⟩
theorem State.Inv.fltOk (h : s.Inv) : FltOk s.flt := ⟨⟨h.ranges.bwdog⟩⟩

/-- The invariant of a state, from its parts. -/
theorem State.Inv.of_parts (hm : MemOk s.mem) (hp : PwrOk s.pwr) (hg : GrdOk s.grd) (hs : SchOk s.sch)
    (hc : CarOk s.car) (hf : FltOk s.flt) : s.Inv :=
  ⟨hm.cells, hp.cap, hp.vset, hg.wdog, hm.ue.ne, hm.patrol, hs.slice, hc.split, hf.bwdog.ne⟩

theorem inv_mk {pending now free out rdata brd pwr boot clk hif ten rings gng car wbk mem sch grd rol ink tok cym chn
    flt}
    (hm : MemOk mem) (hp : PwrOk pwr) (hg : GrdOk grd) (hs : SchOk sch) (hc : CarOk car) (hf : FltOk flt) :
    (State.mk pending now free out rdata brd pwr boot clk hif ten rings gng car wbk mem sch grd rol ink tok cym chn
      flt).Inv := State.Inv.of_parts hm hp hg hs hc hf
theorem memOk_mk {a b c d e f g h} (h1 : CellsOk a) (h2 : UeOk e) (h3 : PatrolOk f) : MemOk (DevMem.mk a b c d e f g
    h) :=
  ⟨h1, h2, h3⟩
/-! ## A record update keeps the invariant

`inv_keep` where no limited block is written, `inv_<block>` where one is and its limited fields are kept. -/

theorem inv_keep {pending now free out rdata brd boot clk hif ten rings gng wbk rol ink tok cym chn} (h : s.Inv) :
    (State.mk pending now free out rdata brd s.pwr boot clk hif ten rings gng s.car wbk s.mem s.sch s.grd rol ink tok
        cym chn s.flt).Inv :=
  inv_mk h.memOk h.pwrOk h.grdOk h.schOk h.carOk h.fltOk
theorem inv_pwr {pending now free out rdata brd boot clk hif ten rings gng wbk rol ink tok cym chn} {c d e f g i j k
    l m n o p q r u} (h : s.Inv) :
    (State.mk pending now free out rdata brd (Pwr.mk s.pwr.capW s.pwr.vset c d e f g i j k l m n o p q r u) boot clk
        hif ten rings gng s.car wbk s.mem s.sch s.grd rol ink tok cym chn s.flt).Inv :=
  inv_mk h.memOk ⟨h.pwrOk.cap, h.pwrOk.vset⟩ h.grdOk h.schOk h.carOk h.fltOk
theorem inv_mem {pending now free out rdata brd boot clk hif ten rings gng wbk rol ink tok cym chn} {b c d g i} (h :
    s.Inv) :
    (State.mk pending now free out rdata brd s.pwr boot clk hif ten rings gng s.car wbk (DevMem.mk s.mem.cells b c d
        s.mem.ueThreshold s.mem.patrolH g i) s.sch s.grd rol ink tok cym chn s.flt).Inv :=
  inv_mk ⟨h.memOk.cells, h.memOk.ue, h.memOk.patrol⟩ h.pwrOk h.grdOk h.schOk h.carOk h.fltOk
theorem inv_grd {pending now free out rdata brd boot clk hif ten rings gng wbk rol ink tok cym chn} {a b d e f g i}
    (h : s.Inv) :
    (State.mk pending now free out rdata brd s.pwr boot clk hif ten rings gng s.car wbk s.mem s.sch (Grd.mk a b
        s.grd.wdogLimit d e f g i) rol ink tok cym chn s.flt).Inv :=
  inv_mk h.memOk h.pwrOk ⟨h.grdOk.wdog⟩ h.schOk h.carOk h.fltOk
theorem inv_sch {pending now free out rdata brd boot clk hif ten rings gng wbk rol ink tok cym chn} {b c d} (h :
    s.Inv) :
    (State.mk pending now free out rdata brd s.pwr boot clk hif ten rings gng s.car wbk s.mem (Sch.mk s.sch.slice b c
        d) s.grd rol ink tok cym chn s.flt).Inv :=
  inv_mk h.memOk h.pwrOk h.grdOk ⟨h.schOk.slice⟩ h.carOk h.fltOk
theorem inv_car {pending now free out rdata brd boot clk hif ten rings gng wbk rol ink tok cym chn} {a c d e f g i j}
    (h : s.Inv) :
    (State.mk pending now free out rdata brd s.pwr boot clk hif ten rings gng (Car.mk a s.car.priSplit c d e f g i j)
        wbk s.mem s.sch s.grd rol ink tok cym chn s.flt).Inv :=
  inv_mk h.memOk h.pwrOk h.grdOk h.schOk ⟨h.carOk.split⟩ h.fltOk
theorem inv_flt {pending now free out rdata brd boot clk hif ten rings gng wbk rol ink tok cym chn} {a b c d e g i j
    k} (h : s.Inv) :
    (State.mk pending now free out rdata brd s.pwr boot clk hif ten rings gng s.car wbk s.mem s.sch s.grd rol ink tok
        cym chn (Flt.mk a b c d e s.flt.bwdogMs g i j k)).Inv :=
  inv_mk h.memOk h.pwrOk h.grdOk h.schOk h.carOk ⟨h.fltOk.bwdog⟩

/-! ## The values at reset -/

theorem cellsOk_reset : CellsOk [] := rfl
theorem ueOk_reset : UeOk 16 := ⟨by decide⟩
theorem patrolOk_reset : PatrolOk 8 := by unfold PatrolOk; decide
theorem capOk_reset : CapOk 420 := by unfold CapOk; decide
theorem vsetOk_reset : VsetOk 800 := by unfold VsetOk; decide
theorem wdogOk_reset : WdogOk 2500 := by unfold WdogOk; decide
theorem sliceOk_reset : SliceOk 0 := by unfold SliceOk; decide
theorem splitOk_reset : SplitOk 4 := by unfold SplitOk; decide
theorem bwdogOk_reset : BwdogOk 100 := ⟨by decide⟩

/-! ## The values a write of a limited field stores -/

theorem clamp_le {lo hi x : Nat} (h : lo ≤ hi) : lo ≤ clamp lo hi x ∧ clamp lo hi x ≤ hi := by unfold clamp; omega
theorem capOk_clamp (x : Nat) : CapOk (BitVec.ofNat 9 (clamp 40 420 x)) := by
  have := clamp_le (lo := 40) (hi := 420) (x := x) (by decide)
  unfold CapOk; rw [BitVec.toNat_ofNat, Nat.mod_eq_of_lt (by omega)]; exact this
theorem patrolOk_clamp (x : Nat) : PatrolOk (BitVec.ofNat 5 (clamp 1 24 x)) := by
  have := clamp_le (lo := 1) (hi := 24) (x := x) (by decide)
  unfold PatrolOk; rw [BitVec.toNat_ofNat, Nat.mod_eq_of_lt (by omega)]; exact this
theorem vsetOk_stored (x : Nat) : VsetOk (BitVec.ofNat 10 (storedMv x)) := by
  have : 550 ≤ storedMv x ∧ storedMv x ≤ 900 ∧ storedMv x % 10 = 0 := by unfold storedMv clamp; omega
  unfold VsetOk; rw [BitVec.toNat_ofNat, Nat.mod_eq_of_lt (by omega)]; exact this
theorem wdogOk_max (v : BitVec 32) : WdogOk (BitVec.ofNat 16 (max 250 (fld v 0 16))) := by
  have : fld v 0 16 < 2 ^ 16 := Nat.mod_lt _ (by decide)
  unfold WdogOk; rw [BitVec.toNat_ofNat, Nat.mod_eq_of_lt (by omega)]; omega
theorem sliceOk_min (x : Nat) : SliceOk (BitVec.ofNat 10 (min 1000 x)) := by
  unfold SliceOk; rw [BitVec.toNat_ofNat, Nat.mod_eq_of_lt (by omega)]; omega
theorem splitOk_min (x : Nat) : SplitOk (BitVec.ofNat 4 (min 8 x)) := by
  unfold SplitOk; rw [BitVec.toNat_ofNat, Nat.mod_eq_of_lt (by omega)]; omega
theorem orOne_ne {n : Nat} (h : 0 < n) (v : BitVec n) : orOne v ≠ 0 := by
  unfold orOne; split
  · intro e; have := congrArg BitVec.toNat e; simp at this; omega
  · assumption

/-! ## Results inside a pair or an option -/

def PInv {α : Type} (p : α × State) : Prop := p.2.Inv
structure OInv (o : Option State) : Prop where
  get : ∀ t, o = some t → t.Inv
structure OPInv {α : Type} (o : Option (α × State)) : Prop where
  get : ∀ a t, o = some (a, t) → t.Inv

structure RInv (r : Result) : Prop where
  get : ∀ t, r = .next t → t.Inv

variable {α : Type} {c : Prop} [Decidable c]

theorem inv_ite {a b : State} (ha : c → a.Inv) (hb : ¬c → b.Inv) : (if c then a else b).Inv := by split <;> simp_all
theorem pinv_ite {a b : α × State} (ha : c → PInv a) (hb : ¬c → PInv b) : PInv (if c then a else b) := by
  split <;> simp_all
theorem oinv_ite {a b : Option State} (ha : c → OInv a) (hb : ¬c → OInv b) : OInv (if c then a else b) := by
  split <;> simp_all
theorem opinv_ite {a b : Option (α × State)} (ha : c → OPInv a) (hb : ¬c → OPInv b) : OPInv (if c then a else b) := by
  split <;> simp_all
theorem pinv_mk {a : α} (h : s.Inv) : PInv (a, s) := h
theorem pinv_snd {p : α × State} (h : PInv p) : p.2.Inv := h
theorem oinv_none : OInv none := ⟨by simp⟩
theorem oinv_some (h : s.Inv) : OInv (some s) := ⟨by rintro t ⟨⟩; exact h⟩
theorem opinv_none : OPInv (none : Option (α × State)) := ⟨by simp⟩
theorem opinv_some {p : α × State} (h : PInv p) : OPInv (some p) := ⟨by rintro a t ⟨⟩; exact h⟩
theorem rinv_next (h : s.Inv) : RInv (.next s) := ⟨by rintro t ⟨⟩; exact h⟩
theorem rinv_fault {f : Fault} : RInv (.fault f) := ⟨by simp⟩
theorem rinv_ite {a b : Result} (ha : c → RInv a) (hb : ¬c → RInv b) : RInv (if c then a else b) := by
  split <;> simp_all
theorem oinv_map {β : Type} {o : Option β} {f : β → State} (h : ∀ b, o = some b → (f b).Inv) : OInv (o.map f) := by
  cases o with
  | none => exact oinv_none
  | some b => exact oinv_some (h b rfl)
theorem opinv_map {β : Type} {o : Option β} {f : β → α × State} (h : ∀ b, o = some b → PInv (f b)) : OPInv (o.map f)
    := by
  cases o with
  | none => exact opinv_none
  | some b => exact opinv_some (h b rfl)
theorem pair_inv {p : α × State} {a : α} {t : State} (e : p = (a, t)) (h : PInv p) : t.Inv := by subst e; exact h
theorem opt_inv {o : Option State} {t : State} (e : o = some t) (h : OInv o) : t.Inv := h.get t e
theorem optp_inv {o : Option (α × State)} {a : α} {t : State} (e : o = some (a, t)) (h : OPInv o) : t.Inv := h.get a
    t e
theorem opinv_getD {o : Option (α × State)} {a : α} (h : OPInv o) (hs : s.Inv) : PInv (o.getD (a, s)) := by
  cases o with
  | none => exact hs
  | some p => exact h.get p.1 p.2 rfl

/-- A loop keeps the invariant when each turn does. -/
theorem forEach_inv {β : Type} {l : List β} {f : β → State → State} {s : State}
    (hf : ∀ a s, s.Inv → (f a s).Inv) (h : s.Inv) : (forEach l f s).Inv := by
  unfold forEach
  induction l generalizing s with
  | nil => exact h
  | cons a l ih => exact ih (hf a s h)
theorem foldl_inv {β : Type} {l : List β} {f : State → β → State} {s : State}
    (hf : ∀ s a, s.Inv → (f s a).Inv) (h : s.Inv) : (l.foldl f s).Inv := by
  induction l generalizing s with
  | nil => exact h
  | cons a l ih => exact ih (hf s a h)

end Sys2Proof.Machine
end

