-- ==== Sys2Proof/Laws/InvOps.lean ====
section
/-!
SUPPORT. Each operation keeps the invariant: the shared operations on state, interrupts, memory, jobs and stops.
-/
namespace Sys2Proof.Machine

/-! ## Machine/Ops.lean -/

theorem State.setFunc_inv {s : State} {t : Nat} {x : Func} (h_s : s.Inv) : (State.setFunc s t x).Inv := by
  unfold State.setFunc
  try dsimp only
  repeat' with_reducible (first | assumption | apply inv_keep)

theorem State.setTenant_inv {s : State} {t : Nat} {x : Tenant} (h_s : s.Inv) : (State.setTenant s t x).Inv := by
  unfold State.setTenant
  try dsimp only
  repeat' with_reducible (first | assumption | apply inv_keep)

theorem State.setMap_inv {s : State} {i : Nat} {x : MapEntry} (h_s : s.Inv) : (State.setMap s i x).Inv := by
  unfold State.setMap
  try dsimp only
  repeat' with_reducible (first | assumption | apply inv_keep)

theorem State.setRing_inv {s : State} {t r : Nat} {x : Ring} (h_s : s.Inv) : (State.setRing s t r x).Inv := by
  unfold State.setRing
  try dsimp only
  repeat' with_reducible (first | assumption | apply inv_keep)

theorem State.setSrc_inv {s : State} {n : Nat} {x : Src} (h_s : s.Inv) : (State.setSrc s n x).Inv := by
  unfold State.setSrc
  try dsimp only
  repeat' with_reducible (first | assumption | apply inv_car)

theorem State.setClaimed_inv {s : State} {c : Nat} {x : List (Nat × Nat)} (h_s : s.Inv) : (State.setClaimed s c x).Inv
    := by
  unfold State.setClaimed
  try dsimp only
  repeat' with_reducible (first | assumption | apply inv_car)

theorem State.setPos_inv {s : State} {q : Nat} {x : Pos} (h_s : s.Inv) : (State.setPos s q x).Inv := by
  unfold State.setPos
  try dsimp only
  repeat' with_reducible (first | assumption | apply inv_keep)

theorem State.setChan_inv {s : State} {k : Nat} {x : Chan} (h_s : s.Inv) : (State.setChan s k x).Inv := by
  unfold State.setChan
  try dsimp only
  repeat' with_reducible (first | assumption | apply inv_keep)

theorem State.setStack_inv {s : State} {k : Nat} {x : Stack} (h_s : s.Inv) : (State.setStack s k x).Inv := by
  unfold State.setStack
  try dsimp only
  repeat' with_reducible (first | assumption | apply inv_mem)

theorem State.setSchTen_inv {s : State} {t : Nat} {x : SchTen} (h_s : s.Inv) : (State.setSchTen s t x).Inv := by
  unfold State.setSchTen
  try dsimp only
  repeat' with_reducible (first | assumption | apply inv_sch)

theorem State.setTile_inv {s : State} {i : Nat} {x : Tile} (h_s : s.Inv) : (State.setTile s i x).Inv := by
  unfold State.setTile
  try dsimp only
  repeat' with_reducible (first | assumption | apply inv_grd)

theorem State.setPort_inv {s : State} {p : Nat} {x : Port} (h_s : s.Inv) : (State.setPort s p x).Inv := by
  unfold State.setPort
  try dsimp only
  repeat' with_reducible (first | assumption | apply inv_keep)

theorem State.setQueue_inv {s : State} {q : Nat} {x : Queue} (h_s : s.Inv) : (State.setQueue s q x).Inv := by
  unfold State.setQueue
  try dsimp only
  repeat' with_reducible (first | assumption | apply inv_keep)

theorem State.setTokTen_inv {s : State} {t : Nat} {x : TokTen} (h_s : s.Inv) : (State.setTokTen s t x).Inv := by
  unfold State.setTokTen
  try dsimp only
  repeat' with_reducible (first | assumption | apply inv_keep)

theorem State.setStream_inv {s : State} {n : Nat} {x : Stream} (h_s : s.Inv) : (State.setStream s n x).Inv := by
  unfold State.setStream
  try dsimp only
  repeat' with_reducible (first | assumption | apply inv_keep)

theorem State.setLink_inv {s : State} {x : Nat} {l : Link} (h_s : s.Inv) : (State.setLink s x l).Inv := by
  unfold State.setLink
  try dsimp only
  repeat' with_reducible (first | assumption | apply inv_keep)

theorem State.setBell_inv {s : State} {c : Nat} {x : Bell} (h_s : s.Inv) : (State.setBell s c x).Inv := by
  unfold State.setBell
  try dsimp only
  repeat' with_reducible (first | assumption | apply inv_flt)

theorem State.modJob_inv {s : State} {j : Nat} {f : Job → Job} (h_s : s.Inv) : (State.modJob s j f).Inv := by
  unfold State.modJob
  try dsimp only
  repeat' with_reducible (first | assumption | apply inv_sch)

theorem State.emit_inv {s : State} {op : LinkOp} (h_s : s.Inv) : (State.emit s op).Inv := by
  unfold State.emit
  try dsimp only
  repeat' with_reducible (first | assumption | apply inv_keep)

theorem State.draw_inv {s : State} (h_s : s.Inv) : PInv (State.draw s) := by
  unfold State.draw
  try dsimp only
  repeat' with_reducible (first | assumption | apply pinv_mk | apply inv_keep)
theorem State.draw_inv_snd {s : State} (h_s : s.Inv) : (State.draw s).2.Inv := State.draw_inv h_s

theorem forEachAny_inv {α : Type} {l : List α} {f : α → State → State} {s : State}
    (h_f : ∀ (x0 : α) (x1 : State), x1.Inv → (f x0 x1).Inv) (h_s : s.Inv) : (forEachAny l f s).Inv := by
  unfold forEachAny
  split
  · exact forEach_inv h_f h_s
  · exact forEach_inv h_f (State.draw_inv h_s)

theorem State.setDom_inv {s : State} {d : Nat} {b : Bool} (h_s : s.Inv) : (State.setDom s d b).Inv := by
  unfold State.setDom
  try dsimp only
  repeat' with_reducible (first | assumption | apply inv_pwr)

theorem takeStamp_inv {s : State} (h_s : s.Inv) : (takeStamp s).Inv := by
  unfold takeStamp
  try dsimp only
  repeat' (first | with_reducible assumption | split | with_reducible apply inv_keep)

theorem raise_inv {n : Nat} {s : State} (h_s : s.Inv) : (raise n s).Inv := by
  unfold raise
  try dsimp only
  repeat' with_reducible (first | assumption | apply State.setSrc_inv | apply takeStamp_inv)

theorem gongWait_inv {e : GongRequest} {s : State} (h_s : s.Inv) : (gongWait e s).Inv := by
  unfold gongWait
  try dsimp only
  repeat' (first
    | with_reducible (first
      | assumption | apply inv_ite)
    | intro _ | refine pair_inv ‹_› ?_ | refine opt_inv ‹_› ?_ | refine optp_inv ‹_› ?_ | split
    | with_reducible apply inv_keep)

theorem gongPassed_inv {p : Nat} {s : State} (h_s : s.Inv) : (gongPassed p s).Inv := by
  unfold gongPassed
  try dsimp only
  repeat' (first
    | with_reducible (first
      | assumption | apply inv_ite)
    | intro _ | refine pair_inv ‹_› ?_ | refine opt_inv ‹_› ?_ | refine optp_inv ‹_› ?_ | split
    | with_reducible apply inv_keep)

theorem askGong_inv {e : GongRequest} {held : Bool} {act : State → State} {s : State} (h_act : ∀ (x0 : State), x0.Inv
    → (act x0).Inv) (h_s : s.Inv) : (askGong e held act s).Inv := by
  unfold askGong
  try dsimp only
  repeat' (first
    | with_reducible (first
      | assumption | apply gongWait_inv | apply gongPassed_inv | apply h_act | apply inv_ite)
    | intro _)

theorem countFlt_inv {d : Nat} {s : State} (h_s : s.Inv) : (countFlt d s).Inv := by
  unfold countFlt
  try dsimp only
  repeat' with_reducible (first | assumption | apply inv_flt)

theorem regError_inv {q : Requester} {off : Nat} {s : State} (h_s : s.Inv) : (regError q off s).Inv := by
  unfold regError
  try dsimp only
  repeat' with_reducible (first | assumption | apply raise_inv | apply countFlt_inv | apply inv_flt)

theorem writeRecord_inv {f : Finding} {j : Option Job} {s : State} (h_s : s.Inv) : (writeRecord f j s).Inv := by
  unfold writeRecord
  try dsimp only
  repeat' (first | with_reducible (first | assumption | apply takeStamp_inv) | split | with_reducible apply inv_flt)

theorem fire_inv {f : Finding} {s : State} (h_s : s.Inv) : (fire f s).Inv := by
  unfold fire
  try dsimp only
  repeat' with_reducible (first | assumption | apply raise_inv | apply countFlt_inv | apply writeRecord_inv)

theorem regWriteOr_inv {bad : Option Nat} {q : Requester} {a : RegAddr} {f : State → State} {s : State} (h_f : ∀ (x0 :
    State), x0.Inv → (f x0).Inv) (h_s : s.Inv) : (regWriteOr bad q a f s).Inv := by
  unfold regWriteOr
  try dsimp only
  repeat' (first
    | with_reducible (first
      | assumption | apply regError_inv | apply h_f | apply inv_ite)
    | intro _ | refine pair_inv ‹_› ?_ | refine opt_inv ‹_› ?_ | refine optp_inv ‹_› ?_ | split)

theorem regWrite_inv {q : Requester} {a : RegAddr} {f : State → State} {s : State} (h_f : ∀ (x0 : State), x0.Inv → (f
    x0).Inv) (h_s : s.Inv) : (regWrite q a f s).Inv := by
  unfold regWrite
  try dsimp only
  repeat' with_reducible (first | assumption | apply regWriteOr_inv)

theorem regRead_inv {q : Requester} {a : RegAddr} {f : State → Reg × State} {s : State}
    (h_f : ∀ (x0 : State), x0.Inv → PInv (f x0)) (h_s : s.Inv) : (regRead q a f s).Inv := by
  unfold regRead
  try dsimp only
  repeat' (first
    | with_reducible (first
      | assumption | apply regError_inv | refine (pinv_snd (p := f _ ) (h_f _ ?_)))
    | split | with_reducible apply inv_keep)

theorem keyWrite_inv {q : Requester} {a : RegAddr} {v : BitVec 32} {f : State → State} {s : State} (h_f : ∀ (x0 :
    State), x0.Inv → (f x0).Inv) (h_s : s.Inv) : (keyWrite q a v f s).Inv := by
  unfold keyWrite
  try dsimp only
  repeat' with_reducible (first | assumption | apply regWriteOr_inv)

theorem State.setByte_inv {s : State} {a : Nat} {b : Byte} (h_s : s.Inv) : (State.setByte s a b).Inv :=
  inv_mk (memOk_mk (Tbl.wf_put 0 a b h_s.mem) h_s.memOk.ue h_s.memOk.patrol) h_s.pwrOk h_s.grdOk h_s.schOk h_s.carOk
      h_s.fltOk

theorem State.writeTen_inv {s : State} {t a : Nat} {bs : List Byte} (h_s : s.Inv) : (State.writeTen s t a bs).Inv := by
  unfold State.writeTen
  try dsimp only
  repeat' (first | with_reducible (first | assumption | apply State.setByte_inv | apply foldl_inv) | intro _ | split)

theorem State.writeLines_inv {s : State} {t line : Nat} {ns : List Nonet} (h_s : s.Inv) : (State.writeLines s t line
    ns).Inv := by
  unfold State.writeLines
  try dsimp only
  repeat' with_reducible (first | assumption | apply State.writeTen_inv)

/-! ## Machine/Interrupts.lean -/

theorem sendMsix_inv {t e : Nat} {s : State} (h_s : s.Inv) : (sendMsix t e s).Inv := by
  unfold sendMsix
  try dsimp only
  repeat' (first
    | with_reducible (first
      | assumption | apply State.emit_inv | apply inv_ite)
    | intro _ | refine pair_inv ‹_› ?_ | refine opt_inv ‹_› ?_ | refine optp_inv ‹_› ?_ | split
    | with_reducible apply inv_keep)

theorem sendHeld_inv {s : State} (h_s : s.Inv) : (sendHeld s).Inv := by
  unfold sendHeld
  try dsimp only
  repeat' (first
    | with_reducible (first
      | assumption | apply forEach_inv | apply State.emit_inv | apply inv_ite)
    | intro _ | refine pair_inv ‹_› ?_ | refine opt_inv ‹_› ?_ | refine optp_inv ‹_› ?_ | split
    | with_reducible apply inv_keep)

theorem fireMsix_inv {t e : Nat} {s : State} (h_s : s.Inv) : (fireMsix t e s).Inv := by
  unfold fireMsix
  try dsimp only
  repeat' (first
    | with_reducible (first
      | assumption | apply State.setFunc_inv | apply sendMsix_inv | apply inv_ite)
    | intro _)

theorem fireCq_inv {t r : Nat} {s : State} (h_s : s.Inv) : (fireCq t r s).Inv := by
  unfold fireCq
  try dsimp only
  repeat' (first
    | with_reducible (first
      | assumption | apply fireMsix_inv | apply State.setRing_inv | apply inv_ite)
    | intro _ | refine pair_inv ‹_› ?_ | refine opt_inv ‹_› ?_ | refine optp_inv ‹_› ?_ | split
    | with_reducible apply inv_keep)

theorem countCompletion_inv {t r : Nat} {s : State} (h_s : s.Inv) : (countCompletion t r s).Inv := by
  unfold countCompletion
  try dsimp only
  repeat' (first
    | with_reducible (first
      | assumption | apply fireCq_inv | apply State.setRing_inv | apply inv_ite)
    | intro _)

theorem stopRing_inv {t r err : Nat} {s : State} (h_s : s.Inv) : (stopRing t r err s).Inv := by
  unfold stopRing
  try dsimp only
  repeat' with_reducible (first | assumption | apply State.setRing_inv | apply fireCq_inv)

/-! ## Machine/MemoryOps.lean -/

theorem rescaleStack_inv {k : Nat} {s : State} (h_s : s.Inv) : (rescaleStack k s).Inv := by
  unfold rescaleStack
  try dsimp only
  repeat' (first
    | with_reducible (first
      | assumption | apply State.setStack_inv | apply raise_inv | apply inv_ite)
    | intro _)

theorem rescale_inv {s : State} (h_s : s.Inv) : (rescale s).Inv := by
  unfold rescale
  try dsimp only
  repeat' with_reducible (first | assumption | apply forEach_inv | apply rescaleStack_inv)

theorem queueScrub_inv {owner : Option Nat} {ps : List Nat} {s : State} (h_s : s.Inv) : (queueScrub owner ps s).Inv := by
  unfold queueScrub
  try dsimp only
  repeat' with_reducible (first | assumption | apply inv_keep)

theorem zeroBytes_inv {a : Nat} {n : Nat} {s : State} (h_s : s.Inv) : (zeroBytes a n s).Inv :=
  inv_mk (memOk_mk (Tbl.wf_filter 0 _ h_s.mem) h_s.memOk.ue h_s.memOk.patrol) h_s.pwrOk h_s.grdOk h_s.schOk h_s.carOk
      h_s.fltOk

/-! ## Machine/JobOps.lean -/

theorem transmit_inv {x : Nat} {m : BitVec 8 → Sent} {s : State} (h_s : s.Inv) : (transmit x m s).Inv := by
  unfold transmit
  try dsimp only
  repeat' (first
    | with_reducible (first
      | assumption | apply State.setLink_inv | apply State.emit_inv | apply inv_ite)
    | intro _)

theorem sendCtrl_inv {x : Nat} {c : Ctrl} {s : State} (h_s : s.Inv) : (sendCtrl x c s).Inv := by
  unfold sendCtrl
  try dsimp only
  repeat' (first | with_reducible (first | assumption | apply transmit_inv | apply inv_ite) | intro _)

theorem sendFlit_inv {x : Nat} {f : Flit} {s : State} (h_s : s.Inv) : (sendFlit x f s).Inv := by
  unfold sendFlit
  try dsimp only
  repeat' with_reducible (first | assumption | apply transmit_inv)

theorem pump_inv {n : Nat} {x : Nat} {s : State} (h_s : s.Inv) : (pump n x s).Inv := by
  induction n generalizing s with
  | zero => exact h_s
  | succ n ih =>
    unfold pump
    dsimp only
    split
    · exact h_s
    · exact inv_ite (fun _ => ih (sendFlit_inv (State.setLink_inv h_s))) (fun _ => h_s)

theorem pumpAll_inv {x : Nat} {s : State} (h_s : s.Inv) : (pumpAll x s).Inv := pump_inv h_s

theorem freeOutput_inv {x : Nat} {s : State} (h_s : s.Inv) : (freeOutput x s).Inv := by
  unfold freeOutput
  try dsimp only
  repeat' with_reducible (first | assumption | apply State.setLink_inv | apply pumpAll_inv)

theorem cutOutward_inv {m : Msg} {s : State} (h_s : s.Inv) : (cutOutward m s).Inv := by
  unfold cutOutward
  try dsimp only
  repeat' (first
    | with_reducible (first
      | assumption | apply sendFlit_inv | apply freeOutput_inv | apply inv_ite)
    | intro _)

theorem freeSpan_inv {unit : BitVec 12} {key : BitVec 32} {s : State} (h_s : s.Inv) : (freeSpan unit key s).Inv := by
  unfold freeSpan
  try dsimp only
  repeat' with_reducible (first | assumption | apply inv_keep)

theorem spanRelease_inv {j : Job} {s : State} (h_s : s.Inv) : (spanRelease j s).Inv := by
  unfold spanRelease
  try dsimp only
  repeat' (first
    | with_reducible (first
      | assumption | apply sendCtrl_inv | apply freeSpan_inv | apply inv_ite)
    | intro _)

theorem chargeJob_inv {id : Nat} {s : State} (h_s : s.Inv) : (chargeJob id s).Inv := by
  unfold chargeJob
  try dsimp only
  repeat' (first | with_reducible (first | assumption | apply State.setSchTen_inv | apply State.modJob_inv) | split)

theorem releaseTile_inv {i : Nat} {s : State} (h_s : s.Inv) : (releaseTile i s).Inv := by
  unfold releaseTile
  exact inv_ite (fun _ => State.setTile_inv h_s) (fun _ => State.setTile_inv (State.draw_inv h_s))

theorem releaseTiles_inv {id : Nat} {s : State} (h_s : s.Inv) : (releaseTiles id s).Inv := by
  unfold releaseTiles
  try dsimp only
  repeat' (first
    | with_reducible (first
      | assumption | apply cutOutward_inv | apply chargeJob_inv | apply releaseTile_inv | apply State.modJob_inv
      | apply forEach_inv | apply inv_ite)
    | intro _ | refine pair_inv ‹_› ?_ | refine opt_inv ‹_› ?_ | refine optp_inv ‹_› ?_ | split
    | with_reducible apply inv_keep | with_reducible apply inv_grd)

theorem finishJob_inv {id : Nat} {st : BitVec 8} {detail : Nat} {s : State} (h_s : s.Inv) : (finishJob id st detail
    s).Inv := by
  unfold finishJob
  try dsimp only
  repeat' (first
    | with_reducible (first
      | assumption | apply releaseTiles_inv | apply State.modJob_inv | apply inv_ite)
    | intro _ | refine pair_inv ‹_› ?_ | refine opt_inv ‹_› ?_ | refine optp_inv ‹_› ?_ | split)

theorem fireJob_inv {f : Finding} {id : Nat} {s : State} (h_s : s.Inv) : (fireJob f id s).Inv := by
  unfold fireJob
  try dsimp only
  repeat' (first
    | with_reducible (first
      | assumption | apply finishJob_inv | apply State.modJob_inv | apply raise_inv | apply countFlt_inv
      | apply writeRecord_inv | apply inv_ite)
    | intro _ | refine pair_inv ‹_› ?_ | refine opt_inv ‹_› ?_ | refine optp_inv ‹_› ?_ | split)

theorem failJobs_inv {ids : List Nat} {n : Nat} {s : State} (h_s : s.Inv) : (failJobs ids n s).Inv := by
  unfold failJobs
  try dsimp only
  repeat' (first
    | with_reducible (first
      | assumption | apply finishJob_inv | apply State.modJob_inv | apply forEach_inv | apply inv_ite)
    | intro _)

theorem tileFault_inv {i code info1 : Nat} {s : State} (h_s : s.Inv) : (tileFault i code info1 s).Inv := by
  unfold tileFault
  try dsimp only
  repeat' (first
    | with_reducible (first
      | assumption | apply State.setTile_inv | apply raise_inv | apply countFlt_inv | apply fireJob_inv
      | apply inv_ite)
    | intro _ | split | with_reducible apply inv_flt)

theorem decide1_inv {t r : Nat} {seq : BitVec 32} {st : InfSt} {s : State} (h_s : s.Inv) : (decide1 t r seq st s).Inv
    := by
  unfold decide1
  try dsimp only
  repeat' with_reducible (first | assumption | apply State.setRing_inv)

theorem abortTenant_inv {t detail : Nat} {s : State} (h_s : s.Inv) : (abortTenant t detail s).Inv := by
  unfold abortTenant
  try dsimp only
  repeat' (first
    | with_reducible (first
      | assumption | apply finishJob_inv | apply State.setRing_inv | apply forEach_inv | apply inv_ite)
    | intro _)

theorem removeJob_inv {id : Nat} {s : State} (h_s : s.Inv) : (removeJob id s).Inv := by
  unfold removeJob
  try dsimp only
  repeat' (first
    | with_reducible (first
      | assumption | apply rescale_inv | apply spanRelease_inv | apply releaseTiles_inv)
    | split | with_reducible apply inv_sch)

theorem dropTenant_inv {t : Nat} {s : State} (h_s : s.Inv) : (dropTenant t s).Inv := by
  unfold dropTenant
  try dsimp only
  repeat' (first
    | with_reducible (first
      | assumption | apply State.setRing_inv | apply forEach_inv | apply removeJob_inv)
    | intro _)

theorem tenantReset_inv {t : Nat} {s : State} (h_s : s.Inv) : (tenantReset t s).Inv := by
  unfold tenantReset
  try dsimp only
  repeat' (first
    | with_reducible (first
      | assumption | apply State.setTenant_inv | apply State.setRing_inv | apply forEach_inv | apply inv_ite)
    | intro _)

/-! ## Machine/StopOps.lean -/

theorem claimLine_inv {t line : Nat} {s : State} (h_s : s.Inv) : (claimLine t line s).Inv := by
  unfold claimLine
  try dsimp only
  repeat' (first | with_reducible assumption | split | with_reducible apply inv_mem)

theorem writeResult_inv {t line : Nat} {ws : List Word} {s : State} (h_s : s.Inv) : (writeResult t line ws s).Inv := by
  unfold writeResult
  try dsimp only
  repeat' (first
    | with_reducible (first | assumption | apply forEach_inv | apply State.writeLines_inv) | intro _ | split
    | with_reducible apply inv_mem)

theorem writeResultFor_inv {block job t line : Nat} {ws : List Word} {s : State} (h_s : s.Inv) : (writeResultFor block
    job t line ws s).Inv := by
  unfold writeResultFor
  try dsimp only
  repeat' (first
    | with_reducible (first
      | assumption | apply fireJob_inv | apply writeResult_inv | apply inv_ite)
    | intro _)

theorem linesLow_inv {p : Nat} {s : State} (h_s : s.Inv) : (linesLow p s).Inv := by
  unfold linesLow
  try dsimp only
  repeat' with_reducible (first | assumption | apply State.setPort_inv)

theorem disarm_inv {k : Nat} {s : State} (h_s : s.Inv) : (disarm k s).Inv := by
  unfold disarm
  try dsimp only
  repeat' with_reducible (first | assumption | apply State.setChan_inv)

theorem force_inv {k : Nat} {v : BitVec 2} {s : State} (h_s : s.Inv) : (force k v s).Inv := by
  unfold force
  try dsimp only
  repeat' with_reducible (first | assumption | apply State.setChan_inv)

theorem motionStop_inv {p : Nat} {s : State} (h_s : s.Inv) : (motionStop p s).Inv := by
  unfold motionStop
  try dsimp only
  repeat' (first
    | with_reducible (first
      | assumption | apply State.setPort_inv | apply disarm_inv | apply force_inv | apply inv_ite)
    | intro _)

theorem portOff_inv {p : Nat} {err : BitVec 4} {s : State} (h_s : s.Inv) : (portOff p err s).Inv := by
  unfold portOff
  try dsimp only
  repeat' with_reducible (first
    | assumption | apply State.setPort_inv | apply forEach_inv | apply rescale_inv | apply disarm_inv
    | apply motionStop_inv)

theorem portStop_inv {p : Nat} {err : BitVec 4} {s : State} (h_s : s.Inv) : (portStop p err s).Inv := by
  unfold portStop
  try dsimp only
  repeat' (first
    | with_reducible (first | assumption | apply raise_inv | apply portOff_inv | apply inv_ite) | intro _)

theorem stopFollowers_inv {p : Nat} {s : State} (h_s : s.Inv) : (stopFollowers p s).Inv := by
  unfold stopFollowers
  try dsimp only
  repeat' (first
    | with_reducible (first
      | assumption | apply forEach_inv | apply portStop_inv | apply inv_ite)
    | intro _)

theorem portStopGroup_inv {p : Nat} {err : BitVec 4} {s : State} (h_s : s.Inv) : (portStopGroup p err s).Inv := by
  unfold portStopGroup
  try dsimp only
  repeat' with_reducible (first | assumption | apply portStop_inv | apply stopFollowers_inv)

theorem portsStop_inv {ps : List Nat} {err : BitVec 4} {s : State} (h_s : s.Inv) : (portsStop ps err s).Inv := by
  unfold portsStop
  try dsimp only
  repeat' (first
    | with_reducible (first
      | assumption | apply forEach_inv | apply forEachAny_inv | apply portStop_inv | apply stopFollowers_inv
      | apply inv_ite)
    | intro _)

theorem answerPicture_inv {r : CymReq} {ws : List Word} {s : State} (h_s : s.Inv) : (answerPicture r ws s).Inv := by
  unfold answerPicture
  try dsimp only
  repeat' with_reducible (first | assumption | apply State.modJob_inv | apply writeResultFor_inv)

theorem streamStop_inv {n : Nat} {err : BitVec 4} {s : State} (h_s : s.Inv) : (streamStop n err s).Inv := by
  unfold streamStop
  try dsimp only
  repeat' (first
    | with_reducible (first
      | assumption | apply State.setStream_inv | apply forEach_inv | apply raise_inv | apply rescale_inv
      | apply answerPicture_inv | apply inv_ite)
    | intro _ | split | with_reducible apply inv_keep)

theorem queueLost_inv {t n : Nat} {s : State} (h_s : s.Inv) : (queueLost t n s).Inv := by
  unfold queueLost
  try dsimp only
  repeat' (first | with_reducible (first | assumption | apply State.setQueue_inv | apply inv_ite) | intro _)

theorem tenantLost_inv {t : Nat} {s : State} (h_s : s.Inv) : (tenantLost t s).Inv := by
  unfold tenantLost
  try dsimp only
  repeat' (first
    | with_reducible (first
      | assumption | apply forEach_inv | apply portsStop_inv | apply streamStop_inv | apply queueLost_inv
      | apply inv_ite)
    | intro _)

theorem fence_inv {k cause : Nat} {s : State} (h_s : s.Inv) : (fence k cause s).Inv := by
  unfold fence
  try dsimp only
  repeat' (first
    | with_reducible (first
      | assumption | apply failJobs_inv | apply rescale_inv | apply State.setMap_inv | apply State.setStack_inv
      | apply forEach_inv | apply State.setDom_inv | apply raise_inv | apply fire_inv | apply portsStop_inv
      | apply streamStop_inv | apply inv_ite)
    | intro _ | refine pair_inv ‹_› ?_ | refine opt_inv ‹_› ?_ | refine optp_inv ‹_› ?_ | split
    | with_reducible apply inv_keep)

/-! ## Machine/Beats.lean -/

theorem upset_inv {a : Nat} {bad : Bool} {s : State} (h_s : s.Inv) : (upset a bad s).Inv := by
  unfold upset
  try dsimp only
  repeat' with_reducible (first | assumption | apply inv_mem)

theorem correctBeat_inv {a : Nat} {s : State} (h_s : s.Inv) : (correctBeat a s).Inv := by
  unfold correctBeat
  try dsimp only
  repeat' with_reducible (first | assumption | apply State.setStack_inv | apply raise_inv | apply inv_mem)

theorem uncorrectableBeat_inv {a : Nat} {s : State} (h_s : s.Inv) : (uncorrectableBeat a s).Inv := by
  unfold uncorrectableBeat
  try dsimp only
  repeat' (first
    | with_reducible (first
      | assumption | apply State.setStack_inv | apply raise_inv | apply fence_inv | apply inv_ite)
    | intro _ | with_reducible apply inv_mem)

theorem readBeat_inv {a : Nat} {s : State} (h_s : s.Inv) : PInv (readBeat a s) := by
  unfold readBeat
  try dsimp only
  repeat' (first | with_reducible (first | assumption | apply correctBeat_inv | apply pinv_mk) | split)
theorem readBeat_inv_snd {a : Nat} {s : State} (h_s : s.Inv) : (readBeat a s).2.Inv := readBeat_inv h_s

theorem readBeats_inv {l : List Nat} {s : State} (h_s : s.Inv) : PInv (readBeats l s) := by
  induction l generalizing s with
  | nil => exact h_s
  | cons a l ih =>
    unfold readBeats
    split
    · exact ih (pair_inv ‹_› (readBeat_inv h_s))
    · exact pair_inv ‹_› (readBeat_inv h_s)
theorem readForJob_inv {job : Nat} {beats : List Nat} {s : State} (h_s : s.Inv) : PInv (readForJob job beats s) := by
  unfold readForJob
  try dsimp only
  repeat' (first
    | with_reducible (first
      | assumption | apply fireJob_inv | apply uncorrectableBeat_inv | apply readBeats_inv | apply pinv_mk)
    | refine pair_inv ‹_› ?_ | split)
theorem readRegions_inv {block job t : Nat} {l : List (Nat × Nat)} {s : State} (h_s : s.Inv) :
    PInv (readRegions block job t l s) := by
  induction l generalizing s with
  | nil => exact h_s
  | cons a l ih =>
    obtain ⟨a, n⟩ := a
    unfold readRegions
    refine pinv_ite (fun _ => fireJob_inv h_s) (fun _ => ?_)
    split
    · exact ih (pair_inv ‹_› (readForJob_inv h_s))
    · exact pair_inv ‹_› (readForJob_inv h_s)
theorem readRegions_inv_snd {block job t : Nat} {l : List (Nat × Nat)} {s : State} (h_s : s.Inv) :
    (readRegions block job t l s).2.Inv := readRegions_inv h_s

theorem mergeBeats_inv {job : Nat} {l : List Nat} {s : State} (h_s : s.Inv) : PInv (mergeBeats job l s) := by
  induction l generalizing s with
  | nil => exact h_s
  | cons a l ih => exact ih (readForJob_inv h_s)
theorem mergeBeats_inv_snd {job : Nat} {l : List Nat} {s : State} (h_s : s.Inv) : (mergeBeats job l s).2.Inv :=
  mergeBeats_inv h_s

theorem State.writeBut_inv {s : State} {bad : List Nat} {t a : Nat} {bs : List Byte} (h_s : s.Inv) : (State.writeBut s
    bad t a bs).Inv := by
  unfold State.writeBut
  try dsimp only
  repeat' (first
    | with_reducible (first
      | assumption | apply State.setByte_inv | apply foldl_inv | apply inv_ite)
    | intro _ | refine pair_inv ‹_› ?_ | refine opt_inv ‹_› ?_ | refine optp_inv ‹_› ?_ | split)

theorem writeForJob_inv {job t a : Nat} {bs : List Byte} {s : State} (h_s : s.Inv) : (writeForJob job t a bs s).Inv :=
    by
  unfold writeForJob
  try dsimp only
  repeat' with_reducible (first
    | assumption | apply mergeBeats_inv_snd | apply mergeBeats_inv | apply State.writeBut_inv)

theorem writeLinesFor_inv {job t line : Nat} {ns : List Nonet} {s : State} (h_s : s.Inv) : (writeLinesFor job t line
    ns s).Inv := by
  unfold writeLinesFor
  try dsimp only
  repeat' with_reducible (first | assumption | apply writeForJob_inv)

end Sys2Proof.Machine
end

