-- ==== Sys2Proof/Laws/InvFront.lean ====
section
/-!
SUPPORT. Each operation keeps the invariant: the rings, chimes and completions, the event order, the interrupts, the board and the parts of a reset.
-/
namespace Sys2Proof.Machine

/-! ## Machine/RingOps.lean -/

theorem emitEntry_inv {t r : Nat} {j : BitVec 32} {bs : List Byte} {s : State} (h_s : s.Inv) :
    (emitEntry t r j bs s).Inv := by
  unfold emitEntry
  try dsimp only
  repeat' with_reducible (first | assumption | apply State.emit_inv)

theorem emitReads_inv {t addr n : Nat} {s : State} (h_s : s.Inv) : (emitReads t addr n s).Inv := by
  unfold emitReads
  try dsimp only
  repeat' (first
    | with_reducible (first
      | assumption | apply forEach_inv | apply State.emit_inv | apply inv_ite)
    | intro _)

theorem emitWrites_inv {t addr : Nat} {bs : List Byte} {s : State} (h_s : s.Inv) : (emitWrites t addr bs s).Inv := by
  unfold emitWrites
  try dsimp only
  repeat' (first
    | with_reducible (first
      | assumption | apply forEach_inv | apply State.emit_inv | apply inv_ite)
    | intro _)

theorem writeEntry_inv {t r : Nat} {jobId seq : BitVec 32} {c : Cpl} {s : State} (h_s : s.Inv) :
    (writeEntry t r jobId seq c s).Inv := by
  unfold writeEntry
  try dsimp only
  repeat' (first
    | with_reducible (first
      | assumption | apply State.setTenant_inv | apply State.setRing_inv | apply takeStamp_inv
      | apply countCompletion_inv | apply emitEntry_inv | apply inv_ite)
    | intro _)

theorem completeHead_inv {t r : Nat} {s : State} (h_s : s.Inv) : (completeHead t r s).Inv := by
  unfold completeHead
  try dsimp only
  repeat' (first
    | with_reducible (first
      | assumption | apply removeJob_inv | apply State.setRing_inv | apply writeEntry_inv | apply inv_ite)
    | intro _ | refine pair_inv ‹_› ?_ | refine opt_inv ‹_› ?_ | refine optp_inv ‹_› ?_ | split)

theorem drainRing_inv {n : Nat} {t : Nat} {r : Nat} {s : State} (h_s : s.Inv) : (drainRing n t r s).Inv := by
  induction n generalizing s with
  | zero => exact h_s
  | succ n ih => exact ih (completeHead_inv h_s)

theorem drainAll_inv {s : State} (h_s : s.Inv) : (drainAll s).Inv :=
  forEach_inv (fun _ _ h => forEach_inv (fun _ _ h => drainRing_inv h) h) h_s

/-! ## Machine/WoodblockOps.lean -/

theorem routeTrigger_inv {k : Nat} {s : State} (h_s : s.Inv) : (routeTrigger k s).Inv := by
  unfold routeTrigger
  try dsimp only
  repeat' (first | with_reducible (first | assumption | apply State.setPort_inv | apply inv_ite) | intro _)

theorem matchChannel_inv {k : Nat} {s : State} (h_s : s.Inv) : (matchChannel k s).Inv := by
  unfold matchChannel
  try dsimp only
  repeat' with_reducible (first
    | assumption | apply State.setChan_inv | apply forEachAny_inv | apply raise_inv | apply routeTrigger_inv)

theorem armChannel_inv {k : Nat} {s : State} (h_s : s.Inv) : (armChannel k s).Inv := by
  unfold armChannel
  try dsimp only
  repeat' (first
    | with_reducible (first
      | assumption | apply State.setChan_inv | apply raise_inv | apply matchChannel_inv | apply inv_ite)
    | intro _)

/-! ## Machine/RollOps.lean -/

theorem setDirection_inv {p : Nat} {fwd : Bool} {s : State} (h_s : s.Inv) : (setDirection p fwd s).Inv := by
  unfold setDirection
  try dsimp only
  repeat' (first | with_reducible (first | assumption | apply force_inv | apply inv_ite) | intro _)

theorem startMotion_inv {p : Nat} {s : State} (h_s : s.Inv) : (startMotion p s).Inv := by
  unfold startMotion
  try dsimp only
  repeat' (first
    | with_reducible (first
      | assumption | apply State.setChan_inv | apply State.setPort_inv | apply force_inv | apply armChannel_inv
      | apply inv_ite)
    | intro _)

theorem stopBegin_inv {p : Nat} {s : State} (h_s : s.Inv) : (stopBegin p s).Inv := by
  unfold stopBegin
  try dsimp only
  repeat' (first
    | with_reducible (first
      | assumption | apply State.setPort_inv | apply forEach_inv | apply motionStop_inv | apply inv_ite)
    | intro _)

theorem fixQ_inv {p : Nat} {pos : BitVec 32} {s : State} (h_s : s.Inv) : (fixQ p pos s).Inv := by
  unfold fixQ
  try dsimp only
  repeat' with_reducible (first | assumption | apply State.setPort_inv | apply disarm_inv)

theorem refuseTrigger_inv {p : Nat} {pos : BitVec 32} {s : State} (h_s : s.Inv) : (refuseTrigger p pos s).Inv := by
  unfold refuseTrigger
  try dsimp only
  repeat' (first
    | with_reducible (first
      | assumption | apply State.setPort_inv | apply raise_inv | apply stopBegin_inv | apply fixQ_inv
      | apply inv_ite)
    | intro _ | refine pair_inv ‹_› ?_ | refine opt_inv ‹_› ?_ | refine optp_inv ‹_› ?_ | split)

theorem highWater_inv {p : Nat} {s : State} (h_s : s.Inv) : (highWater p s).Inv := by
  unfold highWater
  try dsimp only
  repeat' (first
    | with_reducible (first
      | assumption | apply raise_inv | apply stopBegin_inv | apply inv_ite)
    | intro _)

theorem settleStop_inv {p : Nat} {s : State} (h_s : s.Inv) : (settleStop p s).Inv := by
  unfold settleStop
  try dsimp only
  repeat' with_reducible (first | assumption | apply State.setPort_inv | apply disarm_inv)

theorem setStates_inv {ms : List Nat} {st : PortState} {s : State} (h_s : s.Inv) : (setStates ms st s).Inv := by
  unfold setStates
  try dsimp only
  repeat' (first | with_reducible (first | assumption | apply State.setPort_inv | apply forEach_inv) | intro _)

theorem backUp_inv {p : Nat} {s : State} (h_s : s.Inv) : (backUp p s).Inv := by
  unfold backUp
  try dsimp only
  repeat' (first
    | with_reducible (first
      | assumption | apply State.setChan_inv | apply setDirection_inv | apply startMotion_inv | apply setStates_inv
      | apply armChannel_inv | apply inv_ite)
    | intro _)

theorem stopMatched_inv {k : Nat} {s : State} (h_s : s.Inv) : (stopMatched k s).Inv := by
  unfold stopMatched
  try dsimp only
  repeat' (first
    | with_reducible (first
      | assumption | apply forEach_inv | apply setStates_inv | apply disarm_inv | apply motionStop_inv
      | apply inv_ite)
    | intro _)

theorem runUp_inv {l : Nat} {s : State} (h_s : s.Inv) : (runUp l s).Inv := by
  unfold runUp
  try dsimp only
  repeat' (first
    | with_reducible (first
      | assumption | apply State.setChan_inv | apply State.setPort_inv | apply forEach_inv | apply setDirection_inv
      | apply startMotion_inv | apply armChannel_inv | apply inv_ite)
    | intro _)

theorem leaveBackUp_inv {p : Nat} {s : State} (h_s : s.Inv) : (leaveBackUp p s).Inv := by
  unfold leaveBackUp
  try dsimp only
  repeat' (first
    | with_reducible (first
      | assumption | apply setStates_inv | apply disarm_inv | apply motionStop_inv | apply inv_ite)
    | intro _)

theorem portFault_inv {p : Nat} {s : State} (h_s : s.Inv) : (portFault p s).Inv := by
  unfold portFault
  try dsimp only
  repeat' (first
    | with_reducible (first
      | assumption | apply State.setPort_inv | apply raise_inv | apply stopBegin_inv | apply leaveBackUp_inv
      | apply inv_ite)
    | intro _)

theorem mfltFall_inv {k : Nat} {s : State} (h_s : s.Inv) : (mfltFall k s).Inv := by
  unfold mfltFall
  try dsimp only
  repeat' with_reducible (first | assumption | apply forEachAny_inv | apply portFault_inv)

theorem matchAndStop_inv {k : Nat} {s : State} (h_s : s.Inv) : (matchAndStop k s).Inv := by
  unfold matchAndStop
  try dsimp only
  repeat' with_reducible (first | assumption | apply matchChannel_inv | apply stopMatched_inv)

/-! ## Machine/AdmitOps.lean -/

theorem failUnadmitted_inv {f : Finding} {t r : Nat} {d : Inflight} {s : State} (h_s : s.Inv) :
    (failUnadmitted f t r d s).Inv := by
  unfold failUnadmitted
  try dsimp only
  repeat' with_reducible (first
    | assumption | apply raise_inv | apply countFlt_inv | apply writeRecord_inv | apply decide1_inv)

theorem readChecks_inv {block t r : Nat} {d : Inflight} {l : List (Nat × Nat)} {s : State} (h_s : s.Inv) :
    PInv (readChecks block t r d l s) := by
  induction l generalizing s with
  | nil => exact h_s
  | cons a l ih =>
    obtain ⟨a, n⟩ := a
    unfold readChecks
    refine pinv_ite (fun _ => failUnadmitted_inv h_s) (fun _ => ?_)
    split
    · exact ih (pair_inv ‹_› (readBeats_inv h_s))
    · exact uncorrectableBeat_inv (failUnadmitted_inv (pair_inv ‹_› (readBeats_inv h_s)))

/-! ## Machine/Rings.lean -/

theorem readChime_inv {t : Nat} {s : State} (h_s : s.Inv) : (readChime t s).Inv := by
  unfold readChime
  try dsimp only
  repeat' with_reducible (first | assumption | apply State.setTenant_inv | apply State.emit_inv)

theorem holdChime_inv {t : Nat} {s : State} (h_s : s.Inv) : (holdChime t s).Inv := by
  unfold holdChime
  try dsimp only
  repeat' (first | with_reducible (first | assumption | apply readChime_inv | apply inv_ite) | intro _)

theorem enableRing_inv {q : Requester} {t r : Nat} {k : BitVec 5} {s : State} (h_s : s.Inv) : (enableRing q t r k
    s).Inv := by
  unfold enableRing
  try dsimp only
  repeat' (first
    | with_reducible (first
      | assumption | apply State.setRing_inv | apply regError_inv | apply holdChime_inv | apply inv_ite)
    | intro _)

theorem execRingEnable_inv {q : Requester} {t : Fin 64} {r : Fin 8} {k : BitVec 5} {s : State} (h_s : s.Inv) :
    RInv (execRingEnable q t r k s) := by
  unfold execRingEnable
  try dsimp only
  repeat' with_reducible (first | assumption | apply regWrite_inv | apply enableRing_inv | apply rinv_next)

theorem disableRing_inv {t r : Nat} {s : State} (h_s : s.Inv) : (disableRing t r s).Inv := by
  unfold disableRing
  try dsimp only
  repeat' with_reducible (first | assumption | apply State.setRing_inv)

theorem execRingDisable_inv {q : Requester} {t : Fin 64} {r : Fin 8} {s : State} (h_s : s.Inv) :
    RInv (execRingDisable q t r s) := by
  unfold execRingDisable
  try dsimp only
  repeat' with_reducible (first | assumption | apply regWrite_inv | apply disableRing_inv | apply rinv_next)

theorem writePoll_inv {t : Nat} {v : BitVec 32} {s : State} (h_s : s.Inv) : (writePoll t v s).Inv := by
  unfold writePoll
  try dsimp only
  repeat' with_reducible (first | assumption | apply State.setTenant_inv)

theorem execPollPeriodWrite_inv {q : Requester} {t : Fin 64} {v : BitVec 32} {s : State} (h_s : s.Inv) :
    RInv (execPollPeriodWrite q t v s) := by
  unfold execPollPeriodWrite
  try dsimp only
  repeat' with_reducible (first | assumption | apply regWrite_inv | apply writePoll_inv | apply rinv_next)

theorem chimeSnoop_inv {t : Nat} {hint : Bool} {s : State} (h_s : s.Inv) : (chimeSnoop t hint s).Inv := by
  unfold chimeSnoop
  try dsimp only
  repeat' (first
    | with_reducible (first
      | assumption | apply linkUp_inv | apply State.setTenant_inv | apply State.emit_inv | apply readChime_inv
      | apply inv_ite)
    | intro _ | refine pair_inv ‹_› ?_ | refine opt_inv ‹_› ?_ | refine optp_inv ‹_› ?_ | split)

theorem execChimeSnoop_inv {t : Fin 64} {hint : Bool} {s : State} (h_s : s.Inv) : RInv (execChimeSnoop t hint s) :=
    rinv_next (chimeSnoop_inv h_s)

theorem chimePoll_inv {t : Nat} {s : State} (h_s : s.Inv) : (chimePoll t s).Inv := by
  unfold chimePoll
  try dsimp only
  repeat' (first
    | with_reducible (first
      | assumption | apply State.setTenant_inv | apply State.emit_inv | apply inv_ite)
    | intro _)

theorem execChimePoll_inv {t : Fin 64} {s : State} (h_s : s.Inv) : RInv (execChimePoll t s) :=
  rinv_next (chimePoll_inv h_s)

theorem seeIndices_inv {t r : Nat} {prod cons : BitVec 32} {s : State} (h_s : s.Inv) :
    (seeIndices t r prod cons s).Inv := by
  unfold seeIndices
  try dsimp only
  repeat' (first
    | with_reducible (first
      | assumption | apply State.setRing_inv | apply stopRing_inv | apply inv_ite)
    | intro _)

theorem seeLine_inv {t : Nat} {line : List Byte} {s : State} (h_s : s.Inv) : (seeLine t line s).Inv := by
  unfold seeLine
  try dsimp only
  repeat' (first
    | with_reducible (first
      | assumption | apply forEach_inv | apply seeIndices_inv | apply inv_ite)
    | intro _)

theorem endLineRead_inv {t : Nat} {held : Bool} {s : State} (h_s : s.Inv) : (endLineRead t held s).Inv := by
  unfold endLineRead
  try dsimp only
  repeat' (first | with_reducible (first | assumption | apply State.setTenant_inv | apply inv_ite) | intro _)

theorem chimeLineData_inv {t : Nat} {line : List Byte} {s : State} (h_s : s.Inv) : (chimeLineData t line s).Inv := by
  unfold chimeLineData
  try dsimp only
  repeat' (first
    | with_reducible (first
      | assumption | apply readChime_inv | apply seeLine_inv | apply endLineRead_inv | apply inv_ite)
    | intro _)

theorem execChimeLineData_inv {t : Fin 64} {line : List Byte} {s : State} (h_s : s.Inv) : RInv (execChimeLineData t
    line s) := by
  unfold execChimeLineData
  try dsimp only
  repeat' (first
    | with_reducible (first
      | assumption | apply chimeLineData_inv | apply rinv_next | apply rinv_fault | apply rinv_ite | apply inv_ite)
    | intro _)

theorem fetch_inv {t r : Nat} {descs : List (List Byte)} {s : State} (h_s : s.Inv) : (fetch t r descs s).Inv := by
  unfold fetch
  try dsimp only
  repeat' (first
    | with_reducible (first
      | assumption | apply State.setRing_inv | apply State.emit_inv | apply inv_ite)
    | intro _)

theorem execDescriptorFetch_inv {t : Fin 64} {r : Fin 8} {descs : List (List Byte)} {s : State} (h_s : s.Inv) :
    RInv (execDescriptorFetch t r descs s) := by
  unfold execDescriptorFetch
  try dsimp only
  repeat' (first
    | with_reducible (first
      | assumption | apply fetch_inv | apply rinv_next | apply rinv_ite | apply rinv_fault)
    | intro _)

theorem nopDescriptor_inv {t r : Nat} {s : State} (h_s : s.Inv) : (nopDescriptor t r s).Inv := by
  unfold nopDescriptor
  try dsimp only
  repeat' (first | with_reducible (first | assumption | apply decide1_inv | apply inv_ite) | intro _ | split)

theorem execNopDescriptor_inv {t : Fin 64} {r : Fin 8} {s : State} (h_s : s.Inv) : RInv (execNopDescriptor t r s) :=
  rinv_next (nopDescriptor_inv h_s)

theorem logAer_inv {t : Nat} {why : ReadEnd} {s : State} (h_s : s.Inv) : (logAer t why s).Inv := by
  unfold logAer
  try dsimp only
  repeat' with_reducible (first | assumption | apply State.setFunc_inv)

theorem stopRings_inv {t : Nat} {s : State} (h_s : s.Inv) : (stopRings t s).Inv := by
  unfold stopRings
  try dsimp only
  repeat' (first
    | with_reducible (first
      | assumption | apply stopRing_inv | apply forEach_inv | apply inv_ite)
    | intro _)

theorem hostReadFail_inv {what : HostRead} {why : ReadEnd} {addr : BitVec 64} {s : State} (h_s : s.Inv) :
    (hostReadFail what why addr s).Inv := by
  unfold hostReadFail
  try dsimp only
  repeat' (first
    | with_reducible (first
      | assumption | apply stopRing_inv | apply fireJob_inv | apply fire_inv | apply endLineRead_inv
      | apply logAer_inv | apply stopRings_inv | apply inv_ite)
    | intro _ | refine pair_inv ‹_› ?_ | refine opt_inv ‹_› ?_ | refine optp_inv ‹_› ?_ | split)

theorem execHostReadFail_inv {what : HostRead} {why : ReadEnd} {addr : BitVec 64} {s : State} (h_s : s.Inv) : RInv
    (execHostReadFail what why addr s) := rinv_next (hostReadFail_inv h_s)

theorem completionWrite_inv {t r : Nat} {held : Bool} {s : State} (h_s : s.Inv) : (completionWrite t r held s).Inv :=
    by
  unfold completionWrite
  try dsimp only
  repeat' (first
    | with_reducible (first
      | assumption | apply askGong_inv | apply completeHead_inv | apply inv_ite)
    | intro _)

theorem execCompletionWrite_inv {t : Fin 64} {r : Fin 8} {held : Bool} {s : State} (h_s : s.Inv) : RInv
    (execCompletionWrite t r held s) := rinv_next (completionWrite_inv h_s)

theorem epochMarker_inv {t r : Nat} {s : State} (h_s : s.Inv) : (epochMarker t r s).Inv := by
  unfold epochMarker
  try dsimp only
  repeat' (first
    | with_reducible (first
      | assumption | apply State.setRing_inv | apply writeEntry_inv | apply inv_ite)
    | intro _)

theorem markerWrite_inv {t r : Nat} {held : Bool} {s : State} (h_s : s.Inv) : (markerWrite t r held s).Inv := by
  unfold markerWrite
  try dsimp only
  repeat' (first
    | with_reducible (first
      | assumption | apply askGong_inv | apply epochMarker_inv | apply inv_ite)
    | intro _)

theorem execEpochMarker_inv {t : Fin 64} {r : Fin 8} {held : Bool} {s : State} (h_s : s.Inv) : RInv (execEpochMarker t
    r held s) := rinv_next (markerWrite_inv h_s)

theorem tailHint_inv {t : Nat} {s : State} (h_s : s.Inv) : (tailHint t s).Inv := by
  unfold tailHint
  try dsimp only
  repeat' (first
    | with_reducible (first
      | assumption | apply linkUp_inv | apply State.setTenant_inv | apply State.emit_inv | apply inv_ite)
    | intro _)

theorem execTailHintWrite_inv {t : Fin 64} {s : State} (h_s : s.Inv) : RInv (execTailHintWrite t s) :=
  rinv_next (tailHint_inv h_s)

/-! ## Machine/CarillonOps.lean -/

theorem askEvent_inv {n : Nat} {held : Bool} {s : State} (h_s : s.Inv) : (askEvent n held s).Inv := by
  unfold askEvent
  try dsimp only
  repeat' with_reducible (first | assumption | apply raise_inv | apply askGong_inv)

theorem presentNext_inv {c : Nat} {s : State} (h_s : s.Inv) : (presentNext c s).Inv := by
  unfold presentNext
  try dsimp only
  repeat' (first
    | with_reducible (first
      | assumption | apply State.setSrc_inv | apply inv_ite)
    | intro _ | refine pair_inv ‹_› ?_ | refine opt_inv ‹_› ?_ | refine optp_inv ‹_› ?_ | split)

theorem withdraw_inv {n : Nat} {s : State} (h_s : s.Inv) : (withdraw n s).Inv := by
  unfold withdraw
  try dsimp only
  repeat' with_reducible (first | assumption | apply State.setSrc_inv)

theorem endActive_inv {n : Nat} {s : State} (h_s : s.Inv) : (endActive n s).Inv := by
  unfold endActive
  try dsimp only
  repeat' (first
    | with_reducible (first
      | assumption | apply askEvent_inv | apply State.setSrc_inv | apply inv_ite)
    | intro _)

theorem releaseClaims_inv {c : Nat} {s : State} (h_s : s.Inv) : (releaseClaims c s).Inv := by
  unfold releaseClaims
  try dsimp only
  repeat' (first
    | with_reducible (first
      | assumption | apply State.setSrc_inv | apply State.setClaimed_inv | apply forEach_inv)
    | intro _)

/-! ## Machine/ResetOps.lean -/

theorem domainOn_inv {d : Nat} {s : State} (h_s : s.Inv) : (domainOn d s).Inv := by
  unfold domainOn
  try dsimp only
  repeat' (first
    | with_reducible (first
      | assumption | apply forEach_inv | apply State.setDom_inv | apply inv_ite)
    | intro _ | refine pair_inv ‹_› ?_ | refine opt_inv ‹_› ?_ | refine optp_inv ‹_› ?_ | split
    | with_reducible apply inv_keep)

theorem domainOff_inv {d : Nat} {s : State} (h_s : s.Inv) : (domainOff d s).Inv := by
  unfold domainOff
  try dsimp only
  repeat' (first
    | with_reducible (first
      | assumption | apply forEach_inv | apply State.setDom_inv | apply linesLow_inv | apply inv_ite)
    | intro _ | refine pair_inv ‹_› ?_ | refine opt_inv ‹_› ?_ | refine optp_inv ‹_› ?_ | split
    | with_reducible apply inv_keep | with_reducible apply inv_grd)

theorem domainsOff_inv {ds : List Nat} {s : State} (h_s : s.Inv) : (domainsOff ds s).Inv := by
  unfold domainsOff
  try dsimp only
  repeat' with_reducible (first | assumption | apply forEach_inv | apply domainOff_inv)

theorem clearMgt_inv {retrain : Bool} {s : State} (h_s : s.Inv) : (clearMgt retrain s).Inv := by
  unfold clearMgt
  dsimp only
  refine forEachAny_inv (fun _ _ h => inv_ite (fun _ => askEvent_inv h) (fun _ => h))
    (forEach_inv (fun _ _ h => pumpAll_inv h) ?_)
  exact inv_mk ⟨h_s.memOk.cells, ueOk_reset, patrolOk_reset⟩ ⟨h_s.pwrOk.cap, h_s.pwrOk.vset⟩ ⟨wdogOk_reset⟩
    ⟨sliceOk_reset⟩ ⟨h_s.carOk.split⟩ ⟨bwdogOk_reset⟩

theorem clearPage_inv {t : Nat} {s : State} (h_s : s.Inv) : (clearPage t s).Inv := by
  unfold clearPage
  try dsimp only
  repeat' (first
    | with_reducible (first
      | assumption | apply linkUp_inv | apply State.setTenant_inv | apply State.setRing_inv | apply forEach_inv
      | apply inv_ite)
    | intro _)

theorem clearCq_inv {t : Nat} {s : State} (h_s : s.Inv) : (clearCq t s).Inv := by
  unfold clearCq
  try dsimp only
  repeat' (first
    | with_reducible (first
      | assumption | apply State.setRing_inv | apply forEach_inv | apply inv_ite)
    | intro _)

theorem clearHif_inv {s : State} (h_s : s.Inv) : (clearHif s).Inv := by
  unfold clearHif
  try dsimp only
  repeat' with_reducible (first | assumption | apply forEach_inv | apply clearPage_inv | apply inv_keep)

theorem flrTenant_inv {t : Nat} {s : State} (h_s : s.Inv) : (flrTenant t s).Inv := by
  unfold flrTenant
  try dsimp only
  repeat' with_reducible (first
    | assumption | apply State.setFunc_inv | apply State.setTenant_inv | apply queueScrub_inv | apply dropTenant_inv
    | apply tenantLost_inv | apply clearPage_inv | apply clearCq_inv)

theorem evictLines_inv {t : Nat} {s : State} (h_s : s.Inv) : (evictLines t s).Inv := by
  unfold evictLines
  try dsimp only
  repeat' (first | with_reducible (first | assumption | apply State.emit_inv | apply inv_ite) | intro _)

theorem tenantGone_inv {t : Nat} {s : State} (h_s : s.Inv) : (tenantGone t s).Inv := by
  unfold tenantGone
  try dsimp only
  repeat' with_reducible (first | assumption | apply State.setTenant_inv | apply evictLines_inv)

theorem stopAll_inv {s : State} (h_s : s.Inv) : (stopAll s).Inv := by
  unfold stopAll
  try dsimp only
  repeat' (first
    | with_reducible (first
      | assumption | apply rescale_inv | apply forEach_inv | apply domainsOff_inv | apply portStop_inv
      | apply streamStop_inv | apply inv_ite)
    | intro _)

/-! ## Machine/Pins.lean -/

theorem posMove_inv {p : Nat} {a b : Bool} {s : State} (h_s : s.Inv) : (posMove p a b s).Inv := by
  unfold posMove
  try dsimp only
  repeat' (first
    | with_reducible (first
      | assumption | apply State.setPos_inv | apply forEachAny_inv | apply raise_inv | apply matchAndStop_inv
      | apply forEach_inv | apply inv_ite)
    | intro _)

theorem posTick_inv {p : Nat} {s : State} (h_s : s.Inv) : (posTick p s).Inv := by
  unfold posTick
  try dsimp only
  repeat' with_reducible (first | assumption | apply State.setPos_inv | apply posMove_inv)

theorem captureEdge_inv {k : Nat} {rising : Bool} {s : State} (h_s : s.Inv) : (captureEdge k rising s).Inv := by
  unfold captureEdge
  try dsimp only
  repeat' (first
    | with_reducible (first
      | assumption | apply State.setChan_inv | apply forEachAny_inv | apply raise_inv | apply forEach_inv
      | apply inv_ite)
    | intro _)

theorem captureTick_inv {k : Nat} {s : State} (h_s : s.Inv) : (captureTick k s).Inv := by
  unfold captureTick
  try dsimp only
  repeat' (first
    | with_reducible (first
      | assumption | apply State.setChan_inv | apply captureEdge_inv | apply inv_ite)
    | intro _)

theorem runFilters_inv {atOnce : Bool} {s : State} (h_s : s.Inv) : (runFilters atOnce s).Inv := by
  unfold runFilters
  try dsimp only
  repeat' with_reducible (first | assumption | apply forEachAny_inv | apply posTick_inv | apply captureTick_inv)

theorem pinLevels_inv {ls : List (Nat × Bool)} {s : State} (h_s : s.Inv) : (pinLevels ls s).Inv := by
  unfold pinLevels
  try dsimp only
  repeat' (first
    | with_reducible (first
      | assumption | apply runFilters_inv | apply foldl_inv | apply inv_ite)
    | intro _ | refine pair_inv ‹_› ?_ | refine opt_inv ‹_› ?_ | refine optp_inv ‹_› ?_ | split
    | with_reducible apply inv_keep)

theorem seenLevel_inv {k : Nat} {level : Bool} {s : State} (h_s : s.Inv) : (seenLevel k level s).2.Inv := by
  unfold seenLevel
  split
  · exact State.draw_inv h_s
  · exact h_s

theorem pinChange_inv {i : Nat} {level : Bool} {s : State} (h_s : s.Inv) : (pinChange i level s).Inv :=
  pinLevels_inv (seenLevel_inv h_s)

theorem filteredLevel_inv {k : Nat} {level held : Bool} {s : State} (h_s : s.Inv) : (filteredLevel k level
    held s).Inv := by
  unfold filteredLevel
  try dsimp only
  repeat' (first
    | with_reducible (first
      | assumption | apply askEvent_inv | apply mfltFall_inv | apply inv_ite)
    | intro _ | refine pair_inv ‹_› ?_ | refine opt_inv ‹_› ?_ | refine optp_inv ‹_› ?_ | split
    | with_reducible apply inv_keep | with_reducible apply inv_car)

theorem glitchFilterOutput_inv {k : Nat} {level held : Bool} {s : State} (h_s : s.Inv) : (glitchFilterOutput k level
    held s).Inv :=
  inv_ite (fun _ => h_s) (fun _ => filteredLevel_inv (seenLevel_inv h_s))

theorem driveGp_inv {k : Nat} {s : State} (h_s : s.Inv) : (driveGp k s).Inv := by
  unfold driveGp
  try dsimp only
  repeat' (first
    | with_reducible (first
      | assumption | apply pinLevels_inv | apply glitchFilterOutput_inv | apply inv_ite)
    | intro _)

theorem driveGps_inv {s : State} (h_s : s.Inv) : (driveGps s).Inv := by
  unfold driveGps
  try dsimp only
  repeat' with_reducible (first | assumption | apply forEachAny_inv | apply driveGp_inv)

/-! ## Machine/Board.lean -/

theorem auxPowerLoss_inv {fitMv : Nat} {s : State} (h_s : s.Inv) : (auxPowerLoss fitMv s).Inv := by
  unfold auxPowerLoss
  try dsimp only
  repeat' (first
    | with_reducible (first
      | assumption | apply fire_inv | apply inv_ite)
    | intro _ | refine pair_inv ‹_› ?_ | refine opt_inv ‹_› ?_ | refine optp_inv ‹_› ?_ | split
    | with_reducible apply inv_keep | with_reducible apply inv_pwr)

theorem execAuxPowerLoss_inv {fitMv : Nat} {s : State} (h_s : s.Inv) : RInv (execAuxPowerLoss fitMv s) :=
  rinv_next (auxPowerLoss_inv h_s)

theorem execAuxInputPresent_inv {sense0Open sense1Open : Bool} {s : State} (h_s : s.Inv) :
    RInv (execAuxInputPresent sense0Open sense1Open s) := rinv_next (inv_keep h_s)

theorem recordOverload_inv {cage : Nat} {s : State} (h_s : s.Inv) : (recordOverload cage s).Inv := by
  unfold recordOverload
  try dsimp only
  repeat' with_reducible (first | assumption | apply fire_inv)

theorem feedOverload_inv {cage : Nat} {s : State} (h_s : s.Inv) : (feedOverload cage s).Inv := by
  unfold feedOverload
  try dsimp only
  repeat' (first
    | with_reducible (first
      | assumption | apply recordOverload_inv | apply inv_ite)
    | intro _ | refine pair_inv ‹_› ?_ | refine opt_inv ‹_› ?_ | refine optp_inv ‹_› ?_ | split
    | with_reducible apply inv_keep)

theorem execCableFeedOverload_inv {cage : Fin 2} {s : State} (h_s : s.Inv) : RInv (execCableFeedOverload cage s) :=
  rinv_next (feedOverload_inv h_s)

theorem brdWrite_inv {q : Requester} {off : Nat} {v : BitVec 32} {s : State} (h_s : s.Inv) : OInv (brdWrite q off v s)
    := by
  unfold brdWrite
  try dsimp only
  repeat' (first
    | with_reducible (first
      | assumption | apply regError_inv | apply driveGps_inv | apply oinv_none | apply opinv_none | apply oinv_some
      | apply oinv_ite | apply oinv_map | apply inv_ite)
    | intro _ | refine pair_inv ‹_› ?_ | refine opt_inv ‹_› ?_ | refine optp_inv ‹_› ?_ | split
    | with_reducible apply inv_keep)

theorem smbusRead_inv {port : Fin 2} {code : Nat} {s : State} (h_s : s.Inv) : (smbusRead port code s).Inv := by
  unfold smbusRead
  try dsimp only
  repeat' (first | with_reducible (first | assumption | apply regRead_inv | apply pinv_mk) | intro _)

theorem execSmbusBlockRead_inv {port : Fin 2} {code : Fin 64} {s : State} (h_s : s.Inv) :
    RInv (execSmbusBlockRead port code s) := rinv_next (smbusRead_inv h_s)

theorem smbusWrite_inv {port : Fin 2} {code : Nat} {v : BitVec 32} {s : State} (h_s : s.Inv) :
    (smbusWrite port code v s).Inv := by
  unfold smbusWrite
  try dsimp only
  repeat' (first
    | with_reducible (first
      | assumption | apply regError_inv | apply regWrite_inv | apply brdWrite_inv)
    | intro _ | refine opt_inv ‹_› ?_ | split)

theorem execSmbusBlockWrite_inv {port : Fin 2} {code : Fin 64} {v : BitVec 32} {s : State} (h_s : s.Inv) :
    RInv (execSmbusBlockWrite port code v s) := rinv_next (smbusWrite_inv h_s)

/-! ## Machine/Carillon.lean -/

theorem nextRead_inv {s : State} (h_s : s.Inv) : PInv (nextRead s) := by
  unfold nextRead
  try dsimp only
  repeat' with_reducible (first | assumption | apply pinv_mk | apply inv_keep)
theorem execGngNextRead_inv {q : Requester} {s : State} (h_s : s.Inv) : RInv (execGngNextRead q s) := by
  unfold execGngNextRead
  try dsimp only
  repeat' with_reducible (first | assumption | apply regRead_inv | apply nextRead_inv | apply rinv_next)

theorem holdRead_inv {s : State} (h_s : s.Inv) : PInv (holdRead s) := by
  unfold holdRead
  try dsimp only
  repeat' with_reducible (first | assumption | apply pinv_mk | apply inv_keep)
theorem execGngHoldRead_inv {q : Requester} {s : State} (h_s : s.Inv) : RInv (execGngHoldRead q s) := by
  unfold execGngHoldRead
  try dsimp only
  repeat' with_reducible (first | assumption | apply regRead_inv | apply holdRead_inv | apply rinv_next)

theorem execGlitchFilterOutput_inv {k : Fin 20} {level held : Bool} {s : State} (h_s : s.Inv) : RInv
    (execGlitchFilterOutput k level held s) := rinv_next (glitchFilterOutput_inv h_s)

theorem sourceEvent_inv {n : Nat} {held : Bool} {s : State} (h_s : s.Inv) : (sourceEvent n held s).Inv := by
  unfold sourceEvent
  try dsimp only
  repeat' (first | with_reducible (first | assumption | apply askEvent_inv | apply inv_ite) | intro _)

theorem execSourceEvent_inv {n : Fin 512} {held : Bool} {s : State} (h_s : s.Inv) : RInv (execSourceEvent n held s) :=
  rinv_next (sourceEvent_inv h_s)

theorem srcWrite_inv {n : Nat} {v : BitVec 32} {inWindow : Bool} {s : State} (h_s : s.Inv) : (srcWrite n v inWindow
    s).Inv := by
  unfold srcWrite
  try dsimp only
  repeat' (first
    | with_reducible (first
      | assumption | apply askEvent_inv | apply State.setSrc_inv | apply inv_ite)
    | intro _)

theorem execCarSrcWrite_inv {q : Requester} {n : Fin 512} {v : BitVec 32} {inWindow : Bool} {s : State} (h_s : s.Inv)
    : RInv (execCarSrcWrite q n v inWindow s) := by
  unfold execCarSrcWrite
  try dsimp only
  repeat' with_reducible (first | assumption | apply regWrite_inv | apply srcWrite_inv | apply rinv_next)

theorem sourceCommit_inv {n : Nat} {s : State} (h_s : s.Inv) : (sourceCommit n s).Inv := by
  unfold sourceCommit
  try dsimp only
  repeat' (first
    | with_reducible (first
      | assumption | apply fireMsix_inv | apply State.setSrc_inv | apply inv_ite)
    | intro _)

theorem execSourceCommit_inv {n : Fin 512} {s : State} (h_s : s.Inv) : RInv (execSourceCommit n s) :=
  rinv_next (sourceCommit_inv h_s)

theorem holdOff_inv {g : Nat} {s : State} (h_s : s.Inv) : (holdOff g s).Inv := by
  unfold holdOff
  try dsimp only
  repeat' (first
    | with_reducible (first
      | assumption | apply forEach_inv | apply withdraw_inv | apply inv_ite)
    | intro _ | with_reducible apply inv_car)

theorem claim_inv {c : Nat} {s : State} (h_s : s.Inv) : PInv (claim c s) := by
  unfold claim
  try dsimp only
  repeat' (first
    | with_reducible (first
      | assumption | apply holdOff_inv | apply presentNext_inv | apply State.setSrc_inv | apply State.setClaimed_inv
      | apply pinv_mk | apply pinv_ite | apply opinv_getD | apply inv_ite)
    | intro _ | refine pair_inv ‹_› ?_ | refine opt_inv ‹_› ?_ | refine optp_inv ‹_› ?_ | split)
theorem claim_inv_snd {c : Nat} {s : State} (h_s : s.Inv) : (claim c s).2.Inv := claim_inv h_s

theorem claimRead_inv {q : Requester} {c : Nat} {s : State} (h_s : s.Inv) : PInv (claimRead q c s) := by
  unfold claimRead
  try dsimp only
  repeat' (first
    | with_reducible (first
      | assumption | apply regError_inv | apply claim_inv_snd | apply pinv_mk)
    | split)
theorem claimRead_inv_snd {q : Requester} {c : Nat} {s : State} (h_s : s.Inv) : (claimRead q c s).2.Inv :=
    claimRead_inv h_s

theorem execCarClaim_inv {q : Requester} {c : Fin 4} {s : State} (h_s : s.Inv) : RInv (execCarClaim q c s) := by
  unfold execCarClaim
  try dsimp only
  repeat' with_reducible (first | assumption | apply regRead_inv | apply claimRead_inv | apply rinv_next)

theorem done_inv {q : Requester} {c : Nat} {v : BitVec 32} {s : State} (h_s : s.Inv) : (done q c v s).Inv := by
  unfold done
  try dsimp only
  repeat' (first
    | with_reducible (first
      | assumption | apply presentNext_inv | apply endActive_inv | apply State.setClaimed_inv | apply regError_inv
      | apply inv_ite)
    | intro _)

theorem execCarDone_inv {q : Requester} {c : Fin 4} {v : BitVec 32} {s : State} (h_s : s.Inv) :
    RInv (execCarDone q c v s) := by
  unfold execCarDone
  try dsimp only
  repeat' with_reducible (first | assumption | apply regWrite_inv | apply done_inv | apply rinv_next)

theorem swset_inv {w : Nat} {v : BitVec 32} {s : State} (h_s : s.Inv) : (swset w v s).Inv := by
  unfold swset
  try dsimp only
  repeat' (first
    | with_reducible (first
      | assumption | apply forEachAny_inv | apply raise_inv | apply forEach_inv | apply inv_ite)
    | intro _)

theorem execCarSwset_inv {q : Requester} {w : Fin 16} {v : BitVec 32} {s : State} (h_s : s.Inv) :
    RInv (execCarSwset q w v s) := by
  unfold execCarSwset
  try dsimp only
  repeat' with_reducible (first | assumption | apply regWrite_inv | apply swset_inv | apply rinv_next)

theorem lostClear_inv {n : Nat} {v : BitVec 32} {s : State} (h_s : s.Inv) : (lostClear n v s).Inv := by
  unfold lostClear
  try dsimp only
  repeat' (first | with_reducible (first | assumption | apply State.setSrc_inv | apply inv_ite) | intro _)

theorem execCarLostClear_inv {q : Requester} {n : Fin 512} {v : BitVec 32} {s : State} (h_s : s.Inv) :
    RInv (execCarLostClear q n v s) := by
  unfold execCarLostClear
  try dsimp only
  repeat' with_reducible (first | assumption | apply regWrite_inv | apply lostClear_inv | apply rinv_next)

theorem stampRead_inv {n : Nat} {s : State} (h_s : s.Inv) : PInv (stampRead n s) := by
  unfold stampRead
  try dsimp only
  repeat' with_reducible (first | assumption | apply State.setSrc_inv | apply pinv_mk)
theorem stampRead_inv_snd {n : Nat} {s : State} (h_s : s.Inv) : (stampRead n s).2.Inv := stampRead_inv h_s

theorem execCarStampRead_inv {q : Requester} {n : Fin 512} {s : State} (h_s : s.Inv) : RInv (execCarStampRead q n s)
    := by
  unfold execCarStampRead
  try dsimp only
  repeat' with_reducible (first | assumption | apply regRead_inv | apply stampRead_inv | apply rinv_next)

theorem execHoldoffExpire_inv {g : Fin 32} {s : State} (h_s : s.Inv) : RInv (execHoldoffExpire g s) :=
  rinv_next (inv_car h_s)

theorem latchWake_inv {s : State} (h_s : s.Inv) : (latchWake s).Inv := by
  unfold latchWake
  try dsimp only
  repeat' (first | with_reducible (first | assumption | apply inv_ite) | intro _ | with_reducible apply inv_keep)

theorem pinLatchCatch_inv {k : Nat} {level : Bool} {s : State} (h_s : s.Inv) : (pinLatchCatch k level s).Inv := by
  unfold pinLatchCatch
  try dsimp only
  repeat' (first
    | with_reducible (first | assumption | apply latchWake_inv | apply inv_ite) | intro _
    | with_reducible apply inv_car)

theorem execPinLatchCatch_inv {k : Fin 20} {level : Bool} {s : State} (h_s : s.Inv) :
    RInv (execPinLatchCatch k level s) := rinv_next (pinLatchCatch_inv h_s)

theorem pinLatchReplay_inv {s : State} (h_s : s.Inv) : (pinLatchReplay s).Inv := by
  unfold pinLatchReplay
  try dsimp only
  repeat' (first
    | with_reducible (first
      | assumption | apply askEvent_inv | apply forEachAny_inv | apply forEach_inv | apply inv_ite)
    | intro _ | refine pair_inv ‹_› ?_ | refine opt_inv ‹_› ?_ | refine optp_inv ‹_› ?_ | split
    | with_reducible apply inv_keep | with_reducible apply inv_car)

theorem execPinLatchReplay_inv {s : State} (h_s : s.Inv) : RInv (execPinLatchReplay s) :=
  rinv_next (pinLatchReplay_inv h_s)

theorem coalesceTimer_inv {t r : Nat} {s : State} (h_s : s.Inv) : (coalesceTimer t r s).Inv := by
  unfold coalesceTimer
  try dsimp only
  repeat' (first | with_reducible (first | assumption | apply fireCq_inv | apply inv_ite) | intro _)

theorem execCoalesceTimerExpire_inv {t : Fin 64} {r : Fin 8} {s : State} (h_s : s.Inv) :
    RInv (execCoalesceTimerExpire t r s) := rinv_next (coalesceTimer_inv h_s)

theorem coalWrite_inv {t r : Nat} {v : BitVec 32} {timeMet : Bool} {s : State} (h_s : s.Inv) : (coalWrite t r v
    timeMet s).Inv := by
  unfold coalWrite
  try dsimp only
  repeat' (first
    | with_reducible (first
      | assumption | apply fireCq_inv | apply State.setRing_inv | apply inv_ite)
    | intro _)

theorem execCoalWrite_inv {q : Requester} {t : Fin 64} {r : Fin 8} {v : BitVec 32} {timeMet : Bool} {s : State}
    (h_s : s.Inv) : RInv (execCoalWrite q t r v timeMet s) := by
  unfold execCoalWrite
  try dsimp only
  repeat' with_reducible (first | assumption | apply regWrite_inv | apply coalWrite_inv | apply rinv_next)

theorem msixUnblock_inv {t e : Nat} {s : State} (h_s : s.Inv) : (msixUnblock t e s).Inv := by
  unfold msixUnblock
  try dsimp only
  repeat' (first
    | with_reducible (first
      | assumption | apply State.setFunc_inv | apply sendMsix_inv | apply inv_ite)
    | intro _)

theorem execMsixUnblock_inv {t e : Fin 64} {s : State} (h_s : s.Inv) : RInv (execMsixUnblock t e s) :=
  rinv_next (msixUnblock_inv h_s)

theorem l1Exit_inv {s : State} (h_s : s.Inv) : (l1Exit s).Inv := by
  unfold l1Exit
  try dsimp only
  repeat' (first
    | with_reducible (first
      | assumption | apply sendHeld_inv | apply inv_ite)
    | intro _ | refine pair_inv ‹_› ?_ | refine opt_inv ‹_› ?_ | refine optp_inv ‹_› ?_ | split
    | with_reducible apply inv_keep)

theorem execL1ExitSend_inv {s : State} (h_s : s.Inv) : RInv (execL1ExitSend s) := rinv_next (l1Exit_inv h_s)

theorem pmeConfig_inv {clearStatus en : Bool} {s : State} (h_s : s.Inv) : (pmeConfig clearStatus en s).Inv := by
  unfold pmeConfig
  try dsimp only
  repeat' (first
    | with_reducible (first | assumption | apply latchWake_inv | apply inv_ite) | intro _
    | with_reducible apply inv_keep)

theorem execPmeConfigWrite_inv {clearStatus en : Bool} {s : State} (h_s : s.Inv) :
    RInv (execPmeConfigWrite clearStatus en s) := rinv_next (pmeConfig_inv h_s)

/-! ## Machine/Flags.lean -/

theorem countSat_inv {i slot n : Nat} {s : State} (h_s : s.Inv) : (countSat i slot n s).Inv := by
  unfold countSat
  try dsimp only
  repeat' (first
    | with_reducible (first
      | assumption | apply State.setTile_inv | apply raise_inv | apply inv_ite)
    | intro _ | split | with_reducible apply inv_grd)

end Sys2Proof.Machine
end

