-- ==== Sys2Proof/Laws/InvChain.lean ====
section
/-!
SUPPORT. Each operation keeps the invariant: a tile between instructions, its messages, the scheduler and the flits of the chain.
-/
namespace Sys2Proof.Machine

/-! ## Machine/TileOps.lean -/

theorem countSats_inv {i : Nat} {sats : List (Nat × Nat)} {s : State} (h_s : s.Inv) : (countSats i sats s).Inv := by
  unfold countSats
  try dsimp only
  repeat' (first | with_reducible (first | assumption | apply forEach_inv | apply countSat_inv) | intro _)

theorem applyOut_inv {i : Nat} {o : TileOut} {s : State} (h_s : s.Inv) : (applyOut i o s).Inv := by
  unfold applyOut
  try dsimp only
  repeat' (first
    | with_reducible (first
      | assumption | apply State.setTile_inv | apply tileFault_inv | apply countSats_inv | apply inv_ite)
    | intro _ | split)

theorem tileRun_inv {op i : Nat} {f : Word → Tile → TileOut} {s : State} (h_s : s.Inv) : (tileRun op i f s).Inv := by
  unfold tileRun
  try dsimp only
  repeat' (first | with_reducible (first | assumption | apply applyOut_inv | apply inv_ite) | intro _)

/-! ## Machine/ChainOps.lean -/

theorem sendAnswer_inv {hdr : Lane} {code : Nat} {s : State} (h_s : s.Inv) : (sendAnswer hdr code s).Inv := by
  unfold sendAnswer
  try dsimp only
  repeat' (first | with_reducible (first | assumption | apply sendFlit_inv) | split)

theorem failSender_inv {hdr : Lane} {code : Nat} {s : State} (h_s : s.Inv) : (failSender hdr code s).Inv := by
  unfold failSender
  try dsimp only
  repeat' (first | with_reducible (first | assumption | apply tileFault_inv | apply inv_ite) | intro _)

/-! ## Machine/Mesh.lean -/

theorem passOutput_inv {m : Nat} {x : Msg} {o : Nat × Nat} {s : State} (h_s : s.Inv) : (passOutput m x o s).Inv := by
  unfold passOutput
  try dsimp only
  repeat' (first
    | with_reducible (first
      | assumption | apply inv_ite)
    | intro _ | refine pair_inv ‹_› ?_ | refine opt_inv ‹_› ?_ | refine optp_inv ‹_› ?_ | split
    | with_reducible apply inv_keep | with_reducible apply inv_grd)

theorem meshMove_inv {m : Nat} {s : State} (h_s : s.Inv) : (meshMove m s).Inv := by
  unfold meshMove
  try dsimp only
  repeat' (first
    | with_reducible (first
      | assumption | apply passOutput_inv | apply inv_ite)
    | intro _ | refine pair_inv ‹_› ?_ | refine opt_inv ‹_› ?_ | refine optp_inv ‹_› ?_ | split
    | with_reducible apply inv_keep | with_reducible apply inv_grd)

theorem meshTick_inv {s : State} (h_s : s.Inv) : (meshTick s).Inv := by
  unfold meshTick
  try dsimp only
  repeat' with_reducible (first | assumption | apply meshMove_inv | apply forEachAny_inv)

/-! ## Machine/TileMessage.lean -/

theorem send_inv {i : Nat} {s : State} (h_s : s.Inv) : (send i s).Inv := by
  unfold send
  try dsimp only
  repeat' (first
    | with_reducible (first
      | assumption | apply State.setTile_inv | apply applyOut_inv | apply inv_ite)
    | intro _ | split | with_reducible apply inv_grd)

theorem execSend_inv {i : Fin 1024} {s : State} (h_s : s.Inv) : RInv (execSend i s) := rinv_next (send_inv h_s)

theorem sendDone_inv {i : Nat} {s : State} (h_s : s.Inv) : (sendDone i s).Inv := by
  unfold sendDone
  try dsimp only
  repeat' (first
    | with_reducible (first
      | assumption | apply State.setTile_inv | apply inv_ite)
    | intro _ | refine pair_inv ‹_› ?_ | refine opt_inv ‹_› ?_ | refine optp_inv ‹_› ?_ | split
    | with_reducible apply inv_keep | with_reducible apply inv_grd)

theorem execSendDone_inv {i : Fin 1024} {s : State} (h_s : s.Inv) : RInv (execSendDone i s) :=
  rinv_next (sendDone_inv h_s)

theorem execRecv_inv {i : Fin 1024} {s : State} (h_s : s.Inv) : RInv (execRecv i s) := rinv_next (tileRun_inv h_s)

theorem execMbpop_inv {i : Fin 1024} {s : State} (h_s : s.Inv) : RInv (execMbpop i s) := rinv_next (tileRun_inv h_s)

theorem execMbcfg_inv {i : Fin 1024} {s : State} (h_s : s.Inv) : RInv (execMbcfg i s) := rinv_next (tileRun_inv h_s)

theorem execMbstat_inv {i : Fin 1024} {s : State} (h_s : s.Inv) : RInv (execMbstat i s) := rinv_next (tileRun_inv h_s)

theorem dropMsg_inv {m : Nat} {s : State} (h_s : s.Inv) : (dropMsg m s).Inv := by
  unfold dropMsg
  try dsimp only
  repeat' with_reducible (first | assumption | apply inv_grd)

theorem fenceDiscard_inv {x : Msg} {s : State} (h_s : s.Inv) : (fenceDiscard x s).Inv := by
  unfold fenceDiscard
  try dsimp only
  repeat' (first
    | with_reducible (first
      | assumption | apply sendAnswer_inv | apply failSender_inv | apply inv_ite)
    | intro _ | with_reducible apply inv_grd)

theorem messageAccept_inv {m : Nat} {s : State} (h_s : s.Inv) : (messageAccept m s).Inv := by
  unfold messageAccept
  try dsimp only
  repeat' (first
    | with_reducible (first
      | assumption | apply sendAnswer_inv | apply tileFault_inv | apply State.setTile_inv | apply dropMsg_inv
      | apply fenceDiscard_inv | apply inv_ite)
    | intro _ | refine pair_inv ‹_› ?_ | refine opt_inv ‹_› ?_ | refine optp_inv ‹_› ?_ | split)

theorem execMessageAccept_inv {m : Nat} {s : State} (h_s : s.Inv) : RInv (execMessageAccept m s) :=
  rinv_next (messageAccept_inv h_s)

/-! ## Machine/SchedOps.lean -/

theorem catchUp_inv {t : Nat} {s : State} (h_s : s.Inv) : (catchUp t s).Inv := by
  unfold catchUp
  try dsimp only
  repeat' (first | with_reducible (first | assumption | apply State.setSchTen_inv | apply inv_ite) | intro _ | split)

theorem queueSample_inv {j : Job} {id : Option Nat} {s : State} (h_s : s.Inv) : (queueSample j id s).Inv := by
  unfold queueSample
  try dsimp only
  repeat' (first | with_reducible (first | assumption | apply State.setQueue_inv | apply inv_ite) | intro _)

theorem queueStream_inv {j : Job} {s : State} (h_s : s.Inv) : (queueStream j s).Inv := by
  unfold queueStream
  try dsimp only
  repeat' (first | with_reducible (first | assumption | apply inv_ite) | intro _ | with_reducible apply inv_keep)

theorem admitJob_inv {j : Job} {s : State} (h_s : s.Inv) : (admitJob j s).Inv := by
  unfold admitJob
  try dsimp only
  repeat' (first
    | with_reducible (first
      | assumption | apply decide1_inv | apply rescale_inv | apply catchUp_inv | apply queueSample_inv
      | apply queueStream_inv | apply inv_ite)
    | intro _ | refine pair_inv ‹_› ?_ | refine opt_inv ‹_› ?_ | refine optp_inv ‹_› ?_ | split
    | with_reducible apply inv_keep | with_reducible apply inv_sch)

theorem rejectJob_inv {j : Job} {c : Cpl} {s : State} (h_s : s.Inv) : (rejectJob j c s).Inv := by
  unfold rejectJob
  try dsimp only
  repeat' with_reducible (first | assumption | apply spanRelease_inv | apply decide1_inv)

theorem lateChecks_inv {j : Job} {s : State} (h_s : s.Inv) : (lateChecks j s).Inv := by
  unfold lateChecks
  try dsimp only
  repeat' (first
    | with_reducible (first
      | assumption | apply readChecks_inv_snd | apply readChecks_inv | apply spanRelease_inv | apply admitJob_inv
      | apply rejectJob_inv | apply inv_ite)
    | intro _ | refine pair_inv ‹_› ?_ | refine opt_inv ‹_› ?_ | refine optp_inv ‹_› ?_ | split)

theorem grantSpan_inv {unit : BitVec 12} {key : BitVec 32} {s : State} (h_s : s.Inv) : PInv (grantSpan unit key s) := by
  unfold grantSpan
  try dsimp only
  repeat' (first | with_reducible (first | assumption | apply pinv_mk) | split | with_reducible apply inv_keep)
theorem grantSpan_inv_snd {unit : BitVec 12} {key : BitVec 32} {s : State} (h_s : s.Inv) : (grantSpan unit key s).2.Inv
    := grantSpan_inv h_s

theorem spanCheck_inv {j : Job} {s : State} (h_s : s.Inv) : (spanCheck j s).Inv := by
  unfold spanCheck
  try dsimp only
  repeat' (first
    | with_reducible (first
      | assumption | apply sendCtrl_inv | apply decide1_inv | apply queueSample_inv | apply lateChecks_inv
      | apply grantSpan_inv_snd | apply grantSpan_inv | apply inv_ite)
    | intro _ | refine pair_inv ‹_› ?_ | refine opt_inv ‹_› ?_ | refine optp_inv ‹_› ?_ | split)

theorem takeTag_inv {j : Job} {s : State} (h_s : s.Inv) : PInv (takeTag j s) := by
  unfold takeTag
  try dsimp only
  repeat' (first | with_reducible (first | assumption | apply pinv_mk) | split | with_reducible apply inv_keep)
theorem takeTag_inv_snd {j : Job} {s : State} (h_s : s.Inv) : (takeTag j s).2.Inv := takeTag_inv h_s

theorem powerQuadrants_inv {tiles : List Nat} {s : State} (h_s : s.Inv) : (powerQuadrants tiles s).Inv := by
  unfold powerQuadrants
  try dsimp only
  repeat' (first
    | with_reducible (first
      | assumption | apply forEach_inv | apply domainOn_inv | apply inv_ite)
    | intro _)

theorem startJob_inv {id origin : Nat} {s : State} (h_s : s.Inv) : (startJob id origin s).Inv := by
  unfold startJob
  try dsimp only
  repeat' (first
    | with_reducible (first
      | assumption | apply readRegions_inv_snd | apply readRegions_inv | apply State.setTile_inv
      | apply State.modJob_inv | apply forEach_inv | apply takeTag_inv_snd | apply takeTag_inv
      | apply powerQuadrants_inv | apply inv_ite)
    | intro _ | refine pair_inv ‹_› ?_ | refine opt_inv ‹_› ?_ | refine optp_inv ‹_› ?_ | split)

theorem chooseVictims_inv {id origin : Nat} {s : State} (h_s : s.Inv) : (chooseVictims id origin s).Inv := by
  unfold chooseVictims
  try dsimp only
  repeat' (first | with_reducible (first | assumption | apply State.modJob_inv | apply forEach_inv) | intro _ | split)

theorem passOver_inv {id : Nat} {s : State} (h_s : s.Inv) : (passOver id s).Inv := by
  unfold passOver
  try dsimp only
  repeat' with_reducible (first | assumption | apply State.modJob_inv)

theorem placeJob_inv {id : Nat} {s : State} (h_s : s.Inv) : (placeJob id s).Inv := by
  unfold placeJob
  try dsimp only
  repeat' (first
    | with_reducible (first
      | assumption | apply State.modJob_inv | apply startJob_inv | apply chooseVictims_inv | apply passOver_inv
      | apply inv_ite)
    | intro _ | split)

theorem spillTile_inv {j : Job} {o : Nat} {s : State} (h_s : s.Inv) : (spillTile j o s).Inv := by
  unfold spillTile
  try dsimp only
  repeat' (first | with_reducible (first | assumption | apply forEach_inv | apply State.writeTen_inv) | intro _)

/-! ## Machine/ChainFlits.lean -/

theorem showLink_inv {x : Nat} {s : State} (h_s : s.Inv) : (showLink x s).Inv := by
  unfold showLink
  try dsimp only
  repeat' (first | with_reducible (first | assumption | apply State.setLink_inv | apply inv_ite) | intro _)

theorem chainEvent_inv {n : Nat} {s : State} (h_s : s.Inv) : (chainEvent n s).Inv := by
  unfold chainEvent
  try dsimp only
  repeat' (first | with_reducible (first | assumption | apply raise_inv | apply inv_ite) | intro _)

theorem applyAck_inv {x : Nat} {ack : BitVec 8} {s : State} (h_s : s.Inv) : (applyAck x ack s).Inv := by
  unfold applyAck
  try dsimp only
  repeat' (first
    | with_reducible (first
      | assumption | apply State.setLink_inv | apply forEach_inv | apply State.emit_inv | apply inv_ite)
    | intro _)

theorem takeFlit_inv {x : Nat} {raw : List Byte} {s : State} (h_s : s.Inv) : (takeFlit x raw s).Inv := by
  unfold takeFlit
  try dsimp only
  repeat' with_reducible (first | assumption | apply State.setLink_inv | apply applyAck_inv)

theorem takeCtrl_inv {x : Nat} {s : State} (h_s : s.Inv) : (takeCtrl x s).Inv := by
  unfold takeCtrl
  try dsimp only
  repeat' with_reducible (first | assumption | apply State.setLink_inv)

theorem relayCtrl_inv {x : Nat} {c : Ctrl} {s : State} (h_s : s.Inv) : (relayCtrl x c s).Inv := by
  unfold relayCtrl
  try dsimp only
  repeat' (first | with_reducible (first | assumption | apply transmit_inv | apply inv_ite) | intro _)

theorem forwardFlit_inv {y : Nat} {f : Flit} {s : State} (h_s : s.Inv) : (forwardFlit y f s).Inv := by
  unfold forwardFlit
  try dsimp only
  repeat' with_reducible (first | assumption | apply State.setLink_inv | apply pumpAll_inv)

theorem answerBack_inv {x : Nat} {hdr : Lane} {code : Nat} {s : State} (h_s : s.Inv) : (answerBack x hdr code s).Inv
    := by
  unfold answerBack
  try dsimp only
  repeat' (first | with_reducible (first | assumption | apply sendFlit_inv | apply inv_ite) | intro _)

theorem setRx_inv {x : Nat} {r : Rx} {s : State} (h_s : s.Inv) : (setRx x r s).Inv := by
  unfold setRx
  try dsimp only
  repeat' with_reducible (first | assumption | apply State.setLink_inv)

theorem dropSending_inv {x : Nat} {fail : Bool} {s : State} (h_s : s.Inv) : (dropSending x fail s).Inv := by
  unfold dropSending
  try dsimp only
  repeat' (first
    | with_reducible (first
      | assumption | apply State.setLink_inv | apply forEach_inv | apply failSender_inv | apply inv_ite)
    | intro _ | split | with_reducible apply inv_grd)

theorem endCrossing_inv {x : Nat} {s : State} (h_s : s.Inv) : (endCrossing x s).Inv := by
  unfold endCrossing
  try dsimp only
  repeat' (first
    | with_reducible (first
      | assumption | apply State.setLink_inv | apply forwardFlit_inv | apply answerBack_inv | apply setRx_inv
      | apply dropSending_inv)
    | split)

theorem linkFalls_inv {x : Nat} {s : State} (h_s : s.Inv) : (linkFalls x s).Inv := by
  unfold linkFalls
  try dsimp only
  repeat' (first
    | with_reducible (first
      | assumption | apply showLink_inv | apply endCrossing_inv | apply raise_inv | apply inv_ite)
    | intro _)

theorem linkDown_inv {x : Nat} {s : State} (h_s : s.Inv) : (linkDown x s).Inv := by
  unfold linkDown
  try dsimp only
  repeat' (first
    | with_reducible (first
      | assumption | apply State.setLink_inv | apply fire_inv | apply linkFalls_inv | apply inv_ite)
    | intro _)

theorem replay_inv {x : Nat} {s : State} (h_s : s.Inv) : (replay x s).Inv := by
  unfold replay
  try dsimp only
  repeat' (first
    | with_reducible (first
      | assumption | apply State.setLink_inv | apply forEach_inv | apply State.emit_inv | apply linkDown_inv
      | apply inv_ite)
    | intro _)

/-! ## Machine/Power.lean -/

theorem powerRetimer_inv {s : State} (h_s : s.Inv) : (powerRetimer s).Inv := by
  unfold powerRetimer
  try dsimp only
  repeat' with_reducible (first | assumption | apply State.setDom_inv)

theorem coldPowerOn_inv {s : State} (h_s : s.Inv) : (coldPowerOn s).Inv := by
  unfold coldPowerOn
  try dsimp only
  repeat' (first
    | with_reducible (first
      | assumption | apply powerRetimer_inv | apply domainOn_inv | apply inv_ite)
    | intro _ | refine pair_inv ‹_› ?_ | refine opt_inv ‹_› ?_ | refine optp_inv ‹_› ?_ | split
    | with_reducible apply inv_keep)

theorem execColdPowerOn_inv {s : State} (h_s : s.Inv) : RInv (execColdPowerOn s) := rinv_next (coldPowerOn_inv h_s)

theorem memsStable_inv {s : State} (h_s : s.Inv) : (memsStable s).Inv := by
  unfold memsStable
  try dsimp only
  repeat' (first | with_reducible (first | assumption | apply inv_ite) | intro _ | with_reducible apply inv_keep)

theorem execMemsStable_inv {s : State} (h_s : s.Inv) : RInv (execMemsStable s) := rinv_next (memsStable_inv h_s)

theorem settleVgrid_inv {s : State} (h_s : s.Inv) : (settleVgrid s).Inv := by
  unfold settleVgrid
  try dsimp only
  repeat' (first
    | with_reducible (first
      | assumption | apply State.draw_inv_snd | apply State.draw_inv | apply inv_ite)
    | intro _ | refine pair_inv ‹_› ?_ | refine opt_inv ‹_› ?_ | refine optp_inv ‹_› ?_ | split
    | with_reducible apply inv_keep | with_reducible apply inv_pwr)

theorem replayOverloads_inv {s : State} (h_s : s.Inv) : (replayOverloads s).Inv := by
  unfold replayOverloads
  try dsimp only
  repeat' (first
    | with_reducible (first
      | assumption | apply recordOverload_inv | apply forEach_inv | apply inv_ite)
    | intro _ | refine pair_inv ‹_› ?_ | refine opt_inv ‹_› ?_ | refine optp_inv ‹_› ?_ | split
    | with_reducible apply inv_keep)

theorem mainPowerGood_inv {s : State} (h_s : s.Inv) : (mainPowerGood s).Inv := by
  unfold mainPowerGood
  try dsimp only
  repeat' (first
    | with_reducible (first
      | assumption | apply settleVgrid_inv | apply replayOverloads_inv | apply domainOn_inv | apply inv_ite)
    | intro _ | refine pair_inv ‹_› ?_ | refine opt_inv ‹_› ?_ | refine optp_inv ‹_› ?_ | split
    | with_reducible apply inv_keep)

theorem execMainPowerGood_inv {s : State} (h_s : s.Inv) : RInv (execMainPowerGood s) :=
  rinv_next (mainPowerGood_inv h_s)

theorem beginTraining_inv {k : Nat} {s : State} (h_s : s.Inv) : (beginTraining k s).Inv := by
  unfold beginTraining
  try dsimp only
  repeat' (first
    | with_reducible (first
      | assumption | apply inv_ite)
    | intro _ | refine pair_inv ‹_› ?_ | refine opt_inv ‹_› ?_ | refine optp_inv ‹_› ?_ | split
    | with_reducible apply inv_keep)

theorem pcieLock_inv {s : State} (h_s : s.Inv) : (pcieLock s).Inv := by
  unfold pcieLock
  try dsimp only
  repeat' (first
    | with_reducible (first
      | assumption | apply inv_ite)
    | intro _ | refine pair_inv ‹_› ?_ | refine opt_inv ‹_› ?_ | refine optp_inv ‹_› ?_ | split
    | with_reducible apply inv_keep)

theorem bootSlot_inv {b : Bool} {s : State} (h_s : s.Inv) : (bootSlot b s).Inv := by
  unfold bootSlot
  try dsimp only
  repeat' (first
    | with_reducible (first
      | assumption | apply State.setBell_inv | apply forEach_inv | apply beginTraining_inv | apply pcieLock_inv
      | apply domainOn_inv | apply inv_ite)
    | intro _ | refine pair_inv ‹_› ?_ | refine opt_inv ‹_› ?_ | refine optp_inv ‹_› ?_ | split
    | with_reducible apply inv_keep)

theorem enterRecovery_inv {failure : Nat} {s : State} (h_s : s.Inv) : (enterRecovery failure s).Inv := by
  unfold enterRecovery
  try dsimp only
  repeat' (first
    | with_reducible (first
      | assumption | apply pcieLock_inv | apply domainOn_inv | apply inv_ite)
    | intro _ | refine pair_inv ‹_› ?_ | refine opt_inv ‹_› ?_ | refine optp_inv ‹_› ?_ | split
    | with_reducible apply inv_keep)

theorem bootVerifyDone_inv {s : State} (h_s : s.Inv) : (bootVerifyDone s).Inv := by
  unfold bootVerifyDone
  try dsimp only
  repeat' (first
    | with_reducible (first
      | assumption | apply bootSlot_inv | apply enterRecovery_inv | apply inv_ite)
    | intro _)

theorem execBootVerifyDone_inv {s : State} (h_s : s.Inv) : RInv (execBootVerifyDone s) :=
  rinv_next (bootVerifyDone_inv h_s)

theorem perstDeassert_inv {s : State} (h_s : s.Inv) : (perstDeassert s).Inv := by
  unfold perstDeassert
  try dsimp only
  repeat' (first
    | with_reducible (first
      | assumption | apply pcieLock_inv | apply inv_ite)
    | intro _ | refine pair_inv ‹_› ?_ | refine opt_inv ‹_› ?_ | refine optp_inv ‹_› ?_ | split
    | with_reducible apply inv_keep | with_reducible apply inv_pwr)

theorem execPerstDeassert_inv {s : State} (h_s : s.Inv) : RInv (execPerstDeassert s) := rinv_next (perstDeassert_inv
    h_s)

theorem checkReady_inv {s : State} (h_s : s.Inv) : (checkReady s).Inv := by
  unfold checkReady
  try dsimp only
  repeat' (first | with_reducible (first | assumption | apply inv_ite) | intro _ | with_reducible apply inv_keep)

theorem replayFires_inv {s : State} (h_s : s.Inv) : (replayFires s).Inv := by
  unfold replayFires
  try dsimp only
  repeat' (first
    | with_reducible (first
      | assumption | apply State.setRing_inv | apply forEach_inv | apply fireMsix_inv | apply inv_ite)
    | intro _)

theorem linkTrain_inv {width : BitVec 5} {speed : BitVec 3} {cxl : Bool} {s : State} (h_s : s.Inv) :
    (linkTrain width speed cxl s).Inv := by
  unfold linkTrain
  try dsimp only
  repeat' (first
    | with_reducible (first
      | assumption | apply forEach_inv | apply holdChime_inv | apply checkReady_inv | apply replayFires_inv
      | apply inv_ite)
    | intro _ | with_reducible apply inv_keep)

theorem execLinkTrain_inv {width : BitVec 5} {speed : BitVec 3} {cxl : Bool} {s : State} (h_s : s.Inv) :
    RInv (execLinkTrain width speed cxl s) := by
  unfold execLinkTrain
  try dsimp only
  repeat' (first
    | with_reducible (first
      | assumption | apply linkTrain_inv | apply rinv_next | apply rinv_ite | apply rinv_fault)
    | intro _)

theorem memTrained_inv {k : Nat} {ok : Bool} {s : State} (h_s : s.Inv) : (memTrained k ok s).Inv := by
  unfold memTrained
  try dsimp only
  repeat' (first
    | with_reducible (first
      | assumption | apply patrol_inv | apply rescaleStack_inv | apply State.setStack_inv | apply domainOn_inv
      | apply fence_inv | apply inv_ite)
    | intro _)

theorem execMemTrained_inv {k : Fin 4} {ok : Bool} {s : State} (h_s : s.Inv) : RInv (execMemTrained k ok s) :=
  rinv_next (memTrained_inv h_s)

theorem dramScrubDone_inv {s : State} (h_s : s.Inv) : (dramScrubDone s).Inv := by
  unfold dramScrubDone
  try dsimp only
  repeat' (first
    | with_reducible (first
      | assumption | apply checkReady_inv | apply inv_ite | apply State.Inv.memOk | apply State.Inv.pwrOk
      | apply State.Inv.grdOk | apply State.Inv.schOk | apply State.Inv.carOk | apply State.Inv.fltOk
      | apply MemOk.ue | apply MemOk.patrol | apply memOk_mk | exact cellsOk_reset)
    | intro _ | with_reducible apply inv_mk)

theorem execDramScrubDone_inv {s : State} (h_s : s.Inv) : RInv (execDramScrubDone s) :=
  rinv_next (dramScrubDone_inv h_s)

theorem setCause_inv {i : Nat} {s : State} (h_s : s.Inv) : (setCause i s).Inv := by
  unfold setCause
  try dsimp only
  repeat' with_reducible (first | assumption | apply inv_pwr)

theorem bumpEpochs_inv {s : State} (h_s : s.Inv) : (bumpEpochs s).Inv := by
  unfold bumpEpochs
  try dsimp only
  repeat' (first | with_reducible (first | assumption | apply State.setTenant_inv | apply forEach_inv) | intro _)

theorem dropRings_inv {s : State} (h_s : s.Inv) : (dropRings s).Inv := by
  unfold dropRings
  try dsimp only
  repeat' with_reducible (first | assumption | apply inv_keep)

theorem aonSupplyLoss_inv {s : State} (_h_s : s.Inv) : (aonSupplyLoss s).Inv :=
  inv_mk ⟨cellsOk_reset, ueOk_reset, patrolOk_reset⟩ ⟨capOk_reset, vsetOk_reset⟩ ⟨wdogOk_reset⟩ ⟨sliceOk_reset⟩
    ⟨splitOk_reset⟩ ⟨bwdogOk_reset⟩

theorem execAonSupplyLoss_inv {s : State} (h_s : s.Inv) : RInv (execAonSupplyLoss s) :=
  rinv_next (aonSupplyLoss_inv h_s)

theorem fundamental_inv {s : State} (h_s : s.Inv) : (fundamental s).Inv := by
  unfold fundamental
  try dsimp only
  repeat' (first
    | with_reducible (first
      | assumption | apply settleVgrid_inv | apply setCause_inv | apply bumpEpochs_inv | apply dropRings_inv
      | apply domainsOff_inv | apply clearMgt_inv | apply clearHif_inv | apply inv_ite)
    | intro _ | refine pair_inv ‹_› ?_ | refine opt_inv ‹_› ?_ | refine optp_inv ‹_› ?_ | split
    | with_reducible apply inv_keep | with_reducible apply inv_pwr)

theorem fundamentalReset_inv {s : State} (h_s : s.Inv) : (fundamentalReset s).Inv := by
  unfold fundamentalReset
  try dsimp only
  repeat' (first
    | with_reducible (first
      | assumption | apply fundamental_inv | apply inv_ite)
    | intro _ | refine pair_inv ‹_› ?_ | refine opt_inv ‹_› ?_ | refine optp_inv ‹_› ?_ | split
    | with_reducible apply inv_keep | with_reducible apply inv_pwr)

theorem execFundamentalReset_inv {s : State} (h_s : s.Inv) : RInv (execFundamentalReset s) :=
  rinv_next (fundamentalReset_inv h_s)

theorem cardReset_inv {s : State} (h_s : s.Inv) : (cardReset s).Inv := by
  unfold cardReset
  try dsimp only
  repeat' (first
    | with_reducible (first
      | assumption | apply abortTenant_inv | apply tenantReset_inv | apply forEach_inv | apply State.setDom_inv
      | apply settleVgrid_inv | apply setCause_inv | apply dropRings_inv | apply domainsOff_inv | apply clearMgt_inv
      | apply drainAll_inv | apply inv_ite)
    | intro _ | refine pair_inv ‹_› ?_ | refine opt_inv ‹_› ?_ | refine optp_inv ‹_› ?_ | split
    | with_reducible apply inv_keep)

theorem resetWrite_inv {q : Requester} {v : BitVec 32} {s : State} (h_s : s.Inv) : (resetWrite q v s).Inv := by
  unfold resetWrite
  try dsimp only
  repeat' (first
    | with_reducible (first
      | assumption | apply regError_inv | apply cardReset_inv | apply inv_ite)
    | intro _)

theorem execCardReset_inv {q : Requester} {v : BitVec 32} {s : State} (h_s : s.Inv) : RInv (execCardReset q v s) := by
  unfold execCardReset
  try dsimp only
  repeat' with_reducible (first | assumption | apply regWrite_inv | apply resetWrite_inv | apply rinv_next)

theorem dropAll_inv {s : State} (h_s : s.Inv) : (dropAll s).Inv := by
  unfold dropAll
  try dsimp only
  repeat' with_reducible (first | assumption | apply forEach_inv | apply dropTenant_inv)

theorem hotReset_inv {s : State} (h_s : s.Inv) : (hotReset s).Inv := by
  unfold hotReset
  refine inv_ite (fun _ => ?_) (fun _ => h_s)
  have k : ∀ (y : Hif) (u : State), u.Inv → ({ u with
      hif := { u.hif with width := y.width, speed := y.speed, cxl := y.cxl }
      pwr := { u.pwr with dstate := .d0 } } : State).Inv := fun y u h =>
    inv_mk h.memOk ⟨h.pwrOk.cap, h.pwrOk.vset⟩ h.grdOk h.schOk h.carOk h.fltOk
  exact k _ _ (forEach_inv (fun _ _ h => clearCq_inv h) (clearHif_inv (forEach_inv (fun _ _ h => tenantLost_inv h)
    (bumpEpochs_inv (dropAll_inv h_s)))))

theorem execHotReset_inv {s : State} (h_s : s.Inv) : RInv (execHotReset s) := rinv_next (hotReset_inv h_s)

theorem pf0Flr_inv {s : State} (h_s : s.Inv) : (pf0Flr s).Inv := by
  unfold pf0Flr
  try dsimp only
  repeat' (first
    | with_reducible (first
      | assumption | apply linkUp_inv | apply State.setFunc_inv | apply forEach_inv | apply flrTenant_inv
      | apply tenantGone_inv | apply inv_ite)
    | intro _ | refine pair_inv ‹_› ?_ | refine opt_inv ‹_› ?_ | refine optp_inv ‹_› ?_ | split
    | with_reducible apply inv_keep)

theorem execPf0Flr_inv {s : State} (h_s : s.Inv) : RInv (execPf0Flr s) := rinv_next (pf0Flr_inv h_s)

theorem flr_inv {t : Nat} {s : State} (h_s : s.Inv) : (flr t s).Inv := by
  unfold flr
  try dsimp only
  repeat' (first
    | with_reducible (first
      | assumption | apply flrTenant_inv | apply pf0Flr_inv | apply inv_ite)
    | intro _)

theorem execFlr_inv {t : Fin 64} {s : State} (h_s : s.Inv) : RInv (execFlr t s) := rinv_next (flr_inv h_s)

theorem execFlrComplete_inv {t : Fin 64} {s : State} (h_s : s.Inv) : RInv (execFlrComplete t s) :=
  rinv_next (State.setFunc_inv h_s)

theorem flushHalf_inv {t r : Nat} {s : State} (h_s : s.Inv) : (flushHalf t r s).Inv := by
  unfold flushHalf
  try dsimp only
  repeat' (first
    | with_reducible (first
      | assumption | apply State.setTenant_inv | apply State.setRing_inv | apply countCompletion_inv
      | apply removeJob_inv | apply emitEntry_inv | apply inv_ite)
    | intro _ | split)

theorem d3hotEnter_inv {s : State} (h_s : s.Inv) : (d3hotEnter s).Inv := by
  unfold d3hotEnter
  try dsimp only
  repeat' (first
    | with_reducible (first
      | assumption | apply linkUp_inv | apply abortTenant_inv | apply tenantReset_inv | apply forEach_inv
      | apply domainsOff_inv | apply inv_ite)
    | intro _ | refine pair_inv ‹_› ?_ | refine opt_inv ‹_› ?_ | refine optp_inv ‹_› ?_ | split
    | with_reducible apply inv_keep | with_reducible apply inv_pwr)

theorem execD3hotEnter_inv {s : State} (h_s : s.Inv) : RInv (execD3hotEnter s) := rinv_next (d3hotEnter_inv h_s)

theorem d0Enter_inv {s : State} (h_s : s.Inv) : (d0Enter s).Inv := by
  unfold d0Enter
  try dsimp only
  repeat' (first
    | with_reducible (first
      | assumption | apply sendHeld_inv | apply forEach_inv | apply replayFires_inv | apply flushHalf_inv
      | apply inv_ite)
    | intro _ | refine pair_inv ‹_› ?_ | refine opt_inv ‹_› ?_ | refine optp_inv ‹_› ?_ | split
    | with_reducible apply inv_keep | with_reducible apply inv_pwr)

theorem execD0Enter_inv {s : State} (h_s : s.Inv) : RInv (execD0Enter s) := rinv_next (d0Enter_inv h_s)

theorem d3coldEnter_inv {s : State} (h_s : s.Inv) : (d3coldEnter s).Inv := by
  unfold d3coldEnter
  refine inv_ite (fun _ => ?_) (fun _ => h_s)
  have k : ∀ u : State, u.Inv → ({ u with
      pwr := { u.pwr with dstate := .d3cold, perst := true }
      mem := { u.mem with cells := [], ecc := [] }
      boot := { u.boot with stage := .mems, resetting := false } } : State).Inv := fun u h =>
    inv_mk ⟨cellsOk_reset, h.memOk.ue, h.memOk.patrol⟩ ⟨h.pwrOk.cap, h.pwrOk.vset⟩ h.grdOk h.schOk h.carOk h.fltOk
  exact k _ (clearHif_inv (clearMgt_inv (domainsOff_inv (dropRings_inv h_s))))

theorem execD3coldEnter_inv {s : State} (h_s : s.Inv) : RInv (execD3coldEnter s) := rinv_next (d3coldEnter_inv h_s)

theorem d3coldExit_inv {s : State} (h_s : s.Inv) : (d3coldExit s).Inv := by
  unfold d3coldExit
  try dsimp only
  repeat' (first
    | with_reducible (first
      | assumption | apply setCause_inv | apply bumpEpochs_inv | apply inv_ite)
    | intro _ | with_reducible apply inv_pwr)

theorem execD3coldExit_inv {s : State} (h_s : s.Inv) : RInv (execD3coldExit s) := rinv_next (d3coldExit_inv h_s)

theorem execDomainPowerOn_inv {d : Fin 16} {s : State} (h_s : s.Inv) : RInv (execDomainPowerOn d s) := by
  unfold execDomainPowerOn
  try dsimp only
  repeat' (first
    | with_reducible (first | assumption | apply domainOn_inv | apply inv_ite | apply rinv_next) | intro _)

theorem domainIdle_inv {d : Nat} {s : State} (h_s : s.Inv) : (domainIdle d s).Inv := by
  unfold domainIdle
  try dsimp only
  repeat' (first
    | with_reducible (first
      | assumption | apply State.setStack_inv | apply rescale_inv | apply domainOff_inv | apply inv_ite)
    | intro _)

theorem execDomainIdleOff_inv {d : Fin 16} {s : State} (h_s : s.Inv) : RInv (execDomainIdleOff d s) :=
  rinv_next (domainIdle_inv h_s)

theorem vgridEvaluate_inv {fitMv : Nat} {inputDw : BitVec 16} {s : State} (h_s : s.Inv) : (vgridEvaluate fitMv inputDw
    s).Inv := by
  unfold vgridEvaluate
  try dsimp only
  repeat' (first
    | with_reducible (first
      | assumption | apply inv_ite)
    | intro _ | refine pair_inv ‹_› ?_ | refine opt_inv ‹_› ?_ | refine optp_inv ‹_› ?_ | split
    | with_reducible apply inv_keep | with_reducible apply inv_pwr)

theorem execVgridEvaluate_inv {fitMv : Nat} {inputDw : BitVec 16} {s : State} (h_s : s.Inv) : RInv (execVgridEvaluate
    fitMv inputDw s) := rinv_next (vgridEvaluate_inv h_s)

theorem stackSample_inv {k : Nat} {t : Option Int} {s : State} (h_s : s.Inv) : (stackSample k t s).Inv := by
  unfold stackSample
  try dsimp only
  repeat' (first
    | with_reducible (first
      | assumption | apply State.setStack_inv | apply raise_inv | apply rescaleStack_inv | apply fence_inv
      | apply inv_ite)
    | intro _ | split)

theorem trip_inv {stack : Bool} {s : State} (h_s : s.Inv) : (trip stack s).Inv := by
  unfold trip
  try dsimp only
  repeat' with_reducible (first
    | assumption | apply fire_inv | apply failJobs_inv | apply stopAll_inv | apply setCause_inv | apply inv_pwr)

theorem tempSample_inv {die : List Int} {stackC : List (Option Int)} {s : State} (h_s : s.Inv) :
    (tempSample die stackC s).Inv := by
  unfold tempSample
  refine inv_ite (fun _ => h_s) (fun _ => ?_)
  have hp : PwrOk (s.pwr.followDie (maxTemp die)) := by
    unfold Pwr.followDie; split
    · exact ⟨h_s.pwrOk.cap, h_s.pwrOk.vset⟩
    · split <;> exact ⟨h_s.pwrOk.cap, h_s.pwrOk.vset⟩
  have h : ∀ d m : BitVec 8, (forEach [0, 1, 2, 3] (fun k s => stackSample k (stackC.getD k none) s)
      { s with pwr := { (s.pwr.followDie (maxTemp die)) with dieC := d, dramC := m } }).Inv := fun d m =>
    forEach_inv (fun _ _ h => stackSample_inv h) (inv_mk h_s.memOk ⟨hp.cap, hp.vset⟩ h_s.grdOk h_s.schOk h_s.carOk
        h_s.fltOk)
  exact inv_ite (fun _ => h _ _) (fun _ => inv_ite (fun _ => trip_inv (h _ _))
    (fun _ => inv_ite (fun _ => trip_inv (h _ _)) (fun _ => h _ _)))

theorem execTempSample_inv {die : List Int} {stackC : List (Option Int)} {s : State} (h_s : s.Inv) :
    RInv (execTempSample die stackC s) := by
  unfold execTempSample
  try dsimp only
  repeat' (first
    | with_reducible (first
      | assumption | apply tempSample_inv | apply rinv_next | apply rinv_ite | apply rinv_fault)
    | intro _)

theorem lineFreq_inv {p : Nat} {v : BitVec 32} {s : State} (h_s : s.Inv) : (lineFreq p v s).Inv := by
  unfold lineFreq
  try dsimp only
  repeat' (first
    | with_reducible (first
      | assumption | apply linesLow_inv | apply inv_ite)
    | intro _ | refine pair_inv ‹_› ?_ | refine opt_inv ‹_› ?_ | refine optp_inv ‹_› ?_ | split
    | with_reducible apply inv_keep)

theorem execLineFreqWrite_inv {q : Requester} {p : Fin 4} {v : BitVec 32} {s : State} (h_s : s.Inv) :
    RInv (execLineFreqWrite q p v s) := by
  unfold execLineFreqWrite
  try dsimp only
  repeat' with_reducible (first | assumption | apply regWrite_inv | apply lineFreq_inv | apply rinv_next)

theorem pllLock_inv {i : Nat} {s : State} (h_s : s.Inv) : (pllLock i s).Inv := by
  unfold pllLock
  try dsimp only
  repeat' (first
    | with_reducible (first
      | assumption | apply State.setPort_inv | apply portStopGroup_inv | apply inv_ite)
    | intro _ | refine pair_inv ‹_› ?_ | refine opt_inv ‹_› ?_ | refine optp_inv ‹_› ?_ | split
    | with_reducible apply inv_keep)

theorem execPllLock_inv {pll : Fin 13} {s : State} (h_s : s.Inv) : RInv (execPllLock pll s) :=
  rinv_next (pllLock_inv h_s)

theorem pllLockTimeout_inv {i : Nat} {s : State} (h_s : s.Inv) : (pllLockTimeout i s).Inv := by
  unfold pllLockTimeout
  try dsimp only
  repeat' (first
    | with_reducible (first | assumption | apply fire_inv | apply inv_ite) | intro _ | with_reducible apply inv_keep)

theorem execPllLockTimeout_inv {pll : Fin 13} {s : State} (h_s : s.Inv) : RInv (execPllLockTimeout pll s) :=
  rinv_next (pllLockTimeout_inv h_s)

/-! ## Machine/Chain.lean -/

theorem linkUp_inv {x : Nat} {s : State} (h_s : s.Inv) : (linkUp x s).Inv := by
  unfold linkUp
  try dsimp only
  repeat' (first
    | with_reducible (first
      | assumption | apply showLink_inv | apply relayCtrl_inv | apply replay_inv | apply sendCtrl_inv
      | apply State.setLink_inv | apply raise_inv | apply inv_ite)
    | intro _)

theorem execChainLinkUp_inv {x : Fin 2} {s : State} (h_s : s.Inv) : RInv (execChainLinkUp x s) :=
  rinv_next (linkUp_inv h_s)

theorem trainRetry_inv {x : Nat} {cable : Cable} {s : State} (h_s : s.Inv) : (trainRetry x cable s).Inv := by
  unfold trainRetry
  try dsimp only
  repeat' (first
    | with_reducible (first
      | assumption | apply linkFalls_inv | apply State.setLink_inv | apply forEach_inv | apply powerRetimer_inv
      | apply inv_ite)
    | intro _)

theorem execLinkTrainRetry_inv {x : Fin 2} {cable : Cable} {s : State} (h_s : s.Inv) : RInv (execLinkTrainRetry x
    cable s) := rinv_next (trainRetry_inv h_s)

theorem linkupArrives_inv {x : Nat} {unit : BitVec 12} {assigned : Bool} {era : BitVec 16} {inDown bypass : Bool} {s :
    State} (h_s : s.Inv) : (linkupArrives x unit assigned era inDown bypass s).Inv := by
  unfold linkupArrives
  try dsimp only
  repeat' (first
    | with_reducible (first
      | assumption | apply showLink_inv | apply takeCtrl_inv | apply State.setLink_inv | apply raise_inv
      | apply inv_ite)
    | intro _)

theorem execLinkup_inv {x : Fin 2} {unit : BitVec 12} {assigned : Bool} {era : BitVec 16} {bypassInDown bypass : Bool}
    {s : State} (h_s : s.Inv) : RInv (execLinkup x unit assigned era bypassInDown bypass s) :=
  rinv_next (linkupArrives_inv h_s)

theorem discardFlit_inv {x : Nat} {raw : List Byte} {s : State} (h_s : s.Inv) : (discardFlit x raw s).Inv := by
  unfold discardFlit
  try dsimp only
  repeat' (first
    | with_reducible (first
      | assumption | apply State.setLink_inv | apply State.emit_inv | apply inv_ite)
    | intro _)

theorem execFlitDiscard_inv {x : Fin 2} {raw : List Byte} {s : State} (h_s : s.Inv) : RInv (execFlitDiscard x raw s)
    := by
  unfold execFlitDiscard
  try dsimp only
  repeat' (first
    | with_reducible (first
      | assumption | apply discardFlit_inv | apply rinv_next | apply rinv_ite | apply rinv_fault)
    | intro _)

theorem nakReplay_inv {x : Nat} {ack : BitVec 8} {s : State} (h_s : s.Inv) : (nakReplay x ack s).Inv := by
  unfold nakReplay
  try dsimp only
  repeat' (first
    | with_reducible (first
      | assumption | apply pumpAll_inv | apply applyAck_inv | apply replay_inv | apply inv_ite)
    | intro _)

theorem execNakReplay_inv {x : Fin 2} {ack : BitVec 8} {s : State} (h_s : s.Inv) : RInv (execNakReplay x ack s) :=
  rinv_next (nakReplay_inv h_s)

theorem replayTimeout_inv {x : Nat} {s : State} (h_s : s.Inv) : (replayTimeout x s).Inv := by
  unfold replayTimeout
  try dsimp only
  repeat' (first | with_reducible (first | assumption | apply replay_inv | apply inv_ite) | intro _)

theorem execReplayTimeout_inv {x : Fin 2} {s : State} (h_s : s.Inv) : RInv (execReplayTimeout x s) :=
  rinv_next (replayTimeout_inv h_s)

theorem answeredAtPort_inv {m : Nat} {x : Msg} {s : State} (h_s : s.Inv) : (answeredAtPort m x s).Inv := by
  unfold answeredAtPort
  try dsimp only
  repeat' with_reducible (first | assumption | apply failSender_inv | apply dropMsg_inv)

theorem sendNext_inv {m : Nat} {x : Msg} {s : State} (h_s : s.Inv) : (sendNext m x s).Inv := by
  unfold sendNext
  try dsimp only
  repeat' (first
    | with_reducible (first
      | assumption | apply State.setLink_inv | apply sendFlit_inv | apply freeOutput_inv | apply dropMsg_inv
      | apply inv_ite)
    | intro _ | split | with_reducible apply inv_grd)

theorem sendFirst_inv {m : Nat} {s : State} (h_s : s.Inv) : (sendFirst m s).Inv := by
  unfold sendFirst
  try dsimp only
  repeat' (first
    | with_reducible (first
      | assumption | apply sendNext_inv | apply takeStamp_inv | apply inv_ite)
    | intro _ | refine pair_inv ‹_› ?_ | refine opt_inv ‹_› ?_ | refine optp_inv ‹_› ?_ | split)

theorem sendWaiting_inv {src : Nat} {s : State} (h_s : s.Inv) : (sendWaiting src s).Inv := by
  unfold sendWaiting
  try dsimp only
  repeat' (first
    | with_reducible (first
      | assumption | apply sendFirst_inv | apply inv_ite)
    | intro _ | refine pair_inv ‹_› ?_ | refine opt_inv ‹_› ?_ | refine optp_inv ‹_› ?_ | split)

theorem chainSend_inv {m : Nat} {held : Bool} {s : State} (h_s : s.Inv) : (chainSend m held s).Inv := by
  unfold chainSend
  try dsimp only
  repeat' (first
    | with_reducible (first
      | assumption | apply answeredAtPort_inv | apply sendNext_inv | apply sendFirst_inv | apply askGong_inv
      | apply send_inv | apply inv_ite)
    | intro _ | refine pair_inv ‹_› ?_ | refine opt_inv ‹_› ?_ | refine optp_inv ‹_› ?_ | split)

theorem execChainSend_inv {m : Nat} {held : Bool} {s : State} (h_s : s.Inv) : RInv (execChainSend m held s) :=
    rinv_next (chainSend_inv h_s)

theorem deliver_inv {ls : List Lane} {s : State} (h_s : s.Inv) : (deliver ls s).Inv := by
  unfold deliver
  try dsimp only
  repeat' with_reducible (first | assumption | apply inv_grd)

theorem recordArrival_inv {ls : List Lane} {s : State} (h_s : s.Inv) : (recordArrival ls s).Inv := by
  unfold recordArrival
  try dsimp only
  repeat' with_reducible (first | assumption | apply takeStamp_inv | apply inv_keep)

theorem addLanes_inv {x : Nat} {ls : List Lane} {last : Bool} {s : State} (h_s : s.Inv) : (addLanes x ls last s).Inv
    := by
  unfold addLanes
  try dsimp only
  repeat' (first
    | with_reducible (first | assumption | apply setRx_inv | apply deliver_inv | apply inv_ite) | intro _)

theorem firstArrives_inv {x : Nat} {raw : List Byte} {s : State} (h_s : s.Inv) : (firstArrives x raw s).Inv := by
  unfold firstArrives
  try dsimp only
  repeat' (first
    | with_reducible (first
      | assumption | apply takeFlit_inv | apply forwardFlit_inv | apply answerBack_inv | apply setRx_inv
      | apply recordArrival_inv | apply addLanes_inv | apply inv_ite)
    | intro _)

theorem execFirstFlit_inv {x : Fin 2} {raw : List Byte} {s : State} (h_s : s.Inv) : RInv (execFirstFlit x raw s) := by
  unfold execFirstFlit
  try dsimp only
  repeat' (first
    | with_reducible (first
      | assumption | apply firstArrives_inv | apply rinv_next | apply rinv_ite | apply rinv_fault)
    | intro _)

theorem contArrives_inv {x : Nat} {raw : List Byte} {s : State} (h_s : s.Inv) : (contArrives x raw s).Inv := by
  unfold contArrives
  try dsimp only
  repeat' (first
    | with_reducible (first
      | assumption | apply takeFlit_inv | apply forwardFlit_inv | apply setRx_inv | apply addLanes_inv
      | apply inv_ite)
    | intro _ | split)

theorem execContFlit_inv {x : Fin 2} {raw : List Byte} {s : State} (h_s : s.Inv) : RInv (execContFlit x raw s) := by
  unfold execContFlit
  try dsimp only
  repeat' (first
    | with_reducible (first
      | assumption | apply contArrives_inv | apply rinv_next | apply rinv_ite | apply rinv_fault)
    | intro _)

theorem abortArrives_inv {x : Nat} {raw : List Byte} {s : State} (h_s : s.Inv) : (abortArrives x raw s).Inv := by
  unfold abortArrives
  try dsimp only
  repeat' (first
    | with_reducible (first
      | assumption | apply takeFlit_inv | apply forwardFlit_inv | apply setRx_inv | apply inv_ite)
    | intro _ | split)

theorem execAbortFlit_inv {x : Fin 2} {raw : List Byte} {s : State} (h_s : s.Inv) : RInv (execAbortFlit x raw s) := by
  unfold execAbortFlit
  try dsimp only
  repeat' (first
    | with_reducible (first
      | assumption | apply abortArrives_inv | apply rinv_next | apply rinv_ite | apply rinv_fault)
    | intro _)

theorem markAbsent_inv {u : BitVec 12} {s : State} (h_s : s.Inv) : (markAbsent u s).Inv := by
  unfold markAbsent
  try dsimp only
  repeat' (first
    | with_reducible (first
      | assumption | apply forEach_inv | apply raise_inv | apply freeSpan_inv | apply inv_ite)
    | intro _ | split | with_reducible apply inv_keep)

theorem answered_inv {hdr : Lane} {code : Nat} {s : State} (h_s : s.Inv) : (answered hdr code s).Inv := by
  unfold answered
  try dsimp only
  repeat' (first
    | with_reducible (first
      | assumption | apply failSender_inv | apply markAbsent_inv | apply inv_ite)
    | intro _ | split | with_reducible apply inv_keep)

theorem answerArrives_inv {x : Nat} {raw : List Byte} {s : State} (h_s : s.Inv) : (answerArrives x raw s).Inv := by
  unfold answerArrives
  try dsimp only
  repeat' (first
    | with_reducible (first
      | assumption | apply sendFlit_inv | apply takeFlit_inv | apply answered_inv | apply inv_ite)
    | intro _)

theorem execAnswerFlit_inv {x : Fin 2} {raw : List Byte} {s : State} (h_s : s.Inv) : RInv (execAnswerFlit x raw s) := by
  unfold execAnswerFlit
  try dsimp only
  repeat' (first
    | with_reducible (first
      | assumption | apply answerArrives_inv | apply rinv_next | apply rinv_ite | apply rinv_fault)
    | intro _)

theorem gapTimeout_inv {x : Nat} {s : State} (h_s : s.Inv) : (gapTimeout x s).Inv := by
  unfold gapTimeout
  try dsimp only
  repeat' (first
    | with_reducible (first
      | assumption | apply forwardFlit_inv | apply answerBack_inv | apply setRx_inv | apply inv_ite)
    | intro _ | split)

theorem execFlitGapTimeout_inv {x : Fin 2} {s : State} (h_s : s.Inv) : RInv (execFlitGapTimeout x s) :=
  rinv_next (gapTimeout_inv h_s)

theorem arrRead_inv {s : State} (h_s : s.Inv) : PInv (arrRead s) := by
  unfold arrRead
  try dsimp only
  repeat' with_reducible (first | assumption | apply pinv_mk | apply inv_keep)
theorem execChnArrRead_inv {q : Requester} {s : State} (h_s : s.Inv) : RInv (execChnArrRead q s) := by
  unfold execChnArrRead
  try dsimp only
  repeat' with_reducible (first | assumption | apply regRead_inv | apply arrRead_inv | apply rinv_next)

theorem chnStat_inv {s : State} (h_s : s.Inv) : PInv (chnStat s) := by
  unfold chnStat
  try dsimp only
  repeat' with_reducible (first | assumption | apply pinv_mk | apply inv_keep)
theorem execChnStatRead_inv {q : Requester} {s : State} (h_s : s.Inv) : RInv (execChnStatRead q s) := by
  unfold execChnStatRead
  try dsimp only
  repeat' with_reducible (first | assumption | apply regRead_inv | apply chnStat_inv | apply rinv_next)

theorem linkStat_inv {x : Nat} {s : State} (h_s : s.Inv) : PInv (linkStat x s) := by
  unfold linkStat
  try dsimp only
  repeat' with_reducible (first | assumption | apply State.setLink_inv | apply pinv_mk)
theorem execChnLinkStatRead_inv {q : Requester} {x : Fin 2} {s : State} (h_s : s.Inv) :
    RInv (execChnLinkStatRead q x s) := by
  unfold execChnLinkStatRead
  try dsimp only
  repeat' with_reducible (first | assumption | apply regRead_inv | apply linkStat_inv | apply rinv_next)

theorem crcCount_inv {x : Nat} {s : State} (h_s : s.Inv) : PInv (crcCount x s) := by
  unfold crcCount
  try dsimp only
  repeat' with_reducible (first | assumption | apply State.setLink_inv | apply pinv_mk)
theorem execChnCrcRead_inv {q : Requester} {x : Fin 2} {s : State} (h_s : s.Inv) : RInv (execChnCrcRead q x s) := by
  unfold execChnCrcRead
  try dsimp only
  repeat' with_reducible (first | assumption | apply regRead_inv | apply crcCount_inv | apply rinv_next)

end Sys2Proof.Machine
end

