-- ==== Sys2Proof/Laws/InvPower.lean ====
section
/-!
SUPPORT. Each operation keeps the invariant: power, clocks and start-up, the card in its chain, and the transfers of a tile.
-/
namespace Sys2Proof.Machine

/-! ## Machine/ChainUnits.lean -/

theorem failSpanning_inv {s : State} (h_s : s.Inv) : (failSpanning s).Inv := by
  unfold failSpanning
  try dsimp only
  repeat' (first
    | with_reducible (first
      | assumption | apply finishJob_inv | apply forEach_inv | apply State.draw_inv_snd | apply State.draw_inv
      | apply inv_ite)
    | intro _)

theorem spanAnswered_inv {key : BitVec 32} {index : Option (Fin 8192)} {s : State} (h_s : s.Inv) :
    (spanAnswered key index s).Inv := by
  unfold spanAnswered
  try dsimp only
  repeat' (first
    | with_reducible (first
      | assumption | apply forEach_inv | apply decide1_inv | apply lateChecks_inv)
    | intro _ | split)

theorem spanReqArrives_inv {unit : BitVec 12} {key : BitVec 32} {answer : Option (Option (Fin 8192))} {s : State}
    (h_s : s.Inv) : (spanReqArrives unit key answer s).Inv := by
  unfold spanReqArrives
  try dsimp only
  repeat' (first
    | with_reducible (first
      | assumption | apply sendCtrl_inv | apply takeCtrl_inv | apply relayCtrl_inv | apply spanAnswered_inv
      | apply grantSpan_inv_snd | apply inv_ite)
    | intro _ | split)

theorem execSpanReq_inv {unit : BitVec 12} {key : BitVec 32} {answer : Option (Option (Fin 8192))} {s : State}
    (h_s : s.Inv) : RInv (execSpanReq unit key answer s) := rinv_next (spanReqArrives_inv h_s)

theorem spanFreeArrives_inv {unit : BitVec 12} {key : BitVec 32} {s : State} (h_s : s.Inv) :
    (spanFreeArrives unit key s).Inv := by
  unfold spanFreeArrives
  try dsimp only
  repeat' (first
    | with_reducible (first
      | assumption | apply freeSpan_inv | apply takeCtrl_inv | apply relayCtrl_inv | apply inv_ite)
    | intro _)

theorem execSpanFree_inv {unit : BitVec 12} {key : BitVec 32} {s : State} (h_s : s.Inv) :
    RInv (execSpanFree unit key s) := rinv_next (spanFreeArrives_inv h_s)

theorem spanTimeout_inv {key : Nat} {s : State} (h_s : s.Inv) : (spanTimeout key s).Inv := by
  unfold spanTimeout
  try dsimp only
  repeat' (first | with_reducible (first | assumption | apply forEach_inv | apply rejectJob_inv) | intro _)

theorem execSpanTimeout_inv {j : Nat} {s : State} (h_s : s.Inv) : RInv (execSpanTimeout j s) :=
  rinv_next (spanTimeout_inv h_s)

theorem doneHere_inv {full : List (BitVec 12)} {count : Nat} {s : State} (h_s : s.Inv) : (doneHere full count s).Inv
    := by
  unfold doneHere
  try dsimp only
  repeat' (first
    | with_reducible (first | assumption | apply raise_inv | apply sendCtrl_inv | apply inv_ite) | intro _
    | with_reducible apply inv_keep)

theorem takeAddress_inv {next : Nat} {s : State} (h_s : s.Inv) : PInv (takeAddress next s) := by
  unfold takeAddress
  try dsimp only
  repeat' (first
    | with_reducible (first
      | assumption | apply raise_inv | apply pinv_mk | apply pinv_ite | apply opinv_getD | apply inv_ite)
    | intro _ | refine pair_inv ‹_› ?_ | refine opt_inv ‹_› ?_ | refine optp_inv ‹_› ?_ | split
    | with_reducible apply inv_keep)
theorem takeAddress_inv_snd {next : Nat} {s : State} (h_s : s.Inv) : (takeAddress next s).2.Inv := takeAddress_inv h_s

theorem assignHere_inv {next : Nat} {upset : List (BitVec 12)} {count : Nat} {s : State} (h_s : s.Inv) :
    (assignHere next upset count s).Inv := by
  unfold assignHere
  try dsimp only
  repeat' (first
    | with_reducible (first
      | assumption | apply sendCtrl_inv | apply failSpanning_inv | apply doneHere_inv | apply takeAddress_inv_snd
      | apply inv_ite)
    | intro _ | split | with_reducible apply inv_keep)

theorem surveyBack_inv {claimed : List (BitVec 12)} {count : Nat} {s : State} (h_s : s.Inv) :
    (surveyBack claimed count s).Inv := by
  unfold surveyBack
  try dsimp only
  repeat' with_reducible (first | assumption | apply assignHere_inv)

theorem startEnumeration_inv {s : State} (h_s : s.Inv) : (startEnumeration s).Inv := by
  unfold startEnumeration
  try dsimp only
  repeat' (first
    | with_reducible (first
      | assumption | apply sendCtrl_inv | apply failSpanning_inv | apply surveyBack_inv | apply inv_ite)
    | intro _ | with_reducible apply inv_keep)

theorem requestEnumeration_inv {s : State} (h_s : s.Inv) : (requestEnumeration s).Inv := by
  unfold requestEnumeration
  try dsimp only
  repeat' (first
    | with_reducible (first
      | assumption | apply sendCtrl_inv | apply startEnumeration_inv | apply inv_ite)
    | intro _)

theorem surveyHere_inv {claimed : List (BitVec 12)} {count : Nat} {s : State} (h_s : s.Inv) : (surveyHere claimed
    count s).Inv := by
  unfold surveyHere
  try dsimp only
  repeat' (first
    | with_reducible (first
      | assumption | apply chainEvent_inv | apply relayCtrl_inv | apply inv_ite)
    | intro _ | refine pair_inv ‹_› ?_ | refine opt_inv ‹_› ?_ | refine optp_inv ‹_› ?_ | split
    | with_reducible apply inv_keep)

theorem surveyArrives_inv {x : Nat} {claimed : List (BitVec 12)} {count : Nat} {s : State} (h_s : s.Inv) :
    (surveyArrives x claimed count s).Inv := by
  unfold surveyArrives
  try dsimp only
  repeat' (first
    | with_reducible (first
      | assumption | apply takeCtrl_inv | apply relayCtrl_inv | apply surveyBack_inv | apply surveyHere_inv
      | apply inv_ite)
    | intro _)

theorem execSurvey_inv {x : Fin 2} {claimed : List (BitVec 12)} {count : Nat} {s : State} (h_s : s.Inv) :
    RInv (execSurvey x claimed count s) := rinv_next (surveyArrives_inv h_s)

theorem assignArrives_inv {x next : Nat} {upset : List (BitVec 12)} {count : Nat} {s : State} (h_s : s.Inv) :
    (assignArrives x next upset count s).Inv := by
  unfold assignArrives
  try dsimp only
  repeat' (first
    | with_reducible (first
      | assumption | apply takeCtrl_inv | apply relayCtrl_inv | apply assignHere_inv | apply inv_ite)
    | intro _)

theorem execAssign_inv {x : Fin 2} {next : Nat} {upset : List (BitVec 12)} {count : Nat} {s : State} (h_s : s.Inv) :
    RInv (execAssign x next upset count s) := rinv_next (assignArrives_inv h_s)

theorem doneArrives_inv {x : Nat} {full : List (BitVec 12)} {count : Nat} {s : State} (h_s : s.Inv) :
    (doneArrives x full count s).Inv := by
  unfold doneArrives
  try dsimp only
  repeat' (first
    | with_reducible (first
      | assumption | apply takeCtrl_inv | apply relayCtrl_inv | apply doneHere_inv | apply inv_ite)
    | intro _)

theorem execDoneFlit_inv {x : Fin 2} {full : List (BitVec 12)} {count : Nat} {s : State} (h_s : s.Inv) :
    RInv (execDoneFlit x full count s) := rinv_next (doneArrives_inv h_s)

theorem enumTimeout_inv {s : State} (h_s : s.Inv) : (enumTimeout s).Inv := by
  unfold enumTimeout
  try dsimp only
  repeat' (first
    | with_reducible (first | assumption | apply raise_inv | apply inv_ite) | intro _
    | with_reducible apply inv_keep)

theorem execEnumTimeout_inv {s : State} (h_s : s.Inv) : RInv (execEnumTimeout s) := rinv_next (enumTimeout_inv h_s)

theorem enterBypass_inv {s : State} (h_s : s.Inv) : (enterBypass s).Inv := by
  unfold enterBypass
  try dsimp only
  repeat' (first
    | with_reducible (first
      | assumption | apply forEach_inv | apply pumpAll_inv | apply answerBack_inv | apply setRx_inv
      | apply dropSending_inv | apply inv_ite)
    | intro _ | split | with_reducible apply inv_keep)

theorem execBypassEnter_inv {s : State} (h_s : s.Inv) : RInv (execBypassEnter s) := rinv_next (enterBypass_inv h_s)

theorem exitBypass_inv {s : State} (h_s : s.Inv) : (exitBypass s).Inv := by
  unfold exitBypass
  try dsimp only
  repeat' (first
    | with_reducible (first
      | assumption | apply State.setLink_inv | apply forEach_inv | apply linkFalls_inv | apply inv_ite)
    | intro _ | with_reducible apply inv_keep)

theorem execBypassExit_inv {s : State} (h_s : s.Inv) : RInv (execBypassExit s) := rinv_next (exitBypass_inv h_s)

theorem returnArrives_inv {x : Nat} {unit : BitVec 12} {s : State} (h_s : s.Inv) : (returnArrives x unit s).Inv := by
  unfold returnArrives
  try dsimp only
  repeat' (first
    | with_reducible (first
      | assumption | apply raise_inv | apply takeCtrl_inv | apply relayCtrl_inv | apply inv_ite)
    | intro _ | with_reducible apply inv_keep)

theorem execReturnFlit_inv {x : Fin 2} {unit : BitVec 12} {s : State} (h_s : s.Inv) : RInv (execReturnFlit x unit s)
    := rinv_next (returnArrives_inv h_s)

theorem chainResetHere_inv {s : State} (h_s : s.Inv) : (chainResetHere s).Inv := by
  unfold chainResetHere
  try dsimp only
  repeat' (first
    | with_reducible (first
      | assumption | apply chainEvent_inv | apply forwardFlit_inv | apply setRx_inv | apply dropSending_inv
      | apply failSpanning_inv | apply sendFlit_inv | apply pumpAll_inv | apply forEach_inv | apply setCause_inv
      | apply inv_ite)
    | intro _ | refine pair_inv ‹_› ?_ | refine opt_inv ‹_› ?_ | refine optp_inv ‹_› ?_ | split
    | with_reducible apply inv_keep)

theorem resetArrives_inv {x : Nat} {s : State} (h_s : s.Inv) : (resetArrives x s).Inv := by
  unfold resetArrives
  try dsimp only
  repeat' (first
    | with_reducible (first
      | assumption | apply takeCtrl_inv | apply relayCtrl_inv | apply chainResetHere_inv | apply inv_ite)
    | intro _)

theorem execResetFlit_inv {x : Fin 2} {s : State} (h_s : s.Inv) : RInv (execResetFlit x s) :=
  rinv_next (resetArrives_inv h_s)

theorem startChainReset_inv {s : State} (h_s : s.Inv) : (startChainReset s).Inv := by
  unfold startChainReset
  try dsimp only
  repeat' with_reducible (first | assumption | apply relayCtrl_inv | apply chainResetHere_inv)

theorem setBypass_inv {on : Bool} {s : State} (h_s : s.Inv) : (setBypass on s).Inv := by
  unfold setBypass
  try dsimp only
  repeat' (first
    | with_reducible (first | assumption | apply enterBypass_inv | apply inv_ite) | intro _
    | with_reducible apply inv_keep)

theorem chnCtlWrite_inv {q : Requester} {v : BitVec 32} {s : State} (h_s : s.Inv) : (chnCtlWrite q v s).Inv := by
  unfold chnCtlWrite
  try dsimp only
  repeat' (first
    | with_reducible (first
      | assumption | apply regError_inv | apply requestEnumeration_inv | apply startChainReset_inv
      | apply setBypass_inv | apply inv_ite)
    | intro _)

theorem execEnumerate_inv {q : Requester} {v : BitVec 32} {passed : Bool} {s : State} (h_s : s.Inv) : RInv
    (execEnumerate q v passed s) := by
  unfold execEnumerate
  try dsimp only
  repeat' (first
    | with_reducible (first
      | assumption | apply takeCtrl_inv | apply relayCtrl_inv | apply requestEnumeration_inv | apply chnCtlWrite_inv
      | apply keyWrite_inv | apply rinv_next | apply rinv_fault | apply rinv_ite | apply inv_ite)
    | intro _)

theorem execChainReset_inv {q : Requester} {v : BitVec 32} {s : State} (h_s : s.Inv) : RInv (execChainReset q v s) :=
    by
  unfold execChainReset
  try dsimp only
  repeat' with_reducible (first | assumption | apply chnCtlWrite_inv | apply keyWrite_inv | apply rinv_next)

theorem execChnBypass_inv {q : Requester} {on : Bool} {s : State} (h_s : s.Inv) : RInv (execChnBypass q on s) := by
  unfold execChnBypass
  try dsimp only
  repeat' with_reducible (first | assumption | apply regWrite_inv | apply setBypass_inv | apply rinv_next)

/-! ## Machine/TileTransfer.lean -/

theorem execDld_inv {i : Fin 1024} {s : State} (h_s : s.Inv) : RInv (execDld i s) := rinv_next (tileRun_inv h_s)

theorem execDst_inv {i : Fin 1024} {s : State} (h_s : s.Inv) : RInv (execDst i s) := rinv_next (tileRun_inv h_s)

theorem moveIn_inv {i : Nat} {t : Xfer} {n : Nat} {k : Nat} {s : State} (h_s : s.Inv) : PInv (moveIn i t n k s) := by
  induction n generalizing s k with
  | zero => exact h_s
  | succ n ih =>
    unfold moveIn
    dsimp only
    split
    · exact h_s
    · split
      · exact pair_inv ‹_› (readBeats_inv h_s)
      · exact ih (State.setTile_inv (pair_inv ‹_› (readBeats_inv h_s)))
theorem moveIn_inv_snd {i : Nat} {t : Xfer} {n : Nat} {k : Nat} {s : State} (h_s : s.Inv) : (moveIn i t n k s).2.Inv :=
  moveIn_inv h_s

theorem moveOut_inv {i : Nat} {t : Xfer} {n : Nat} {k : Nat} {s : State} (h_s : s.Inv) :
    PInv (moveOut i t n k s) := by
  induction n generalizing s k with
  | zero => exact h_s
  | succ n ih =>
    unfold moveOut
    dsimp only
    split
    · exact h_s
    · exact pinv_ite (fun _ => ih (State.writeLines_inv h_s)) (fun _ => h_s)
theorem moveOut_inv_snd {i : Nat} {t : Xfer} {n : Nat} {k : Nat} {s : State} (h_s : s.Inv) :
    (moveOut i t n k s).2.Inv := moveOut_inv h_s

theorem transferFault_inv {i : Nat} {t : Xfer} {o : Moved} {s : State} (h_s : s.Inv) : (transferFault i t o s).Inv :=
    by
  unfold transferFault
  try dsimp only
  repeat' (first
    | with_reducible (first
      | assumption | apply uncorrectableBeat_inv | apply fireJob_inv | apply tileFault_inv | apply State.setTile_inv
      | apply inv_ite)
    | intro _ | refine pair_inv ‹_› ?_ | refine opt_inv ‹_› ?_ | refine optp_inv ‹_› ?_ | split)

theorem flipParity_inv {i : Nat} {ns : List Nat} {s : State} (h_s : s.Inv) : (flipParity i ns s).Inv := by
  unfold flipParity
  try dsimp only
  repeat' with_reducible (first | assumption | apply State.setTile_inv)

theorem transferComplete_inv {i n : Nat} {ups : List (Nat × Bool)} {flips : List Nat} {s : State} (h_s : s.Inv) :
    (transferComplete i n ups flips s).Inv := by
  unfold transferComplete
  try dsimp only
  repeat' (first
    | with_reducible (first
      | assumption | apply upset_inv | apply State.setTile_inv | apply forEach_inv | apply moveIn_inv_snd
      | apply moveIn_inv | apply moveOut_inv_snd | apply moveOut_inv | apply transferFault_inv
      | apply flipParity_inv | apply inv_ite)
    | intro _ | refine pair_inv ‹_› ?_ | refine opt_inv ‹_› ?_ | refine optp_inv ‹_› ?_ | split)

theorem execTransferComplete_inv {i : Fin 1024} {n : Fin 8} {upsets : List (Nat × Bool)} {flips : List Nat} {s :
    State} (h_s : s.Inv) : RInv (execTransferComplete i n upsets flips s) := rinv_next (transferComplete_inv h_s)

theorem execDwt_inv {i : Fin 1024} {s : State} (h_s : s.Inv) : RInv (execDwt i s) := rinv_next (tileRun_inv h_s)

theorem barStep_inv {i : Nat} {s : State} (h_s : s.Inv) : (barStep i s).Inv := by
  unfold barStep
  try dsimp only
  repeat' (first
    | with_reducible (first
      | assumption | apply State.setTile_inv | apply applyOut_inv | apply inv_ite)
    | intro _ | split | with_reducible apply inv_keep)

theorem execBar_inv {i : Fin 1024} {s : State} (h_s : s.Inv) : RInv (execBar i s) := rinv_next (barStep_inv h_s)

theorem stampStep_inv {i : Nat} {s : State} (h_s : s.Inv) : (stampStep i s).Inv := by
  unfold stampStep
  try dsimp only
  repeat' (first
    | with_reducible (first
      | assumption | apply takeStamp_inv | apply applyOut_inv | apply inv_ite)
    | intro _ | split)

theorem stampAsk_inv {i : Nat} {held : Bool} {s : State} (h_s : s.Inv) : (stampAsk i held s).Inv := by
  unfold stampAsk
  try dsimp only
  repeat' (first
    | with_reducible (first
      | assumption | apply askGong_inv | apply stampStep_inv | apply inv_ite)
    | intro _)

theorem execStamp_inv {i : Fin 1024} {held : Bool} {s : State} (h_s : s.Inv) : RInv (execStamp i held s) := rinv_next
    (stampAsk_inv h_s)

theorem execSys_inv {i : Fin 1024} {s : State} (h_s : s.Inv) : RInv (execSys i s) := rinv_next (tileRun_inv h_s)

theorem tilesEnded_inv {id : Nat} {s : State} (h_s : s.Inv) : (tilesEnded id s).Inv := by
  unfold tilesEnded
  try dsimp only
  repeat' (first
    | with_reducible (first
      | assumption | apply State.modJob_inv | apply releaseTiles_inv | apply inv_ite)
    | intro _ | split | with_reducible apply inv_keep)

theorem endStep_inv {i : Nat} {s : State} (h_s : s.Inv) : (endStep i s).Inv := by
  unfold endStep
  try dsimp only
  repeat' (first
    | with_reducible (first
      | assumption | apply State.setTile_inv | apply applyOut_inv | apply tilesEnded_inv | apply inv_ite)
    | intro _ | split)

theorem execEndTile_inv {i : Fin 1024} {s : State} (h_s : s.Inv) : RInv (execEndTile i s) :=
  rinv_next (endStep_inv h_s)

/-! ## Machine/Gong.lean -/

theorem granted_inv {e : GongRequest} {s : State} (h_s : s.Inv) : (granted e s).Inv := by
  unfold granted
  try dsimp only
  repeat' (first
    | with_reducible (first
      | assumption | apply sendWaiting_inv | apply raise_inv | apply completeHead_inv | apply epochMarker_inv
      | apply send_inv | apply stampStep_inv | apply inv_ite)
    | intro _ | refine pair_inv ‹_› ?_ | refine opt_inv ‹_› ?_ | refine optp_inv ‹_› ?_ | split)

theorem gongGrant_inv {e : GongRequest} {s : State} (h_s : s.Inv) : (gongGrant e s).Inv := by
  unfold gongGrant
  try dsimp only
  repeat' (first
    | with_reducible (first
      | assumption | apply granted_inv | apply gongPassed_inv | apply inv_ite)
    | intro _ | refine pair_inv ‹_› ?_ | refine opt_inv ‹_› ?_ | refine optp_inv ‹_› ?_ | split
    | with_reducible apply inv_keep)

theorem execGongGrant_inv {e : GongRequest} {s : State} (h_s : s.Inv) : RInv (execGongGrant e s) := rinv_next
    (gongGrant_inv h_s)

end Sys2Proof.Machine
end

