-- ==== Sys2Proof/Laws/InvJobs.lean ====
section
/-!
SUPPORT. Each operation keeps the invariant: jobs, the intake, token queues and the picture codec.
-/
namespace Sys2Proof.Machine

/-! ## Machine/Jobs.lean -/

theorem countLookup_inv {d : List Byte} {s : State} (h_s : s.Inv) : (countLookup d s).Inv := by
  unfold countLookup
  try dsimp only
  repeat' (first | with_reducible (first | assumption | apply State.setQueue_inv | apply inv_ite) | intro _)

theorem manifestChecks_inv {t r : Nat} {d : Inflight} {m : Option Dims} {s : State} (h_s : s.Inv) :
    (manifestChecks t r d m s).Inv := by
  unfold manifestChecks
  dsimp only
  split
  · exact decide1_inv h_s
  · split
    · exact pair_inv ‹_› (readChecks_inv h_s)
    · have h := pair_inv ‹_› (readChecks_inv h_s)
      refine inv_ite (fun _ => decide1_inv h) (fun _ => ?_)
      split
      · exact decide1_inv h
      · exact spanCheck_inv h

theorem checkJob_inv {t r : Nat} {d : Inflight} {hdr : List Byte} {s : State} (h_s : s.Inv) : (checkJob t r d hdr
    s).Inv := by
  unfold checkJob
  try dsimp only
  repeat' (first
    | with_reducible (first
      | assumption | apply readChecks_inv_snd | apply readChecks_inv | apply decide1_inv | apply countLookup_inv
      | apply manifestChecks_inv | apply emitReads_inv | apply inv_ite)
    | intro _ | refine pair_inv ‹_› ?_ | refine opt_inv ‹_› ?_ | refine optp_inv ‹_› ?_ | split)

theorem jobDescriptor_inv {t r : Nat} {hdr : List Byte} {s : State} (h_s : s.Inv) : (jobDescriptor t r hdr s).Inv :=
    by
  unfold jobDescriptor
  try dsimp only
  repeat' (first
    | with_reducible (first
      | assumption | apply checkJob_inv | apply inv_ite)
    | intro _ | refine pair_inv ‹_› ?_ | refine opt_inv ‹_› ?_ | refine optp_inv ‹_› ?_ | split)

theorem execJob_inv {t : Fin 64} {r : Fin 8} {hdr : List Byte} {s : State} (h_s : s.Inv) : RInv (execJob t r hdr s) :=
  rinv_next (jobDescriptor_inv h_s)

theorem fencedDescriptor_inv {t r : Nat} {hdr : List Byte} {s : State} (h_s : s.Inv) : (fencedDescriptor t r hdr
    s).Inv := by
  unfold fencedDescriptor
  try dsimp only
  repeat' (first
    | with_reducible (first
      | assumption | apply checkJob_inv | apply inv_ite)
    | intro _ | refine pair_inv ‹_› ?_ | refine opt_inv ‹_› ?_ | refine optp_inv ‹_› ?_ | split)

theorem execFencedAdmit_inv {t : Fin 64} {r : Fin 8} {hdr : List Byte} {s : State} (h_s : s.Inv) :
    RInv (execFencedAdmit t r hdr s) := rinv_next (fencedDescriptor_inv h_s)

theorem placeOne_inv {l : List Nat} {s : State} (h_s : s.Inv) : PInv (placeOne l s) := by
  induction l generalizing s with
  | nil => exact h_s
  | cons id ids ih => exact pinv_ite (fun _ => ih (placeJob_inv h_s)) (fun _ => placeJob_inv h_s)

theorem placeRounds_inv {n : Nat} {s : State} (h_s : s.Inv) : (placeRounds n s).Inv := by
  induction n generalizing s with
  | zero => exact h_s
  | succ n ih =>
    unfold placeRounds
    split
    · exact ih (pair_inv ‹_› (placeOne_inv h_s))
    · exact pair_inv ‹_› (placeOne_inv h_s)

theorem placeAll_inv {s : State} (h_s : s.Inv) : (placeAll s).Inv := by
  unfold placeAll
  try dsimp only
  repeat' with_reducible (first | assumption | apply placeRounds_inv)

theorem execJobPlace_inv {s : State} (h_s : s.Inv) : RInv (execJobPlace s) := rinv_next (placeAll_inv h_s)

theorem starveTimeout_inv {j : Nat} {s : State} (h_s : s.Inv) : (starveTimeout j s).Inv := by
  unfold starveTimeout
  try dsimp only
  repeat' (first | with_reducible (first | assumption | apply State.modJob_inv | apply inv_ite) | intro _ | split)

theorem execStarveTimeout_inv {j : Nat} {s : State} (h_s : s.Inv) : RInv (execStarveTimeout j s) :=
  rinv_next (starveTimeout_inv h_s)

theorem sliceExpire_inv {k : Nat} {s : State} (h_s : s.Inv) : (sliceExpire k s).Inv := by
  unfold sliceExpire
  try dsimp only
  repeat' (first | with_reducible (first | assumption | apply chooseVictims_inv) | split)

theorem execSliceExpire_inv {j : Nat} {s : State} (h_s : s.Inv) : RInv (execSliceExpire j s) :=
  rinv_next (sliceExpire_inv h_s)

theorem spillStart_inv {id : Nat} {s : State} (h_s : s.Inv) : (spillStart id s).Inv := by
  unfold spillStart
  try dsimp only
  repeat' (first | with_reducible (first | assumption | apply State.modJob_inv | apply inv_ite) | intro _ | split)

theorem execSpillStart_inv {j : Nat} {s : State} (h_s : s.Inv) : RInv (execSpillStart j s) :=
  rinv_next (spillStart_inv h_s)

theorem spillComplete_inv {id : Nat} {s : State} (h_s : s.Inv) : (spillComplete id s).Inv := by
  unfold spillComplete
  try dsimp only
  repeat' (first
    | with_reducible (first
      | assumption | apply chargeJob_inv | apply tileFault_inv | apply State.setTile_inv | apply State.modJob_inv
      | apply forEach_inv | apply spillTile_inv | apply inv_ite)
    | intro _ | refine pair_inv ‹_› ?_ | refine opt_inv ‹_› ?_ | refine optp_inv ‹_› ?_ | split)

theorem execSpillComplete_inv {j : Nat} {s : State} (h_s : s.Inv) : RInv (execSpillComplete j s) :=
  rinv_next (spillComplete_inv h_s)

theorem restoreJob_inv {id : Nat} {s : State} (h_s : s.Inv) : (restoreJob id s).Inv := by
  unfold restoreJob
  try dsimp only
  repeat' (first
    | with_reducible (first
      | assumption | apply readRegions_inv_snd | apply readRegions_inv | apply State.setTile_inv
      | apply State.modJob_inv | apply forEach_inv | apply powerQuadrants_inv | apply inv_ite)
    | intro _ | refine pair_inv ‹_› ?_ | refine opt_inv ‹_› ?_ | refine optp_inv ‹_› ?_ | split)

theorem execJobRestore_inv {j : Nat} {s : State} (h_s : s.Inv) : RInv (execJobRestore j s) :=
  rinv_next (restoreJob_inv h_s)

theorem barTimeout_inv {i : Nat} {s : State} (h_s : s.Inv) : (barTimeout i s).Inv := by
  unfold barTimeout
  try dsimp only
  repeat' (first | with_reducible (first | assumption | apply fireJob_inv | apply inv_ite) | intro _ | split)

theorem execBarTimeout_inv {i : Fin 1024} {s : State} (h_s : s.Inv) : RInv (execBarTimeout i s) :=
  rinv_next (barTimeout_inv h_s)

theorem writeOutput_inv {j : Job} {off : Nat} {bs : List Byte} {s : State} (h_s : s.Inv) : (writeOutput j off bs
    s).Inv := by
  unfold writeOutput
  try dsimp only
  repeat' with_reducible (first | assumption | apply emitWrites_inv)

theorem outputCopy_inv {id : Nat} {s : State} (h_s : s.Inv) : (outputCopy id s).Inv := by
  unfold outputCopy
  try dsimp only
  repeat' (first
    | with_reducible (first
      | assumption | apply readRegions_inv_snd | apply readRegions_inv | apply writeOutput_inv
      | apply State.modJob_inv | apply inv_ite)
    | intro _ | refine pair_inv ‹_› ?_ | refine opt_inv ‹_› ?_ | refine optp_inv ‹_› ?_ | split)

theorem execOutputStageCopy_inv {j : Nat} {s : State} (h_s : s.Inv) : RInv (execOutputStageCopy j s) :=
  rinv_next (outputCopy_inv h_s)

theorem jobComplete_inv {id : Nat} {s : State} (h_s : s.Inv) : (jobComplete id s).Inv := by
  unfold jobComplete
  try dsimp only
  repeat' (first
    | with_reducible (first
      | assumption | apply finishJob_inv | apply inv_ite)
    | intro _ | refine pair_inv ‹_› ?_ | refine opt_inv ‹_› ?_ | refine optp_inv ‹_› ?_ | split)

theorem execJobComplete_inv {j : Nat} {s : State} (h_s : s.Inv) : RInv (execJobComplete j s) :=
  rinv_next (jobComplete_inv h_s)

theorem execUsedUpdate_inv {s : State} (h_s : s.Inv) : RInv (execUsedUpdate s) := by
  unfold execUsedUpdate
  try dsimp only
  repeat' (first
    | with_reducible (first
      | assumption | apply forEach_inv | apply chargeJob_inv | apply inv_ite | apply rinv_next)
    | intro _)

theorem usedLo_inv {t : Nat} {s : State} (h_s : s.Inv) : PInv (usedLo t s) := by
  unfold usedLo
  try dsimp only
  repeat' with_reducible (first | assumption | apply State.setSchTen_inv | apply pinv_mk)
theorem execUsedRead_inv {q : Requester} {t : Fin 64} {s : State} (h_s : s.Inv) : RInv (execUsedRead q t s) := by
  unfold execUsedRead
  try dsimp only
  repeat' with_reducible (first | assumption | apply regRead_inv | apply usedLo_inv | apply rinv_next)

/-! ## Machine/Paradiddle.lean -/

theorem tokWrite_inv {q : Requester} {t off : Nat} {f : State → State} {s : State}
    (h_f : ∀ (x0 : State), x0.Inv → (f x0).Inv) (h_s : s.Inv) : (tokWrite q t off f s).Inv := by
  unfold tokWrite
  try dsimp only
  repeat' (first | with_reducible (first | assumption | apply regError_inv | apply h_f | apply inv_ite) | intro _)

theorem tokLoad_inv {t : Nat} {s : State} (h_s : s.Inv) : (tokLoad t s).Inv := by
  unfold tokLoad
  try dsimp only
  repeat' with_reducible (first | assumption | apply State.setTokTen_inv)

theorem execTokLoad_inv {q : Requester} {t : Fin 64} {s : State} (h_s : s.Inv) : RInv (execTokLoad q t s) := by
  unfold execTokLoad
  try dsimp only
  repeat' (first
    | with_reducible (first
      | assumption | apply regWrite_inv | apply tokWrite_inv | apply tokLoad_inv | apply rinv_next)
    | intro _)

theorem gramLoad_inv {t : Nat} {s : State} (h_s : s.Inv) : (gramLoad t s).Inv := by
  unfold gramLoad
  try dsimp only
  repeat' (first
    | with_reducible (first
      | assumption | apply State.setTokTen_inv | apply raise_inv | apply inv_ite)
    | intro _)

theorem execGramLoad_inv {q : Requester} {t : Fin 64} {s : State} (h_s : s.Inv) : RInv (execGramLoad q t s) := by
  unfold execGramLoad
  try dsimp only
  repeat' (first
    | with_reducible (first
      | assumption | apply regWrite_inv | apply tokWrite_inv | apply gramLoad_inv | apply rinv_next)
    | intro _)

theorem tokClear_inv {t : Nat} {s : State} (h_s : s.Inv) : (tokClear t s).Inv := by
  unfold tokClear
  try dsimp only
  repeat' with_reducible (first | assumption | apply State.setTokTen_inv)

theorem execTokClear_inv {q : Requester} {t : Fin 64} {s : State} (h_s : s.Inv) : RInv (execTokClear q t s) := by
  unfold execTokClear
  try dsimp only
  repeat' (first
    | with_reducible (first
      | assumption | apply regWrite_inv | apply tokWrite_inv | apply tokClear_inv | apply rinv_next)
    | intro _)

theorem gramClear_inv {t : Nat} {s : State} (h_s : s.Inv) : (gramClear t s).Inv := by
  unfold gramClear
  try dsimp only
  repeat' with_reducible (first | assumption | apply State.setTokTen_inv)

theorem execGramClear_inv {q : Requester} {t : Fin 64} {s : State} (h_s : s.Inv) : RInv (execGramClear q t s) := by
  unfold execGramClear
  try dsimp only
  repeat' (first
    | with_reducible (first
      | assumption | apply regWrite_inv | apply tokWrite_inv | apply gramClear_inv | apply rinv_next)
    | intro _)

theorem readTables_inv {t : Nat} {l : List (Nat × Nat)} {s : State} (h_s : s.Inv) : PInv (readTables t l s) := by
  induction l generalizing s with
  | nil => exact h_s
  | cons a l ih =>
    obtain ⟨a, n⟩ := a
    unfold readTables
    split
    · exact ih (pair_inv ‹_› (readBeats_inv h_s))
    · exact uncorrectableBeat_inv (fire_inv (pair_inv ‹_› (readBeats_inv h_s)))
theorem readTables_inv_snd {t : Nat} {l : List (Nat × Nat)} {s : State} (h_s : s.Inv) : (readTables t l s).2.Inv :=
  readTables_inv h_s

theorem dropOnDie_inv {t : Nat} {s : State} (h_s : s.Inv) : (dropOnDie t s).Inv := by
  unfold dropOnDie
  try dsimp only
  repeat' (first
    | with_reducible (first | assumption | apply inv_ite) | intro _ | split | with_reducible apply inv_keep)

theorem tokCheckDone_inv {t : Nat} {s : State} (h_s : s.Inv) : (tokCheckDone t s).Inv := by
  unfold tokCheckDone
  try dsimp only
  repeat' (first
    | with_reducible (first
      | assumption | apply State.setTokTen_inv | apply raise_inv | apply readTables_inv_snd | apply readTables_inv
      | apply dropOnDie_inv | apply inv_ite)
    | intro _ | refine pair_inv ‹_› ?_ | refine opt_inv ‹_› ?_ | refine optp_inv ‹_› ?_ | split)

theorem execTokCheckDone_inv {t : Fin 64} {s : State} (h_s : s.Inv) : RInv (execTokCheckDone t s) :=
  rinv_next (tokCheckDone_inv h_s)

theorem gramCheckDone_inv {t : Nat} {s : State} (h_s : s.Inv) : (gramCheckDone t s).Inv := by
  unfold gramCheckDone
  try dsimp only
  repeat' (first
    | with_reducible (first
      | assumption | apply State.setTokTen_inv | apply raise_inv | apply readTables_inv_snd | apply readTables_inv
      | apply dropOnDie_inv | apply inv_ite)
    | intro _ | refine pair_inv ‹_› ?_ | refine opt_inv ‹_› ?_ | refine optp_inv ‹_› ?_ | split)

theorem execGramCheckDone_inv {t : Fin 64} {s : State} (h_s : s.Inv) : RInv (execGramCheckDone t s) :=
  rinv_next (gramCheckDone_inv h_s)

theorem cleanStreams_inv {s : State} (h_s : s.Inv) : (cleanStreams s).Inv := by
  unfold cleanStreams
  try dsimp only
  repeat' (first | with_reducible assumption | split | with_reducible apply inv_keep)

theorem invalidate_inv {t : Nat} {tokErr gramErr : Bool} {s : State} (h_s : s.Inv) :
    (invalidate t tokErr gramErr s).Inv := by
  unfold invalidate
  try dsimp only
  repeat' with_reducible (first | assumption | apply State.setTokTen_inv | apply raise_inv)

theorem loadSet_inv {st : TokStream} {s : State} (h_s : s.Inv) : PInv (loadSet st s) := by
  unfold loadSet
  try dsimp only
  repeat' (first
    | with_reducible (first
      | assumption | apply readRegions_inv_snd | apply readRegions_inv | apply fireJob_inv | apply invalidate_inv
      | apply pinv_mk | apply pinv_ite | apply opinv_getD | apply inv_ite)
    | intro _ | refine pair_inv ‹_› ?_ | refine opt_inv ‹_› ?_ | refine optp_inv ‹_› ?_ | split
    | with_reducible apply inv_keep)
theorem loadSet_inv_snd {st : TokStream} {s : State} (h_s : s.Inv) : (loadSet st s).2.Inv := loadSet_inv h_s

theorem streamStart_inv {pick : TokStream → Bool} {s : State} (h_s : s.Inv) : (streamStart pick s).Inv := by
  unfold streamStart
  try dsimp only
  repeat' (first
    | with_reducible (first
      | assumption | apply cleanStreams_inv | apply loadSet_inv_snd | apply loadSet_inv | apply inv_ite)
    | intro _ | refine pair_inv ‹_› ?_ | refine opt_inv ‹_› ?_ | refine optp_inv ‹_› ?_ | split
    | with_reducible apply inv_keep)

theorem execTokenStreamStart_inv {s : State} (h_s : s.Inv) : RInv (execTokenStreamStart s) :=
  rinv_next (streamStart_inv h_s)

theorem execDetokenizeStart_inv {j : Nat} {s : State} (h_s : s.Inv) : RInv (execDetokenizeStart j s) :=
  rinv_next (streamStart_inv h_s)

theorem endStream_inv {s : State} (h_s : s.Inv) : (endStream s).Inv := by
  unfold endStream
  try dsimp only
  repeat' with_reducible (first | assumption | apply inv_keep)

theorem writeStream_inv {j : Job} {toks : List Nat} {words : Nat} {invalid : Bool} {s : State} (h_s : s.Inv) :
    (writeStream j toks words invalid s).Inv := by
  unfold writeStream
  try dsimp only
  repeat' with_reducible (first | assumption | apply writeLinesFor_inv)

theorem streamComplete_inv {input : List Byte} {s : State} (h_s : s.Inv) : (streamComplete input s).Inv := by
  unfold streamComplete
  try dsimp only
  repeat' (first
    | with_reducible (first
      | assumption | apply fireJob_inv | apply State.modJob_inv | apply cleanStreams_inv | apply endStream_inv
      | apply writeStream_inv | apply emitReads_inv | apply inv_ite)
    | intro _ | refine pair_inv ‹_› ?_ | refine opt_inv ‹_› ?_ | refine optp_inv ‹_› ?_ | split)

theorem execTokenStreamComplete_inv {input : List Byte} {s : State} (h_s : s.Inv) :
    RInv (execTokenStreamComplete input s) := rinv_next (streamComplete_inv h_s)

theorem detokenizeDone_inv {id : Nat} {s : State} (h_s : s.Inv) : (detokenizeDone id s).Inv := by
  unfold detokenizeDone
  try dsimp only
  repeat' (first
    | with_reducible (first
      | assumption | apply readRegions_inv_snd | apply readRegions_inv | apply fireJob_inv | apply writeOutput_inv
      | apply State.modJob_inv | apply raise_inv | apply cleanStreams_inv | apply endStream_inv | apply inv_ite)
    | intro _ | refine pair_inv ‹_› ?_ | refine opt_inv ‹_› ?_ | refine optp_inv ‹_› ?_ | split)

theorem execDetokenizeDone_inv {j : Nat} {s : State} (h_s : s.Inv) : RInv (execDetokenizeDone j s) :=
  rinv_next (detokenizeDone_inv h_s)

theorem tokLoads_inv {s : State} (h_s : s.Inv) : PInv (tokLoads s) := by
  unfold tokLoads
  try dsimp only
  repeat' with_reducible (first | assumption | apply pinv_mk | apply inv_keep)
theorem execTokLoadsRead_inv {q : Requester} {s : State} (h_s : s.Inv) : RInv (execTokLoadsRead q s) := by
  unfold execTokLoadsRead
  try dsimp only
  repeat' with_reducible (first | assumption | apply regRead_inv | apply tokLoads_inv | apply rinv_next)

theorem acceptLine_inv {i n line unit : Nat} {s : State} (h_s : s.Inv) : (acceptLine i n line unit s).Inv := by
  unfold acceptLine
  try dsimp only
  repeat' with_reducible (first | assumption | apply State.setTile_inv)

theorem claimLines_inv {t line n : Nat} {s : State} (h_s : s.Inv) : (claimLines t line n s).Inv := by
  unfold claimLines
  try dsimp only
  repeat' (first | with_reducible (first | assumption | apply forEach_inv | apply claimLine_inv) | intro _)

theorem damperRequest_inv {i t slot : Nat} {s : State} (h_s : s.Inv) : (damperRequest i t slot s).Inv := by
  unfold damperRequest
  try dsimp only
  repeat' (first
    | with_reducible (first
      | assumption | apply acceptLine_inv | apply claimLines_inv | apply inv_ite)
    | intro _ | split | with_reducible apply inv_keep)

theorem execDamperRequest_inv {i : Fin 1024} {t : Fin 64} {slot : Fin 1024} {s : State} (h_s : s.Inv) :
    RInv (execDamperRequest i t slot s) := rinv_next (damperRequest_inv h_s)

theorem loadGrammar_inv {job t : Nat} {s : State} (h_s : s.Inv) : PInv (loadGrammar job t s) := by
  unfold loadGrammar
  try dsimp only
  repeat' (first
    | with_reducible (first
      | assumption | apply readRegions_inv_snd | apply readRegions_inv | apply fireJob_inv | apply fire_inv
      | apply invalidate_inv | apply pinv_mk | apply pinv_ite | apply opinv_getD | apply inv_ite)
    | intro _ | refine pair_inv ‹_› ?_ | refine opt_inv ‹_› ?_ | refine optp_inv ‹_› ?_ | split
    | with_reducible apply inv_keep)
theorem loadGrammar_inv_snd {job t : Nat} {s : State} (h_s : s.Inv) : (loadGrammar job t s).2.Inv := loadGrammar_inv
    h_s

theorem answerDamper_inv {valid : Bool} {r : DampReq} {s : State} (h_s : s.Inv) : (answerDamper valid r s).Inv := by
  unfold answerDamper
  try dsimp only
  repeat' (first
    | with_reducible (first
      | assumption | apply forEach_inv | apply writeResultFor_inv | apply inv_ite)
    | intro _)

theorem damperService_inv {s : State} (h_s : s.Inv) : (damperService s).Inv := by
  unfold damperService
  try dsimp only
  repeat' (first
    | with_reducible (first
      | assumption | apply forEach_inv | apply loadGrammar_inv_snd | apply loadGrammar_inv | apply answerDamper_inv
      | apply inv_ite)
    | intro _ | refine pair_inv ‹_› ?_ | refine opt_inv ‹_› ?_ | refine optp_inv ‹_› ?_ | split
    | with_reducible apply inv_keep)

theorem execDamperService_inv {s : State} (h_s : s.Inv) : RInv (execDamperService s) :=
  rinv_next (damperService_inv h_s)

/-! ## Machine/Intake.lean -/

theorem flushCache_inv {n : Nat} {s : State} (h_s : s.Inv) : (flushCache n s).Inv := by
  unfold flushCache
  try dsimp only
  repeat' with_reducible (first | assumption | apply State.setQueue_inv)

theorem configQueue_inv {n : Nat} {v : BitVec 32} {s : State} (h_s : s.Inv) : (configQueue n v s).Inv := by
  unfold configQueue
  try dsimp only
  repeat' (first | with_reducible (first | assumption | apply State.setQueue_inv | apply inv_ite) | intro _)

theorem writeQueueCfg_inv {q : Requester} {n : Nat} {v : BitVec 32} {s : State} (h_s : s.Inv) : (writeQueueCfg q n v
    s).Inv := by
  unfold writeQueueCfg
  try dsimp only
  repeat' (first
    | with_reducible (first
      | assumption | apply flushCache_inv | apply configQueue_inv | apply State.setQueue_inv | apply regError_inv
      | apply inv_ite)
    | intro _)

theorem execQueueEnable_inv {q : Requester} {n : Fin 16} {v : BitVec 32} {s : State} (h_s : s.Inv) :
    RInv (execQueueEnable q n v s) := by
  unfold execQueueEnable
  try dsimp only
  repeat' with_reducible (first | assumption | apply regWrite_inv | apply writeQueueCfg_inv | apply rinv_next)

theorem execCacheFlush_inv {q : Requester} {n : Fin 16} {s : State} (h_s : s.Inv) : RInv (execCacheFlush q n s) := by
  unfold execCacheFlush
  try dsimp only
  repeat' with_reducible (first | assumption | apply regWrite_inv | apply flushCache_inv | apply rinv_next)

theorem modSample_inv {n job : Nat} {f : Sample → Sample} {s : State} (h_s : s.Inv) : (modSample n job f s).Inv := by
  unfold modSample
  try dsimp only
  repeat' with_reducible (first | assumption | apply State.setQueue_inv)

theorem serveInk_inv {t : Nat} {s : State} (h_s : s.Inv) : (serveInk t s).Inv := by
  unfold serveInk
  try dsimp only
  repeat' (first
    | with_reducible (first
      | assumption | apply inv_ite)
    | intro _ | refine pair_inv ‹_› ?_ | refine opt_inv ‹_› ?_ | refine optp_inv ‹_› ?_ | split
    | with_reducible apply inv_keep)

theorem storeInk_inv {t : Nat} {rows : List (List Byte)} {s : State} (h_s : s.Inv) : (storeInk t rows s).Inv := by
  unfold storeInk
  try dsimp only
  repeat' (first
    | with_reducible (first
      | assumption | apply serveInk_inv | apply inv_ite)
    | intro _ | refine pair_inv ‹_› ?_ | refine opt_inv ‹_› ?_ | refine optp_inv ‹_› ?_ | split
    | with_reducible apply inv_keep)

theorem cutStart_inv {n : Nat} {s : State} (h_s : s.Inv) : (cutStart n s).Inv := by
  unfold cutStart
  try dsimp only
  repeat' (first
    | with_reducible (first
      | assumption | apply readRegions_inv_snd | apply readRegions_inv | apply modSample_inv | apply serveInk_inv
      | apply State.setQueue_inv | apply raise_inv | apply inv_ite)
    | intro _ | refine pair_inv ‹_› ?_ | refine opt_inv ‹_› ?_ | refine optp_inv ‹_› ?_ | split)

theorem execSampleCutStart_inv {n : Fin 16} {s : State} (h_s : s.Inv) : RInv (execSampleCutStart n s) :=
  rinv_next (cutStart_inv h_s)

theorem consumeLine_inv {n : Nat} {s : State} (h_s : s.Inv) : (consumeLine n s).Inv := by
  unfold consumeLine
  try dsimp only
  repeat' (first
    | with_reducible (first
      | assumption | apply readRegions_inv_snd | apply readRegions_inv | apply modSample_inv | apply storeInk_inv
      | apply State.setPort_inv | apply State.modJob_inv | apply inv_ite)
    | intro _ | refine pair_inv ‹_› ?_ | refine opt_inv ‹_› ?_ | refine optp_inv ‹_› ?_ | split)

theorem execRingLineConsume_inv {n : Fin 16} {s : State} (h_s : s.Inv) : RInv (execRingLineConsume n s) :=
  rinv_next (consumeLine_inv h_s)

theorem takePicture_inv {n : Nat} {s : State} (h_s : s.Inv) : (takePicture n s).Inv := by
  unfold takePicture
  try dsimp only
  repeat' (first
    | with_reducible (first
      | assumption | apply readRegions_inv_snd | apply readRegions_inv | apply modSample_inv | apply storeInk_inv
      | apply State.setStream_inv | apply inv_ite)
    | intro _ | refine pair_inv ‹_› ?_ | refine opt_inv ‹_› ?_ | refine optp_inv ‹_› ?_ | split)

theorem execPictureTake_inv {n : Fin 16} {s : State} (h_s : s.Inv) : RInv (execPictureTake n s) :=
  rinv_next (takePicture_inv h_s)

theorem decodeFail_inv {n id : Nat} {f : DecodeFault} {s : State} (h_s : s.Inv) : (decodeFail n id f s).Inv := by
  unfold decodeFail
  try dsimp only
  repeat' with_reducible (first | assumption | apply modSample_inv | apply fireJob_inv | apply raise_inv)

theorem storedFail_inv {n id : Nat} {input : List Byte} {s : State} (h_s : s.Inv) : (storedFail n id input s).Inv :=
    by
  unfold storedFail
  try dsimp only
  repeat' (first
    | with_reducible (first
      | assumption | apply serveInk_inv | apply decodeFail_inv | apply emitReads_inv | apply inv_ite)
    | intro _ | refine pair_inv ‹_› ?_ | refine opt_inv ‹_› ?_ | refine optp_inv ‹_› ?_ | split)

theorem execDecodeFail_inv {n : Fin 16} {j : Nat} {input : List Byte} {s : State} (h_s : s.Inv) : RInv (execDecodeFail
    n j input s) := rinv_next (storedFail_inv h_s)

theorem fillCache_inv {n : Nat} {j : Job} {ps : List (List Byte)} {s : State} (h_s : s.Inv) : (fillCache n j ps s).Inv
    := by
  unfold fillCache
  try dsimp only
  repeat' (first
    | with_reducible (first
      | assumption | apply writeForJob_inv | apply writeLinesFor_inv | apply State.setQueue_inv | apply forEach_inv
      | apply inv_ite)
    | intro _)

theorem writeSample_inv {n : Nat} {j : Job} {y : Sample} {ps : List (List Byte)} {cached : Bool} {s : State} (h_s :
    s.Inv) : (writeSample n j y ps cached s).Inv := by
  unfold writeSample
  try dsimp only
  repeat' with_reducible (first | assumption | apply writeForJob_inv | apply writeLinesFor_inv)

theorem finishSample_inv {n : Nat} {j : Job} {y : Sample} {ps : List (List Byte)} {cached : Bool} {s : State} (h_s :
    s.Inv) : (finishSample n j y ps cached s).Inv := by
  unfold finishSample
  try dsimp only
  repeat' (first
    | with_reducible (first
      | assumption | apply modSample_inv | apply storeInk_inv | apply fillCache_inv | apply writeSample_inv
      | apply fireJob_inv | apply inv_ite)
    | intro _ | refine pair_inv ‹_› ?_ | refine opt_inv ‹_› ?_ | refine optp_inv ‹_› ?_ | split)

theorem sampleComplete_inv {n id : Nat} {input : List Byte} {s : State} (h_s : s.Inv) : (sampleComplete n id input
    s).Inv := by
  unfold sampleComplete
  try dsimp only
  repeat' (first
    | with_reducible (first
      | assumption | apply readRegions_inv_snd | apply readRegions_inv | apply storedFail_inv
      | apply finishSample_inv | apply emitReads_inv | apply inv_ite)
    | intro _ | refine pair_inv ‹_› ?_ | refine opt_inv ‹_› ?_ | refine optp_inv ‹_› ?_ | split)

theorem execSampleComplete_inv {n : Fin 16} {j : Nat} {input : List Byte} {s : State} (h_s : s.Inv) :
    RInv (execSampleComplete n j input s) := rinv_next (sampleComplete_inv h_s)

theorem sampleForward_inv {n : Nat} {s : State} (h_s : s.Inv) : (sampleForward n s).Inv := by
  unfold sampleForward
  try dsimp only
  repeat' (first
    | with_reducible (first
      | assumption | apply State.setQueue_inv | apply State.modJob_inv | apply inv_ite)
    | intro _ | refine pair_inv ‹_› ?_ | refine opt_inv ‹_› ?_ | refine optp_inv ‹_› ?_ | split)

theorem execSampleForward_inv {n : Fin 16} {s : State} (h_s : s.Inv) : RInv (execSampleForward n s) :=
  rinv_next (sampleForward_inv h_s)

theorem directLoad_inv {id : Nat} {input : List Byte} {s : State} (h_s : s.Inv) : (directLoad id input s).Inv := by
  unfold directLoad
  try dsimp only
  repeat' (first
    | with_reducible (first
      | assumption | apply writeLinesFor_inv | apply fireJob_inv | apply State.modJob_inv | apply emitReads_inv
      | apply inv_ite)
    | intro _ | refine pair_inv ‹_› ?_ | refine opt_inv ‹_› ?_ | refine optp_inv ‹_› ?_ | split)

theorem execDirectLoadDone_inv {j : Nat} {input : List Byte} {s : State} (h_s : s.Inv) :
    RInv (execDirectLoadDone j input s) := rinv_next (directLoad_inv h_s)

theorem inkHits_inv {n : Nat} {s : State} (h_s : s.Inv) : PInv (inkHits n s) := by
  unfold inkHits
  try dsimp only
  repeat' with_reducible (first | assumption | apply State.setQueue_inv | apply pinv_mk)
theorem execInkHitsRead_inv {q : Requester} {n : Fin 16} {s : State} (h_s : s.Inv) : RInv (execInkHitsRead q n s) := by
  unfold execInkHitsRead
  try dsimp only
  repeat' with_reducible (first | assumption | apply regRead_inv | apply inkHits_inv | apply rinv_next)

/-! ## Machine/Cymbal.lean -/

theorem enableStream_inv {n : Nat} {s : State} (h_s : s.Inv) : (enableStream n s).Inv := by
  unfold enableStream
  try dsimp only
  repeat' (first
    | with_reducible (first
      | assumption | apply State.setStream_inv | apply rescale_inv | apply inv_ite)
    | intro _)

theorem execStreamEnable_inv {q : Requester} {n : Fin 8} {s : State} (h_s : s.Inv) : RInv (execStreamEnable q n s) := by
  unfold execStreamEnable
  try dsimp only
  repeat' with_reducible (first | assumption | apply regWrite_inv | apply enableStream_inv | apply rinv_next)

theorem disableStream_inv {n : Nat} {s : State} (h_s : s.Inv) : (disableStream n s).Inv := by
  unfold disableStream
  try dsimp only
  repeat' (first
    | with_reducible (first
      | assumption | apply State.setStream_inv | apply forEach_inv | apply rescale_inv | apply answerPicture_inv
      | apply inv_ite)
    | intro _ | with_reducible apply inv_keep)

theorem restartStream_inv {n : Nat} {s : State} (h_s : s.Inv) : (restartStream n s).Inv := by
  unfold restartStream
  try dsimp only
  repeat' (first
    | with_reducible (first
      | assumption | apply State.setStream_inv | apply rescale_inv | apply inv_ite)
    | intro _)

theorem execStreamRestart_inv {q : Requester} {n : Fin 8} {s : State} (h_s : s.Inv) : RInv (execStreamRestart q n s)
    := by
  unfold execStreamRestart
  try dsimp only
  repeat' with_reducible (first | assumption | apply regWrite_inv | apply restartStream_inv | apply rinv_next)

theorem keyRequest_inv {n : Nat} {s : State} (h_s : s.Inv) : (keyRequest n s).Inv := by
  unfold keyRequest
  try dsimp only
  repeat' with_reducible (first | assumption | apply State.setStream_inv)

theorem execKeyReq_inv {q : Requester} {n : Fin 8} {s : State} (h_s : s.Inv) : RInv (execKeyReq q n s) := by
  unfold execKeyReq
  try dsimp only
  repeat' with_reducible (first | assumption | apply regWrite_inv | apply keyRequest_inv | apply rinv_next)

theorem landLine_inv {job t line : Nat} {ws : List Word} {s : State} (h_s : s.Inv) : (landLine job t line ws s).Inv :=
    by
  unfold landLine
  try dsimp only
  repeat' (first
    | with_reducible (first
      | assumption | apply fireJob_inv | apply State.writeLines_inv | apply inv_ite)
    | intro _ | refine pair_inv ‹_› ?_ | refine opt_inv ‹_› ?_ | refine optp_inv ‹_› ?_ | split
    | with_reducible apply inv_keep | with_reducible apply inv_mem)

theorem takeRequest_inv {r : CymReq} {s : State} (h_s : s.Inv) : (takeRequest r s).Inv := by
  unfold takeRequest
  try dsimp only
  repeat' (first
    | with_reducible (first
      | assumption | apply landLine_inv | apply finishJob_inv | apply State.modJob_inv | apply claimLine_inv
      | apply inv_ite)
    | intro _ | refine pair_inv ‹_› ?_ | refine opt_inv ‹_› ?_ | refine optp_inv ‹_› ?_ | split
    | with_reducible apply inv_keep)

theorem cymbalRequest_inv {decode : Bool} {i n slot : Nat} {s : State} (h_s : s.Inv) :
    (cymbalRequest decode i n slot s).Inv := by
  unfold cymbalRequest
  try dsimp only
  repeat' (first
    | with_reducible (first
      | assumption | apply acceptLine_inv | apply takeRequest_inv | apply inv_ite)
    | intro _ | split)

theorem execCymbalEncode_inv {i : Fin 1024} {n : Fin 8} {slot : Fin 16} {s : State} (h_s : s.Inv) :
    RInv (execCymbalEncode i n slot s) := rinv_next (cymbalRequest_inv h_s)

theorem execCymbalDecode_inv {i : Fin 1024} {n : Fin 8} {slot : Fin 16} {s : State} (h_s : s.Inv) :
    RInv (execCymbalDecode i n slot s) := rinv_next (cymbalRequest_inv h_s)

theorem dropPicture_inv {r : CymReq} {s : State} (h_s : s.Inv) : (dropPicture r s).Inv := by
  unfold dropPicture
  try dsimp only
  repeat' with_reducible (first | assumption | apply answerPicture_inv | apply inv_keep)

theorem readPicture_inv {r : CymReq} {rs : List (Nat × Nat)} {s : State} (h_s : s.Inv) : PInv (readPicture r rs s) :=
    by
  unfold readPicture
  try dsimp only
  repeat' with_reducible (first | assumption | apply readRegions_inv_snd | apply readRegions_inv)
theorem readPicture_inv_snd {r : CymReq} {rs : List (Nat × Nat)} {s : State} (h_s : s.Inv) : (readPicture r rs
    s).2.Inv := readPicture_inv h_s

theorem serviceStart_inv {s : State} (h_s : s.Inv) : (serviceStart s).Inv := by
  unfold serviceStart
  try dsimp only
  repeat' (first
    | with_reducible (first
      | assumption | apply dropPicture_inv | apply readPicture_inv_snd | apply readPicture_inv
      | apply State.setStream_inv | apply foldl_inv | apply inv_ite)
    | intro _ | refine pair_inv ‹_› ?_ | refine opt_inv ‹_› ?_ | refine optp_inv ‹_› ?_ | split
    | with_reducible apply inv_keep)

theorem execPictureServiceStart_inv {s : State} (h_s : s.Inv) : RInv (execPictureServiceStart s) :=
  rinv_next (serviceStart_inv h_s)

theorem encodeDone_inv {v : CymService} {s : State} (h_s : s.Inv) : (encodeDone v s).Inv := by
  unfold encodeDone
  try dsimp only
  repeat' (first
    | with_reducible (first
      | assumption | apply dropPicture_inv | apply readPicture_inv_snd | apply readPicture_inv
      | apply writeOutput_inv | apply State.setStream_inv | apply State.modJob_inv | apply raise_inv
      | apply answerPicture_inv | apply inv_ite)
    | intro _ | refine pair_inv ‹_› ?_ | refine opt_inv ‹_› ?_ | refine optp_inv ‹_› ?_ | split
    | with_reducible apply inv_keep)

theorem outputOne_inv {n : Nat} {s : State} (h_s : s.Inv) : (outputOne n s).Inv := by
  unfold outputOne
  try dsimp only
  repeat' (first
    | with_reducible (first
      | assumption | apply dropPicture_inv | apply fireJob_inv | apply State.setStream_inv
      | apply State.writeTen_inv | apply inv_ite)
    | intro _ | refine pair_inv ‹_› ?_ | refine opt_inv ‹_› ?_ | refine optp_inv ‹_› ?_ | split)

theorem outputSome_inv {m : Nat} {n : Nat} {s : State} (h_s : s.Inv) : (outputSome m n s).Inv := by
  induction m generalizing s with
  | zero => exact h_s
  | succ m ih => exact ih (outputOne_inv h_s)

theorem damage_inv {v : CymService} {e : CymEnd} {cause off : Nat} {poc : BitVec 32} {s : State} (h_s : s.Inv) :
    (damage v e cause off poc s).Inv := by
  unfold damage
  try dsimp only
  repeat' (first
    | with_reducible (first
      | assumption | apply finishJob_inv | apply State.setStream_inv | apply raise_inv | apply answerPicture_inv
      | apply streamStop_inv | apply inv_ite)
    | intro _ | refine pair_inv ‹_› ?_ | refine opt_inv ‹_› ?_ | refine optp_inv ‹_› ?_ | split
    | with_reducible apply inv_keep)

theorem decodeEnd_inv {s : State} (h_s : s.Inv) : (decodeEnd s).Inv := by
  unfold decodeEnd
  try dsimp only
  repeat' (first
    | with_reducible (first
      | assumption | apply answerPicture_inv | apply damage_inv | apply inv_ite)
    | intro _ | split | with_reducible apply inv_keep)

theorem decodeDone_inv {v : CymService} {s : State} (h_s : s.Inv) : (decodeDone v s).Inv := by
  unfold decodeDone
  try dsimp only
  repeat' (first
    | with_reducible (first
      | assumption | apply State.setStream_inv | apply dropPicture_inv | apply readPicture_inv
      | apply outputSome_inv | apply decodeEnd_inv)
    | refine pair_inv ‹_› ?_ | split | with_reducible apply inv_keep)

theorem pictureDone_inv {s : State} (h_s : s.Inv) : (pictureDone s).Inv := by
  unfold pictureDone
  try dsimp only
  repeat' (first
    | with_reducible (first
      | assumption | apply encodeDone_inv | apply decodeDone_inv | apply inv_ite)
    | intro _ | refine pair_inv ‹_› ?_ | refine opt_inv ‹_› ?_ | refine optp_inv ‹_› ?_ | split)

theorem execPictureDone_inv {s : State} (h_s : s.Inv) : RInv (execPictureDone s) := rinv_next (pictureDone_inv h_s)

theorem execPictureOutput_inv {n : Fin 8} {s : State} (h_s : s.Inv) : RInv (execPictureOutput n s) := by
  unfold execPictureOutput
  try dsimp only
  repeat' (first
    | with_reducible (first
      | assumption | apply outputOne_inv | apply decodeEnd_inv | apply inv_ite | apply rinv_next)
    | intro _)

end Sys2Proof.Machine
end

