-- ==== Sys2Proof/Laws/InvCard.lean ====
section
/-!
SUPPORT. Each operation keeps the invariant: faults, timers, ticks, the grid, device memory, tenants and the registers.
-/
namespace Sys2Proof.Machine

/-! ## Machine/Faults.lean -/

theorem zeroStore_inv {unit : Nat} {s : State} (h_s : s.Inv) : (zeroStore unit s).Inv := by
  unfold zeroStore
  try dsimp only
  repeat' (first
    | with_reducible (first
      | assumption | apply dropPicture_inv | apply cleanStreams_inv | apply inv_ite)
    | intro _ | refine pair_inv ‹_› ?_ | refine opt_inv ‹_› ?_ | refine optp_inv ‹_› ?_ | split
    | with_reducible apply inv_keep)

theorem storeParity_inv {unit : Nat} {addr : BitVec 32} {job : Nat} {s : State} (h_s : s.Inv) :
    (storeParity unit addr job s).Inv := by
  unfold storeParity
  try dsimp only
  repeat' (first
    | with_reducible (first
      | assumption | apply fire_inv | apply fireJob_inv | apply cleanStreams_inv | apply zeroStore_inv
      | apply inv_ite)
    | intro _ | split)

theorem execStoreParityError_inv {unit : Fin 4} {addr : BitVec 32} {job : Nat} {s : State} (h_s : s.Inv) :
    RInv (execStoreParityError unit addr job s) := rinv_next (storeParity_inv h_s)

theorem recheck_inv {c : Nat} {s : State} (h_s : s.Inv) : (recheck c s).Inv := by
  unfold recheck
  try dsimp only
  repeat' with_reducible (first | assumption | apply inv_keep)

theorem halt_inv {c : Nat} {s : State} (h_s : s.Inv) : (halt c s).Inv := by
  have h := stopAll_inv h_s
  unfold halt
  generalize stopAll s = u at h ⊢
  dsimp only
  exact failJobs_inv (fire_inv (inv_mk h.memOk h.pwrOk h.grdOk h.schOk h.carOk ⟨h.fltOk.bwdog⟩))

theorem bellWatchdog_inv {c : Nat} {s : State} (h_s : s.Inv) : (bellWatchdog c s).Inv := by
  unfold bellWatchdog
  try dsimp only
  repeat' (first
    | with_reducible (first
      | assumption | apply State.setBell_inv | apply fire_inv | apply releaseClaims_inv | apply setCause_inv
      | apply recheck_inv | apply halt_inv | apply inv_ite)
    | intro _)

theorem execBellWatchdogExpire_inv {c : Fin 4} {s : State} (h_s : s.Inv) : RInv (execBellWatchdogExpire c s) :=
  rinv_next (bellWatchdog_inv h_s)

theorem bellRestart_inv {c : Nat} {s : State} (h_s : s.Inv) : (bellRestart c s).Inv := by
  unfold bellRestart
  try dsimp only
  repeat' (first | with_reducible (first | assumption | apply State.setBell_inv | apply inv_ite) | intro _)

theorem execBellCoreRestart_inv {c : Fin 4} {s : State} (h_s : s.Inv) : RInv (execBellCoreRestart c s) :=
  rinv_next (bellRestart_inv h_s)

theorem fltCtl_inv {q : Requester} {v : BitVec 32} {s : State} (h_s : s.Inv) : (fltCtl q v s).Inv := by
  unfold fltCtl
  try dsimp only
  repeat' (first
    | with_reducible (first | assumption | apply regError_inv | apply inv_ite) | intro _
    | with_reducible apply inv_flt)

theorem execClearCounts_inv {q : Requester} {v : BitVec 32} {s : State} (h_s : s.Inv) : RInv (execClearCounts q v s)
    := by
  unfold execClearCounts
  try dsimp only
  repeat' with_reducible (first | assumption | apply regWrite_inv | apply fltCtl_inv | apply rinv_next)

theorem regerrCount_inv {s : State} (h_s : s.Inv) : PInv (regerrCount s) := by
  unfold regerrCount
  try dsimp only
  repeat' with_reducible (first | assumption | apply pinv_mk | apply inv_flt)
theorem execRegerrRead_inv {q : Requester} {s : State} (h_s : s.Inv) : RInv (execRegerrRead q s) := by
  unfold execRegerrRead
  try dsimp only
  repeat' with_reducible (first | assumption | apply regRead_inv | apply regerrCount_inv | apply rinv_next)

theorem State.setSlot_inv {s : State} {b : Bool} {x : Slot} (h_s : s.Inv) : (State.setSlot s b x).Inv := by
  unfold State.setSlot
  try dsimp only
  repeat' (first | with_reducible (first | assumption | apply inv_ite) | intro _ | with_reducible apply inv_keep)

theorem fwData_inv {v : BitVec 32} {s : State} (h_s : s.Inv) : (fwData v s).Inv := by
  unfold fwData
  try dsimp only
  repeat' (first
    | with_reducible (first | assumption | apply State.setSlot_inv | apply inv_ite) | intro _
    | with_reducible apply inv_keep)

theorem execFwDataWrite_inv {q : Requester} {v : BitVec 32} {s : State} (h_s : s.Inv) : RInv (execFwDataWrite q v s)
    := by
  unfold execFwDataWrite
  try dsimp only
  repeat' with_reducible (first | assumption | apply regWrite_inv | apply fwData_inv | apply rinv_next)

theorem raiseMinimum_inv {s : State} (h_s : s.Inv) : (raiseMinimum s).Inv := by
  unfold raiseMinimum
  try dsimp only
  repeat' (first | with_reducible (first | assumption | apply inv_ite) | intro _ | with_reducible apply inv_keep)

theorem fwCtl_inv {q : Requester} {v : BitVec 32} {s : State} (h_s : s.Inv) : (fwCtl q v s).Inv := by
  unfold fwCtl
  try dsimp only
  repeat' (first
    | with_reducible (first
      | assumption | apply raiseMinimum_inv | apply regError_inv | apply inv_ite)
    | intro _ | refine pair_inv ‹_› ?_ | refine opt_inv ‹_› ?_ | refine optp_inv ‹_› ?_ | split
    | with_reducible apply inv_keep)

theorem execFwCommit_inv {q : Requester} {v : BitVec 32} {s : State} (h_s : s.Inv) : RInv (execFwCommit q v s) := by
  unfold execFwCommit
  try dsimp only
  repeat' with_reducible (first | assumption | apply regWrite_inv | apply fwCtl_inv | apply rinv_next)

theorem execRaiseArb_inv {q : Requester} {v : BitVec 32} {s : State} (h_s : s.Inv) : RInv (execRaiseArb q v s) := by
  unfold execRaiseArb
  try dsimp only
  repeat' with_reducible (first | assumption | apply regWrite_inv | apply fwCtl_inv | apply rinv_next)

theorem fwCheckDone_inv {s : State} (h_s : s.Inv) : (fwCheckDone s).Inv := by
  unfold fwCheckDone
  try dsimp only
  repeat' (first
    | with_reducible (first | assumption | apply inv_ite) | intro _ | split | with_reducible apply inv_keep)

theorem execFwCheckDone_inv {s : State} (h_s : s.Inv) : RInv (execFwCheckDone s) := rinv_next (fwCheckDone_inv h_s)

/-! ## Machine/Woodblock.lean -/

theorem timeWrap_inv {s : State} (h_s : s.Inv) : (timeWrap s).Inv := by
  unfold timeWrap
  try dsimp only
  repeat' (first
    | with_reducible (first
      | assumption | apply raise_inv | apply inv_ite)
    | intro _ | refine pair_inv ‹_› ?_ | refine opt_inv ‹_› ?_ | refine optp_inv ‹_› ?_ | split
    | with_reducible apply inv_keep)

theorem execTimeWrap_inv {s : State} (h_s : s.Inv) : RInv (execTimeWrap s) := rinv_next (timeWrap_inv h_s)

theorem timeRead_inv {s : State} (h_s : s.Inv) : PInv (timeRead s) := by
  unfold timeRead
  try dsimp only
  repeat' with_reducible (first | assumption | apply pinv_mk | apply inv_keep)
theorem execWbkTimeRead_inv {q : Requester} {s : State} (h_s : s.Inv) : RInv (execWbkTimeRead q s) := by
  unfold execWbkTimeRead
  try dsimp only
  repeat' with_reducible (first | assumption | apply regRead_inv | apply timeRead_inv | apply rinv_next)

theorem posCount_inv {p : Nat} {a b : Bool} {s : State} (h_s : s.Inv) : (posCount p a b s).Inv := by
  unfold posCount
  try dsimp only
  repeat' with_reducible (first | assumption | apply pinLevels_inv)

theorem execPosCount_inv {p : Fin 4} {a b : Bool} {s : State} (h_s : s.Inv) : RInv (execPosCount p a b s) :=
  rinv_next (posCount_inv h_s)

theorem posErrRead_inv {p : Nat} {s : State} (h_s : s.Inv) : PInv (posErrRead p s) := by
  unfold posErrRead
  try dsimp only
  repeat' with_reducible (first | assumption | apply State.setPos_inv | apply pinv_mk)
theorem execPosErrRead_inv {q : Requester} {p : Fin 4} {s : State} (h_s : s.Inv) : RInv (execPosErrRead q p s) := by
  unfold execPosErrRead
  try dsimp only
  repeat' with_reducible (first | assumption | apply regRead_inv | apply posErrRead_inv | apply rinv_next)

theorem execPosSet_inv {q : Requester} {p : Fin 4} {v : BitVec 32} {s : State} (h_s : s.Inv) :
    RInv (execPosSet q p v s) := by
  unfold execPosSet
  try dsimp only
  repeat' (first
    | with_reducible (first
      | assumption | apply State.setPos_inv | apply regWrite_inv | apply rinv_next)
    | intro _)

theorem guardOwned_inv {q : Requester} {k off : Nat} {f : State → State} {s : State}
    (h_f : ∀ (x0 : State), x0.Inv → (f x0).Inv) (h_s : s.Inv) : (guardOwned q k off f s).Inv := by
  unfold guardOwned
  try dsimp only
  repeat' (first | with_reducible (first | assumption | apply regError_inv | apply h_f | apply inv_ite) | intro _)

theorem channelCtl_inv {q : Requester} {k : Nat} {v : BitVec 32} {s : State} (h_s : s.Inv) : (channelCtl q k v s).Inv
    := by
  unfold channelCtl
  try dsimp only
  repeat' (first
    | with_reducible (first
      | assumption | apply State.setChan_inv | apply regError_inv | apply stopMatched_inv | apply armChannel_inv
      | apply inv_ite)
    | intro _)

theorem execChannelCtlWrite_inv {q : Requester} {k : Fin 16} {v : BitVec 32} {s : State} (h_s : s.Inv) :
    RInv (execChannelCtlWrite q k v s) := by
  unfold execChannelCtlWrite
  try dsimp only
  repeat' (first
    | with_reducible (first
      | assumption | apply regWrite_inv | apply guardOwned_inv | apply channelCtl_inv | apply rinv_next)
    | intro _)

theorem cmpWrite_inv {k : Nat} {high : Bool} {v : BitVec 32} {s : State} (h_s : s.Inv) : (cmpWrite k high v s).Inv := by
  unfold cmpWrite
  try dsimp only
  repeat' with_reducible (first | assumption | apply State.setChan_inv)

theorem execCmpWrite_inv {q : Requester} {k : Fin 16} {high : Bool} {v : BitVec 32} {s : State} (h_s : s.Inv) :
    RInv (execCmpWrite q k high v s) := by
  unfold execCmpWrite
  try dsimp only
  repeat' (first
    | with_reducible (first
      | assumption | apply regWrite_inv | apply guardOwned_inv | apply cmpWrite_inv | apply rinv_next)
    | intro _)

theorem timeMatch_inv {k : Nat} {s : State} (h_s : s.Inv) : (timeMatch k s).Inv := by
  unfold timeMatch
  try dsimp only
  repeat' (first | with_reducible (first | assumption | apply matchAndStop_inv | apply inv_ite) | intro _)

theorem execTimeMatch_inv {k : Fin 16} {s : State} (h_s : s.Inv) : RInv (execTimeMatch k s) :=
  rinv_next (timeMatch_inv h_s)

theorem execCapture_inv {pin : Fin 28} {level : Bool} {s : State} (h_s : s.Inv) : RInv (execCapture pin level s) :=
    rinv_next (pinChange_inv h_s)

theorem capRead_inv {k : Nat} {s : State} (h_s : s.Inv) : PInv (capRead k s) := by
  unfold capRead
  try dsimp only
  repeat' with_reducible (first | assumption | apply State.setChan_inv | apply pinv_mk)
theorem execCapRead_inv {q : Requester} {k : Fin 16} {s : State} (h_s : s.Inv) : RInv (execCapRead q k s) := by
  unfold execCapRead
  try dsimp only
  repeat' with_reducible (first | assumption | apply regRead_inv | apply capRead_inv | apply rinv_next)

theorem pulseEnd_inv {k : Nat} {s : State} (h_s : s.Inv) : (pulseEnd k s).Inv := by
  unfold pulseEnd
  try dsimp only
  repeat' (first | with_reducible (first | assumption | apply State.setChan_inv | apply inv_ite) | intro _)

theorem execPulseEnd_inv {k : Fin 16} {s : State} (h_s : s.Inv) : RInv (execPulseEnd k s) :=
  rinv_next (pulseEnd_inv h_s)

/-! ## Machine/Tick.lean -/

theorem ticksHeld_inv {s : State} (h_s : s.Inv) : PInv (ticksHeld s) := by
  unfold ticksHeld
  try dsimp only
  repeat' (first
    | with_reducible (first
      | assumption | apply State.draw_inv_snd | apply State.draw_inv | apply pinv_mk | apply pinv_ite
      | apply opinv_getD | apply inv_ite)
    | intro _ | refine pair_inv ‹_› ?_ | refine opt_inv ‹_› ?_ | refine optp_inv ‹_› ?_ | split)
theorem tickTime_inv {s : State} (h_s : s.Inv) : (tickTime s).Inv := by
  unfold tickTime
  try dsimp only
  repeat' (first
    | with_reducible (first
      | assumption | apply timeWrap_inv | apply inv_ite)
    | intro _ | refine pair_inv ‹_› ?_ | refine opt_inv ‹_› ?_ | refine optp_inv ‹_› ?_ | split
    | with_reducible apply inv_keep)

theorem tickMgt_inv {s : State} (h_s : s.Inv) : (tickMgt s).Inv := by
  have h := ticksHeld_inv (meshTick_inv (runFilters_inv (atOnce := false) (tickTime_inv h_s)))
  unfold tickMgt
  generalize ticksHeld (meshTick (runFilters false (tickTime s))) = p at h
  obtain ⟨b, u⟩ := p
  have hu : u.Inv := h
  exact inv_mk hu.memOk hu.pwrOk ⟨hu.grdOk.wdog⟩ ⟨hu.schOk.slice⟩ hu.carOk hu.fltOk

theorem tick_inv {s : State} (h_s : s.Inv) : (tick s).Inv := by
  unfold tick
  try dsimp only
  repeat' (first
    | with_reducible (first | assumption | apply tickMgt_inv | apply inv_ite) | intro _
    | with_reducible apply inv_keep)

/-! ## Machine/Grid.lean -/

theorem tearDown_inv {m : Nat} {s : State} (h_s : s.Inv) : (tearDown m s).Inv := by
  unfold tearDown
  try dsimp only
  repeat' (first
    | with_reducible (first
      | assumption | apply State.setTile_inv | apply cutOutward_inv | apply inv_ite)
    | intro _ | split | with_reducible apply inv_grd)

theorem chokePort_inv {v : BitVec 32} {s : State} (h_s : s.Inv) : (chokePort v s).Inv := by
  unfold chokePort
  try dsimp only
  repeat' (first
    | with_reducible (first
      | assumption | apply tearDown_inv | apply forEach_inv | apply inv_ite)
    | intro _ | refine pair_inv ‹_› ?_ | refine opt_inv ‹_› ?_ | refine optp_inv ‹_› ?_ | split
    | with_reducible apply inv_keep | with_reducible apply inv_grd)

theorem chokeWrite_inv {q : Requester} {v : BitVec 32} {s : State} (h_s : s.Inv) : (chokeWrite q v s).Inv := by
  unfold chokeWrite
  try dsimp only
  repeat' (first
    | with_reducible (first
      | assumption | apply regError_inv | apply chokePort_inv | apply inv_ite)
    | intro _ | split)

theorem execGrdChokeWrite_inv {q : Requester} {v : BitVec 32} {s : State} (h_s : s.Inv) :
    RInv (execGrdChokeWrite q v s) := by
  unfold execGrdChokeWrite
  try dsimp only
  repeat' with_reducible (first | assumption | apply regWrite_inv | apply chokeWrite_inv | apply rinv_next)

theorem execChokeComplete_inv {s : State} (h_s : s.Inv) : RInv (execChokeComplete s) := rinv_next (inv_grd h_s)

theorem watchdogExpire_inv {i : Nat} {s : State} (h_s : s.Inv) : (watchdogExpire i s).Inv := by
  unfold watchdogExpire
  try dsimp only
  repeat' (first | with_reducible (first | assumption | apply tileFault_inv | apply inv_ite) | intro _)

theorem execTileWatchdogExpire_inv {i : Fin 1024} {s : State} (h_s : s.Inv) : RInv (execTileWatchdogExpire i s) :=
  rinv_next (watchdogExpire_inv h_s)

theorem qrateUpdate_inv {q : Nat} {s : State} (h_s : s.Inv) : (qrateUpdate q s).Inv := by
  unfold qrateUpdate
  try dsimp only
  repeat' (first
    | with_reducible (first
      | assumption | apply inv_ite)
    | intro _ | refine pair_inv ‹_› ?_ | refine opt_inv ‹_› ?_ | refine optp_inv ‹_› ?_ | split
    | with_reducible apply inv_keep | with_reducible apply inv_grd)

theorem execQrateUpdate_inv {qd : Fin 4} {s : State} (h_s : s.Inv) : RInv (execQrateUpdate qd s) := by
  unfold execQrateUpdate
  try dsimp only
  repeat' (first
    | with_reducible (first
      | assumption | apply qrateUpdate_inv | apply inv_ite | apply rinv_next)
    | intro _)

theorem paceLo_inv {i : Nat} {s : State} (h_s : s.Inv) : PInv (paceLo i s) := by
  unfold paceLo
  try dsimp only
  repeat' with_reducible (first | assumption | apply State.setTile_inv | apply pinv_mk)
theorem execPaceRead_inv {q : Requester} {i : Fin 1024} {s : State} (h_s : s.Inv) : RInv (execPaceRead q i s) := by
  unfold execPaceRead
  try dsimp only
  repeat' with_reducible (first | assumption | apply regRead_inv | apply paceLo_inv | apply rinv_next)

theorem fenceStat_inv {s : State} (h_s : s.Inv) : PInv (fenceStat s) := by
  unfold fenceStat
  try dsimp only
  repeat' with_reducible (first | assumption | apply pinv_mk | apply inv_grd)
theorem execFenceStatRead_inv {q : Requester} {s : State} (h_s : s.Inv) : RInv (execFenceStatRead q s) := by
  unfold execFenceStatRead
  try dsimp only
  repeat' with_reducible (first | assumption | apply regRead_inv | apply fenceStat_inv | apply rinv_next)

/-! ## Machine/Memory.lean -/

theorem patrol_inv {k : Nat} {u : Option Bool} {s : State} (h_s : s.Inv) : (patrol k u s).Inv := by
  unfold patrol
  try dsimp only
  repeat' (first
    | with_reducible (first
      | assumption | apply upset_inv | apply uncorrectableBeat_inv | apply readBeat_inv_snd | apply readBeat_inv
      | apply State.setStack_inv | apply fire_inv | apply inv_ite)
    | intro _ | refine pair_inv ‹_› ?_ | refine opt_inv ‹_› ?_ | refine optp_inv ‹_› ?_ | split)

theorem execPatrolRead_inv {k : Fin 4} {upset : Option Bool} {s : State} (h_s : s.Inv) :
    RInv (execPatrolRead k upset s) := rinv_next (patrol_inv h_s)

theorem fenceCmd_inv {q : Requester} {v : BitVec 32} {s : State} (h_s : s.Inv) : (fenceCmd q v s).Inv := by
  unfold fenceCmd
  try dsimp only
  repeat' (first
    | with_reducible (first
      | assumption | apply forEach_inv | apply regError_inv | apply fence_inv | apply inv_ite)
    | intro _)

theorem execMemFenceCmd_inv {q : Requester} {v : BitVec 32} {s : State} (h_s : s.Inv) : RInv (execMemFenceCmd q v s)
    := by
  unfold execMemFenceCmd
  try dsimp only
  repeat' with_reducible (first | assumption | apply fenceCmd_inv | apply keyWrite_inv | apply rinv_next)

theorem memCe_inv {k : Nat} {s : State} (h_s : s.Inv) : PInv (memCe k s) := by
  unfold memCe
  try dsimp only
  repeat' with_reducible (first | assumption | apply State.setStack_inv | apply pinv_mk)
theorem execMemCeRead_inv {q : Requester} {k : Fin 4} {s : State} (h_s : s.Inv) : RInv (execMemCeRead q k s) := by
  unfold execMemCeRead
  try dsimp only
  repeat' with_reducible (first | assumption | apply regRead_inv | apply memCe_inv | apply rinv_next)

theorem memUe_inv {k : Nat} {s : State} (h_s : s.Inv) : PInv (memUe k s) := by
  unfold memUe
  try dsimp only
  repeat' with_reducible (first | assumption | apply State.setStack_inv | apply pinv_mk)
theorem execMemUeRead_inv {q : Requester} {k : Fin 4} {s : State} (h_s : s.Inv) : RInv (execMemUeRead q k s) := by
  unfold execMemUeRead
  try dsimp only
  repeat' with_reducible (first | assumption | apply regRead_inv | apply memUe_inv | apply rinv_next)

theorem stackCool_inv {k : Nat} {s : State} (h_s : s.Inv) : (stackCool k s).Inv := by
  unfold stackCool
  try dsimp only
  repeat' (first
    | with_reducible (first
      | assumption | apply State.setStack_inv | apply rescaleStack_inv | apply inv_ite)
    | intro _)

theorem execStackCool_inv {k : Fin 4} {s : State} (h_s : s.Inv) : RInv (execStackCool k s) :=
  rinv_next (stackCool_inv h_s)

/-! ## Machine/Tenants.lean -/

theorem mapWrite_inv {i : Nat} {v : BitVec 32} {s : State} (h_s : s.Inv) : (mapWrite i v s).Inv := by
  unfold mapWrite
  try dsimp only
  repeat' (first
    | with_reducible (first
      | assumption | apply State.setMap_inv | apply queueScrub_inv | apply inv_ite)
    | intro _ | with_reducible apply inv_keep)

theorem execTenMapWrite_inv {q : Requester} {i : Fin 49152} {v : BitVec 32} {s : State} (h_s : s.Inv) :
    RInv (execTenMapWrite q i v s) := by
  unfold execTenMapWrite
  try dsimp only
  repeat' with_reducible (first | assumption | apply regWrite_inv | apply mapWrite_inv | apply rinv_next)

theorem pageZeroed_inv {s : State} (h_s : s.Inv) : (pageZeroed s).Inv := by
  unfold pageZeroed
  try dsimp only
  repeat' (first
    | with_reducible (first | assumption | apply zeroBytes_inv | apply inv_ite) | intro _ | split
    | with_reducible apply inv_keep)

theorem execPageZeroed_inv {s : State} (h_s : s.Inv) : RInv (execPageZeroed s) := rinv_next (pageZeroed_inv h_s)

theorem enableTenant_inv {q : Requester} {t : Nat} {s : State} (h_s : s.Inv) : (enableTenant q t s).Inv := by
  unfold enableTenant
  try dsimp only
  repeat' (first
    | with_reducible (first
      | assumption | apply State.setTenant_inv | apply regError_inv | apply holdChime_inv | apply inv_ite)
    | intro _ | with_reducible apply inv_keep)

theorem execTenantEnable_inv {q : Requester} {t : Fin 64} {s : State} (h_s : s.Inv) : RInv (execTenantEnable q t s) := by
  unfold execTenantEnable
  try dsimp only
  repeat' with_reducible (first | assumption | apply regWrite_inv | apply enableTenant_inv | apply rinv_next)

theorem disableTenant_inv {t : Nat} {s : State} (h_s : s.Inv) : (disableTenant t s).Inv := by
  unfold disableTenant
  try dsimp only
  repeat' (first
    | with_reducible (first
      | assumption | apply State.setTenant_inv | apply abortTenant_inv | apply tenantReset_inv
      | apply tenantLost_inv | apply inv_ite)
    | intro _)

theorem execTenantDisable_inv {q : Requester} {t : Fin 64} {s : State} (h_s : s.Inv) : RInv (execTenantDisable q t s)
    := by
  unfold execTenantDisable
  try dsimp only
  repeat' with_reducible (first | assumption | apply regWrite_inv | apply disableTenant_inv | apply rinv_next)

theorem disableDone_inv {t : Nat} {s : State} (h_s : s.Inv) : (disableDone t s).Inv := by
  unfold disableDone
  try dsimp only
  repeat' (first
    | with_reducible (first
      | assumption | apply tenantGone_inv | apply tailHint_inv | apply inv_ite)
    | intro _)

theorem execTenantDisableDone_inv {t : Fin 64} {s : State} (h_s : s.Inv) : RInv (execTenantDisableDone t s) :=
  rinv_next (disableDone_inv h_s)

theorem scrubTenant_inv {q : Requester} {t : Nat} {s : State} (h_s : s.Inv) : (scrubTenant q t s).Inv := by
  unfold scrubTenant
  try dsimp only
  repeat' (first
    | with_reducible (first
      | assumption | apply regError_inv | apply queueScrub_inv | apply inv_ite)
    | intro _)

theorem execTenantScrub_inv {q : Requester} {t : Fin 64} {s : State} (h_s : s.Inv) : RInv (execTenantScrub q t s) := by
  unfold execTenantScrub
  try dsimp only
  repeat' with_reducible (first | assumption | apply regWrite_inv | apply scrubTenant_inv | apply rinv_next)

theorem numvfsWrite_inv {numVfs : BitVec 16} {enable ari : Bool} {s : State} (h_s : s.Inv) : (numvfsWrite numVfs
    enable ari s).Inv := by
  unfold numvfsWrite
  try dsimp only
  repeat' (first
    | with_reducible (first
      | assumption | apply linkUp_inv | apply State.setFunc_inv | apply forEach_inv | apply flrTenant_inv
      | apply tenantGone_inv | apply inv_ite)
    | intro _ | refine pair_inv ‹_› ?_ | refine opt_inv ‹_› ?_ | refine optp_inv ‹_› ?_ | split
    | with_reducible apply inv_keep)

theorem execNumvfsWrite_inv {numVfs : BitVec 16} {enable ari : Bool} {s : State} (h_s : s.Inv) :
    RInv (execNumvfsWrite numVfs enable ari s) := rinv_next (numvfsWrite_inv h_s)

theorem halfWrite_inv {t r : Nat} {s : State} (h_s : s.Inv) : (halfWrite t r s).Inv := by
  unfold halfWrite
  try dsimp only
  repeat' (first
    | with_reducible (first
      | assumption | apply State.setRing_inv | apply State.emit_inv | apply takeStamp_inv)
    | split)

theorem bmeClear_inv {t : Nat} {mid : Option (Fin 8)} {s : State} (h_s : s.Inv) : (bmeClear t mid s).Inv := by
  unfold bmeClear
  try dsimp only
  repeat' (first
    | with_reducible (first
      | assumption | apply State.setFunc_inv | apply abortTenant_inv | apply tenantReset_inv | apply halfWrite_inv
      | apply inv_ite)
    | intro _ | split)

theorem execBmeClear_inv {t : Fin 64} {mid : Option (Fin 8)} {s : State} (h_s : s.Inv) : RInv (execBmeClear t mid s)
    := rinv_next (bmeClear_inv h_s)

theorem bmeSet_inv {t : Nat} {s : State} (h_s : s.Inv) : (bmeSet t s).Inv := by
  unfold bmeSet
  try dsimp only
  repeat' (first
    | with_reducible (first
      | assumption | apply State.setFunc_inv | apply forEach_inv | apply flushHalf_inv | apply inv_ite)
    | intro _)

theorem execBmeSet_inv {t : Fin 64} {s : State} (h_s : s.Inv) : RInv (execBmeSet t s) := rinv_next (bmeSet_inv h_s)

/-! ## Machine/RegsCard.lean -/

theorem shows_inv {v : Reg} {s : State} (h_s : s.Inv) : OPInv (shows v s) := by
  unfold shows
  try dsimp only
  repeat' with_reducible (first | assumption | apply pinv_mk | apply opinv_some)

theorem pwrRead_inv {off : Nat} {s : State} (h_s : s.Inv) : OPInv (pwrRead off s) := by
  unfold pwrRead
  try dsimp only
  repeat' (first | with_reducible (first | assumption | apply shows_inv | apply opinv_none) | split)

theorem pwrWrite_inv {q : Requester} {off : Nat} {v : BitVec 32} {s : State} (h_s : s.Inv) : OInv (pwrWrite q off v
    s) := by
  unfold pwrWrite
  split
  · exact oinv_some (inv_mk h_s.memOk ⟨capOk_clamp _, h_s.pwrOk.vset⟩ h_s.grdOk h_s.schOk h_s.carOk h_s.fltOk)
  · exact oinv_some (inv_mk h_s.memOk ⟨h_s.pwrOk.cap, vsetOk_stored _⟩ h_s.grdOk h_s.schOk h_s.carOk h_s.fltOk)
  · exact oinv_some (inv_mk h_s.memOk ⟨h_s.pwrOk.cap, h_s.pwrOk.vset⟩ h_s.grdOk h_s.schOk h_s.carOk h_s.fltOk)
  · exact oinv_some (resetWrite_inv h_s)
  · exact oinv_some (inv_mk h_s.memOk ⟨h_s.pwrOk.cap, h_s.pwrOk.vset⟩ h_s.grdOk h_s.schOk h_s.carOk h_s.fltOk)
  · exact oinv_none

theorem clkRead_inv {off : Nat} {s : State} (h_s : s.Inv) : OPInv (clkRead off s) := by
  unfold clkRead
  try dsimp only
  repeat' (first
    | with_reducible (first | assumption | apply shows_inv | apply opinv_none | apply opinv_ite) | intro _)

theorem clkWrite_inv {off : Nat} {v : BitVec 32} {s : State} (h_s : s.Inv) : OInv (clkWrite off v s) := by
  unfold clkWrite
  try dsimp only
  repeat' (first
    | with_reducible (first
      | assumption | apply lineFreq_inv | apply oinv_none | apply oinv_some | apply oinv_ite)
    | intro _ | with_reducible apply inv_keep)

theorem hifRead_inv {off : Nat} {s : State} (h_s : s.Inv) : OPInv (hifRead off s) := by
  unfold hifRead
  try dsimp only
  repeat' (first
    | with_reducible (first | assumption | apply shows_inv | apply opinv_none | apply opinv_ite) | intro _)

theorem tenRead_inv {off : Nat} {s : State} (h_s : s.Inv) : OPInv (tenRead off s) := by
  unfold tenRead
  try dsimp only
  repeat' (first
    | with_reducible (first | assumption | apply shows_inv | apply opinv_none | apply opinv_ite) | intro _ | split)

theorem tenCtl_inv {q : Requester} {t : Nat} {v : BitVec 32} {s : State} (h_s : s.Inv) : (tenCtl q t v s).Inv := by
  unfold tenCtl
  try dsimp only
  repeat' (first
    | with_reducible (first
      | assumption | apply enableTenant_inv | apply disableTenant_inv | apply scrubTenant_inv | apply inv_ite)
    | intro _)

theorem tenLocked_inv {q : Requester} {t off : Nat} {f : Tenant → Tenant} {s : State} (h_s : s.Inv) :
    (tenLocked q t off f s).Inv := by
  unfold tenLocked
  try dsimp only
  repeat' (first
    | with_reducible (first
      | assumption | apply State.setTenant_inv | apply regError_inv | apply inv_ite)
    | intro _)

theorem tenWrite_inv {q : Requester} {off : Nat} {v : BitVec 32} {s : State} (h_s : s.Inv) : OInv (tenWrite q off v s)
    := by
  unfold tenWrite
  try dsimp only
  repeat' (first
    | with_reducible (first
      | assumption | apply mapWrite_inv | apply tenCtl_inv | apply tenLocked_inv | apply oinv_none | apply oinv_some
      | apply oinv_ite)
    | intro _ | split | with_reducible apply inv_keep)

theorem gngRead_inv {off : Nat} {s : State} (h_s : s.Inv) : OPInv (gngRead off s) := by
  unfold gngRead
  try dsimp only
  repeat' (first
    | with_reducible (first
      | assumption | apply nextRead_inv | apply holdRead_inv | apply shows_inv | apply opinv_none
      | apply opinv_some)
    | split)

theorem settleCommit_inv {q : Requester} {n : Nat} {s : State} (h_s : s.Inv) : (settleCommit q n s).Inv := by
  unfold settleCommit
  try dsimp only
  repeat' (first
    | with_reducible (first
      | assumption | apply sourceCommit_inv | apply inv_ite)
    | intro _ | refine pair_inv ‹_› ?_ | refine opt_inv ‹_› ?_ | refine optp_inv ‹_› ?_ | split)

theorem srcRead_inv {q : Requester} {n : Nat} {s : State} (h_s : s.Inv) : PInv (srcRead q n s) := by
  unfold srcRead
  try dsimp only
  repeat' with_reducible (first | assumption | apply settleCommit_inv | apply pinv_mk)
theorem srcRead_inv_snd {q : Requester} {n : Nat} {s : State} (h_s : s.Inv) : (srcRead q n s).2.Inv := srcRead_inv h_s

theorem carRead_inv {q : Requester} {off : Nat} {s : State} (h_s : s.Inv) : OPInv (carRead q off s) := by
  unfold carRead
  try dsimp only
  repeat' (first
    | with_reducible (first
      | assumption | apply claimRead_inv_snd | apply claimRead_inv | apply stampRead_inv_snd | apply stampRead_inv
      | apply shows_inv | apply srcRead_inv_snd | apply srcRead_inv | apply oinv_none | apply opinv_none
      | apply opinv_some | apply opinv_ite | apply opinv_map | apply pinv_mk | apply inv_ite)
    | intro _ | refine pair_inv ‹_› ?_ | refine opt_inv ‹_› ?_ | refine optp_inv ‹_› ?_ | split)

theorem carWrite_inv {q : Requester} {off : Nat} {v : BitVec 32} {s : State} (h_s : s.Inv) : OInv (carWrite q off v
    s) := by
  unfold carWrite
  refine oinv_ite (fun _ => oinv_some (srcWrite_inv h_s)) (fun _ => ?_)
  refine oinv_ite (fun _ => oinv_some (swset_inv h_s)) (fun _ => ?_)
  refine oinv_ite (fun _ => oinv_some (lostClear_inv h_s)) (fun _ => ?_)
  refine oinv_ite (fun _ => oinv_some (inv_mk h_s.memOk h_s.pwrOk h_s.grdOk h_s.schOk ⟨splitOk_min _⟩ h_s.fltOk))
      (fun _ => ?_)
  refine oinv_ite (fun _ => oinv_some (inv_mk h_s.memOk h_s.pwrOk h_s.grdOk h_s.schOk ⟨h_s.carOk.split⟩ h_s.fltOk))
      (fun _ => ?_)
  refine oinv_ite (fun _ => oinv_some (inv_mk h_s.memOk h_s.pwrOk h_s.grdOk h_s.schOk ⟨h_s.carOk.split⟩ h_s.fltOk))
      (fun _ => ?_)
  refine oinv_ite (fun _ => oinv_some (done_inv h_s)) (fun _ => ?_)
  exact oinv_ite (fun _ => oinv_some (inv_mk h_s.memOk h_s.pwrOk h_s.grdOk h_s.schOk ⟨h_s.carOk.split⟩ h_s.fltOk))
      (fun _ => oinv_none)

theorem memRead_inv {off : Nat} {s : State} (h_s : s.Inv) : OPInv (memRead off s) := by
  unfold memRead
  try dsimp only
  repeat' (first
    | with_reducible (first
      | assumption | apply memCe_inv | apply memUe_inv | apply shows_inv | apply opinv_none | apply opinv_some
      | apply opinv_ite)
    | intro _)

theorem memWrite_inv {q : Requester} {off : Nat} {v : BitVec 32} {s : State} (h_s : s.Inv) : OInv (memWrite q off v
    s) := by
  have h := h_s.memOk
  unfold memWrite
  refine oinv_ite (fun _ => oinv_some (fenceCmd_inv h_s)) (fun _ => ?_)
  refine oinv_ite (fun _ => oinv_some (inv_mk ⟨h.cells, ⟨orOne_ne (by decide) _⟩, h.patrol⟩ h_s.pwrOk h_s.grdOk
      h_s.schOk h_s.carOk h_s.fltOk)) (fun _ => ?_)
  refine oinv_ite (fun _ => oinv_some (inv_mk ⟨h.cells, h.ue, patrolOk_clamp _⟩ h_s.pwrOk h_s.grdOk h_s.schOk
      h_s.carOk h_s.fltOk)) (fun _ => ?_)
  exact oinv_ite (fun _ => oinv_some (inv_mk ⟨h.cells, h.ue, h.patrol⟩ h_s.pwrOk h_s.grdOk h_s.schOk h_s.carOk
      h_s.fltOk)) (fun _ => oinv_none)

theorem schRead_inv {off : Nat} {s : State} (h_s : s.Inv) : OPInv (schRead off s) := by
  unfold schRead
  try dsimp only
  repeat' (first
    | with_reducible (first
      | assumption | apply usedLo_inv | apply shows_inv | apply opinv_none | apply opinv_some | apply opinv_ite)
    | intro _ | split)

theorem spillLocked_inv {q : Requester} {t off : Nat} {f : SchTen → SchTen} {s : State} (h_s : s.Inv) :
    (spillLocked q t off f s).Inv := by
  unfold spillLocked
  try dsimp only
  repeat' (first
    | with_reducible (first
      | assumption | apply State.setSchTen_inv | apply regError_inv | apply inv_ite)
    | intro _)

theorem schWrite_inv {q : Requester} {off : Nat} {v : BitVec 32} {s : State} (h_s : s.Inv) : OInv (schWrite q off v
    s) := by
  unfold schWrite
  refine oinv_ite (fun _ => oinv_some (inv_mk h_s.memOk h_s.pwrOk h_s.grdOk ⟨sliceOk_min _⟩ h_s.carOk h_s.fltOk))
      (fun _ => ?_)
  refine oinv_ite (fun _ => ?_) (fun _ => oinv_none)
  dsimp only
  split
  · exact oinv_some (State.setSchTen_inv h_s)
  · exact oinv_some (State.setSchTen_inv h_s)
  · exact oinv_some (State.setSchTen_inv h_s)
  · exact oinv_some (spillLocked_inv h_s)
  · exact oinv_some (spillLocked_inv h_s)
  · exact oinv_none

/-! ## Machine/Roll.lean -/

theorem enablePort_inv {p : Nat} {s : State} (h_s : s.Inv) : (enablePort p s).Inv := by
  unfold enablePort
  try dsimp only
  repeat' (first
    | with_reducible (first
      | assumption | apply rescale_inv | apply State.setPort_inv | apply inv_ite)
    | intro _)

theorem portFields_inv {p : Nat} {v : BitVec 32} {s : State} (h_s : s.Inv) : (portFields p v s).Inv := by
  unfold portFields
  try dsimp only
  repeat' with_reducible (first | assumption | apply State.setPort_inv)

theorem portEnable_inv {p : Nat} {v : BitVec 32} {s : State} (h_s : s.Inv) : (portEnable p v s).Inv := by
  unfold portEnable
  try dsimp only
  repeat' (first
    | with_reducible (first
      | assumption | apply enablePort_inv | apply portFields_inv | apply inv_ite)
    | intro _)

theorem execPortEnable_inv {q : Requester} {p : Fin 4} {v : BitVec 32} {s : State} (h_s : s.Inv) :
    RInv (execPortEnable q p v s) := by
  unfold execPortEnable
  try dsimp only
  repeat' with_reducible (first | assumption | apply regWrite_inv | apply portEnable_inv | apply rinv_next)

theorem portDisable_inv {p : Nat} {s : State} (h_s : s.Inv) : (portDisable p s).Inv := by
  unfold portDisable
  try dsimp only
  repeat' (first
    | with_reducible (first
      | assumption | apply portOff_inv | apply stopFollowers_inv | apply inv_ite)
    | intro _)

theorem execPortDisable_inv {q : Requester} {p : Fin 4} {s : State} (h_s : s.Inv) : RInv (execPortDisable q p s) := by
  unfold execPortDisable
  try dsimp only
  repeat' with_reducible (first | assumption | apply regWrite_inv | apply portDisable_inv | apply rinv_next)

theorem motionAsked_inv {p : Nat} {s : State} (h_s : s.Inv) : (motionAsked p s).Inv := by
  unfold motionAsked
  try dsimp only
  repeat' (first
    | with_reducible (first
      | assumption | apply motionStop_inv | apply setDirection_inv | apply startMotion_inv | apply inv_ite)
    | intro _)

theorem trainingDone_inv {p : Nat} {pairs : List (List (BitVec 16))} {s : State} (h_s : s.Inv) : (trainingDone p pairs
    s).Inv := by
  unfold trainingDone
  try dsimp only
  repeat' (first
    | with_reducible (first
      | assumption | apply State.setChan_inv | apply State.setPort_inv | apply motionAsked_inv
      | apply armChannel_inv | apply inv_ite)
    | intro _)

theorem execTrainingDone_inv {p : Fin 4} {pairs : List (List (BitVec 16))} {s : State} (h_s : s.Inv) : RInv
    (execTrainingDone p pairs s) := rinv_next (trainingDone_inv h_s)

theorem trainingTimeout_inv {p : Nat} {s : State} (h_s : s.Inv) : (trainingTimeout p s).Inv := by
  unfold trainingTimeout
  try dsimp only
  repeat' (first
    | with_reducible (first
      | assumption | apply raise_inv | apply portStopGroup_inv | apply inv_ite)
    | intro _)

theorem execTrainingTimeout_inv {p : Fin 4} {s : State} (h_s : s.Inv) : RInv (execTrainingTimeout p s) :=
  rinv_next (trainingTimeout_inv h_s)

theorem issueTrigger_inv {p : Nat} {pos : BitVec 32} {s : State} (h_s : s.Inv) : (issueTrigger p pos s).Inv := by
  unfold issueTrigger
  try dsimp only
  repeat' (first
    | with_reducible (first
      | assumption | apply State.setPort_inv | apply State.emit_inv | apply motionStop_inv | apply inv_ite)
    | intro _)

theorem triggerRequest_inv {p : Nat} {received : Bool} {s : State} (h_s : s.Inv) : (triggerRequest p received s).Inv
    := by
  unfold triggerRequest
  try dsimp only
  repeat' (first
    | with_reducible (first
      | assumption | apply State.setPort_inv | apply refuseTrigger_inv | apply issueTrigger_inv | apply inv_ite)
    | intro _ | split)

theorem execTriggerRequest_inv {p : Fin 4} {received : Bool} {s : State} (h_s : s.Inv) :
    RInv (execTriggerRequest p received s) := rinv_next (triggerRequest_inv h_s)

theorem solTimeout_inv {p : Nat} {s : State} (h_s : s.Inv) : (solTimeout p s).Inv := by
  unfold solTimeout
  try dsimp only
  repeat' (first
    | with_reducible (first
      | assumption | apply State.setPort_inv | apply refuseTrigger_inv | apply inv_ite)
    | intro _ | refine pair_inv ‹_› ?_ | refine opt_inv ‹_› ?_ | refine optp_inv ‹_› ?_ | split)

theorem execSolTimeout_inv {p : Fin 4} {s : State} (h_s : s.Inv) : RInv (execSolTimeout p s) :=
  rinv_next (solTimeout_inv h_s)

theorem syncWithoutTrigger_inv {p : Nat} {received : Bool} {s : State} (h_s : s.Inv) : (syncWithoutTrigger p received
    s).Inv := by
  unfold syncWithoutTrigger
  try dsimp only
  repeat' (first
    | with_reducible (first
      | assumption | apply State.setPort_inv | apply raise_inv | apply inv_ite)
    | intro _)

theorem execSyncWithoutTrigger_inv {p : Fin 4} {received : Bool} {s : State} (h_s : s.Inv) : RInv
    (execSyncWithoutTrigger p received s) := rinv_next (syncWithoutTrigger_inv h_s)

theorem lineStored_inv {p : Nat} {pairs : List (List Bool)} {s : State} (h_s : s.Inv) : (lineStored p pairs s).Inv :=
    by
  unfold lineStored
  try dsimp only
  repeat' (first
    | with_reducible (first
      | assumption | apply State.setPort_inv | apply raise_inv | apply State.writeTen_inv | apply highWater_inv
      | apply inv_ite)
    | intro _ | refine pair_inv ‹_› ?_ | refine opt_inv ‹_› ?_ | refine optp_inv ‹_› ?_ | split)

theorem execLineStored_inv {p : Fin 4} {pairs : List (List Bool)} {s : State} (h_s : s.Inv) : RInv (execLineStored p
    pairs s) := by
  unfold execLineStored
  try dsimp only
  repeat' (first
    | with_reducible (first
      | assumption | apply lineStored_inv | apply rinv_next | apply rinv_fault | apply rinv_ite | apply inv_ite)
    | intro _)

theorem settleExpire_inv {p : Nat} {s : State} (h_s : s.Inv) : (settleExpire p s).Inv := by
  unfold settleExpire
  try dsimp only
  repeat' (first
    | with_reducible (first
      | assumption | apply settleStop_inv | apply runUp_inv | apply inv_ite)
    | intro _)

theorem execSettleExpire_inv {p : Fin 4} {s : State} (h_s : s.Inv) : RInv (execSettleExpire p s) :=
  rinv_next (settleExpire_inv h_s)

theorem execLowWaterReached_inv {p : Fin 4} {s : State} (h_s : s.Inv) : RInv (execLowWaterReached p s) := by
  unfold execLowWaterReached
  try dsimp only
  repeat' (first | with_reducible (first | assumption | apply backUp_inv | apply inv_ite | apply rinv_next) | intro _)

theorem portResume_inv {q : Requester} {p : Nat} {s : State} (h_s : s.Inv) : (portResume q p s).Inv := by
  unfold portResume
  try dsimp only
  repeat' (first | with_reducible (first | assumption | apply State.setPort_inv | apply inv_ite) | intro _)

theorem execPortResume_inv {q : Requester} {p : Fin 4} {s : State} (h_s : s.Inv) : RInv (execPortResume q p s) := by
  unfold execPortResume
  try dsimp only
  repeat' with_reducible (first | assumption | apply regWrite_inv | apply portResume_inv | apply rinv_next)

theorem motionWrite_inv {p : Nat} {on : Bool} {s : State} (h_s : s.Inv) : (motionWrite p on s).Inv := by
  unfold motionWrite
  try dsimp only
  repeat' (first
    | with_reducible (first
      | assumption | apply State.setPort_inv | apply startMotion_inv | apply motionAsked_inv | apply inv_ite)
    | intro _ | split)

theorem execMotionWrite_inv {q : Requester} {p : Fin 4} {on : Bool} {s : State} (h_s : s.Inv) :
    RInv (execMotionWrite q p on s) := by
  unfold execMotionWrite
  try dsimp only
  repeat' with_reducible (first | assumption | apply regWrite_inv | apply motionWrite_inv | apply rinv_next)

theorem rdWrite_inv {q : Requester} {p : Nat} {high : Bool} {v : BitVec 32} {s : State} (h_s : s.Inv) :
    (rdWrite q p high v s).Inv := by
  unfold rdWrite
  try dsimp only
  repeat' (first
    | with_reducible (first
      | assumption | apply State.setPort_inv | apply regError_inv | apply inv_ite)
    | intro _)

theorem execRdWrite_inv {q : Requester} {p : Fin 4} {high : Bool} {v : BitVec 32} {s : State} (h_s : s.Inv) :
    RInv (execRdWrite q p high v s) := by
  unfold execRdWrite
  try dsimp only
  repeat' with_reducible (first | assumption | apply regWrite_inv | apply rdWrite_inv | apply rinv_next)

theorem wrRead_inv {p : Nat} {s : State} (h_s : s.Inv) : PInv (wrRead p s) := by
  unfold wrRead
  try dsimp only
  repeat' with_reducible (first | assumption | apply State.setPort_inv | apply pinv_mk)
theorem execWrRead_inv {q : Requester} {p : Fin 4} {s : State} (h_s : s.Inv) : RInv (execWrRead q p s) := by
  unfold execWrRead
  try dsimp only
  repeat' with_reducible (first | assumption | apply regRead_inv | apply wrRead_inv | apply rinv_next)

theorem errcntRead_inv {p : Nat} {s : State} (h_s : s.Inv) : PInv (errcntRead p s) := by
  unfold errcntRead
  try dsimp only
  repeat' with_reducible (first | assumption | apply State.setPort_inv | apply pinv_mk)
theorem execErrcntRead_inv {q : Requester} {p : Fin 4} {s : State} (h_s : s.Inv) : RInv (execErrcntRead q p s) := by
  unfold execErrcntRead
  try dsimp only
  repeat' with_reducible (first | assumption | apply regRead_inv | apply errcntRead_inv | apply rinv_next)

/-! ## Machine/RegsUnits.lean -/

theorem wbkRead_inv {off : Nat} {s : State} (h_s : s.Inv) : OPInv (wbkRead off s) := by
  unfold wbkRead
  try dsimp only
  repeat' (first
    | with_reducible (first
      | assumption | apply timeRead_inv | apply posErrRead_inv | apply capRead_inv | apply shows_inv
      | apply opinv_none | apply opinv_some | apply opinv_ite)
    | intro _ | split)

theorem wbkWrite_inv {q : Requester} {off : Nat} {v : BitVec 32} {s : State} (h_s : s.Inv) : OInv (wbkWrite q off v s)
    := by
  unfold wbkWrite
  try dsimp only
  repeat' (first
    | with_reducible (first
      | assumption | apply State.setPos_inv | apply State.setChan_inv | apply guardOwned_inv | apply channelCtl_inv
      | apply cmpWrite_inv | apply oinv_none | apply oinv_some | apply oinv_ite)
    | intro _ | split)

theorem tileRead_inv {i off : Nat} {s : State} (h_s : s.Inv) : OPInv (tileRead i off s) := by
  unfold tileRead
  try dsimp only
  repeat' (first
    | with_reducible (first
      | assumption | apply paceLo_inv | apply shows_inv | apply opinv_none | apply opinv_some | apply opinv_ite)
    | intro _)

theorem grdRead_inv {off : Nat} {s : State} (h_s : s.Inv) : OPInv (grdRead off s) := by
  unfold grdRead
  try dsimp only
  repeat' (first
    | with_reducible (first
      | assumption | apply fenceStat_inv | apply shows_inv | apply tileRead_inv | apply opinv_none
      | apply opinv_some | apply opinv_ite)
    | intro _)

theorem tileWrite_inv {q : Requester} {i off : Nat} {v : BitVec 32} {s : State} (h_s : s.Inv) : OInv (tileWrite q i
    off v s) := by
  unfold tileWrite
  try dsimp only
  repeat' (first
    | with_reducible (first
      | assumption | apply State.setTile_inv | apply regError_inv | apply oinv_none | apply opinv_none
      | apply oinv_some | apply oinv_ite | apply oinv_map | apply inv_ite)
    | intro _)

theorem grdWrite_inv {q : Requester} {off : Nat} {v : BitVec 32} {s : State} (h_s : s.Inv) : OInv (grdWrite q off v
    s) := by
  unfold grdWrite
  refine oinv_ite (fun _ => tileWrite_inv h_s) (fun _ => ?_)
  refine oinv_ite (fun _ => oinv_some (chokeWrite_inv h_s)) (fun _ => ?_)
  exact oinv_ite (fun _ => oinv_some (inv_mk h_s.memOk h_s.pwrOk ⟨wdogOk_max v⟩ h_s.schOk h_s.carOk h_s.fltOk)) (fun
      _ => oinv_none)

theorem rolRead_inv {off : Nat} {s : State} (h_s : s.Inv) : OPInv (rolRead off s) := by
  unfold rolRead
  try dsimp only
  repeat' (first
    | with_reducible (first
      | assumption | apply shows_inv | apply wrRead_inv | apply errcntRead_inv | apply opinv_none | apply opinv_some
      | apply opinv_ite)
    | intro _ | split)

theorem rolCtl_inv {q : Requester} {p : Nat} {v : BitVec 32} {s : State} (h_s : s.Inv) : (rolCtl q p v s).Inv := by
  unfold rolCtl
  try dsimp only
  repeat' (first
    | with_reducible (first
      | assumption | apply State.setPort_inv | apply portFields_inv | apply portEnable_inv | apply portDisable_inv
      | apply portResume_inv | apply motionWrite_inv | apply inv_ite)
    | intro _)

theorem rolWrite_inv {q : Requester} {off : Nat} {v : BitVec 32} {s : State} (h_s : s.Inv) : OInv (rolWrite q off v s)
    := by
  unfold rolWrite
  try dsimp only
  repeat' (first
    | with_reducible (first
      | assumption | apply State.setPort_inv | apply rolCtl_inv | apply rdWrite_inv | apply oinv_none
      | apply opinv_none | apply oinv_some | apply oinv_ite | apply oinv_map | apply inv_ite)
    | intro _ | refine pair_inv ‹_› ?_ | refine opt_inv ‹_› ?_ | refine optp_inv ‹_› ?_ | split)

/-! ## Machine/RegsFront.lean -/

theorem inkRead_inv {off : Nat} {s : State} (h_s : s.Inv) : OPInv (inkRead off s) := by
  unfold inkRead
  try dsimp only
  repeat' (first
    | with_reducible (first
      | assumption | apply inkHits_inv | apply shows_inv | apply opinv_none | apply opinv_some | apply opinv_ite)
    | intro _ | split)

theorem inkWrite_inv {q : Requester} {off : Nat} {v : BitVec 32} {s : State} (h_s : s.Inv) : OInv (inkWrite q off v s)
    := by
  unfold inkWrite
  try dsimp only
  repeat' (first
    | with_reducible (first
      | assumption | apply State.setQueue_inv | apply writeQueueCfg_inv | apply oinv_none | apply oinv_some
      | apply oinv_ite)
    | intro _ | split)

theorem tokRead_inv {off : Nat} {s : State} (h_s : s.Inv) : OPInv (tokRead off s) := by
  unfold tokRead
  try dsimp only
  repeat' (first
    | with_reducible (first
      | assumption | apply tokLoads_inv | apply shows_inv | apply opinv_none | apply opinv_some | apply opinv_ite)
    | intro _ | split)

theorem tokCtl_inv {t : Nat} {v : BitVec 32} {s : State} (h_s : s.Inv) : (tokCtl t v s).Inv := by
  unfold tokCtl
  try dsimp only
  repeat' (first
    | with_reducible (first
      | assumption | apply tokLoad_inv | apply gramLoad_inv | apply tokClear_inv | apply gramClear_inv
      | apply inv_ite)
    | intro _)

theorem tokRegWrite_inv {q : Requester} {off : Nat} {v : BitVec 32} {s : State} (h_s : s.Inv) :
    OInv (tokRegWrite q off v s) := by
  unfold tokRegWrite
  try dsimp only
  repeat' (first
    | with_reducible (first
      | assumption | apply State.setTokTen_inv | apply tokWrite_inv | apply tokCtl_inv | apply oinv_none
      | apply oinv_some | apply oinv_ite)
    | intro _ | split)

theorem cymRead_inv {off : Nat} {s : State} (h_s : s.Inv) : OPInv (cymRead off s) := by
  unfold cymRead
  try dsimp only
  repeat' (first
    | with_reducible (first | assumption | apply shows_inv | apply opinv_none | apply opinv_ite) | intro _ | split)

theorem cymCtl_inv {n : Nat} {v : BitVec 32} {s : State} (h_s : s.Inv) : (cymCtl n v s).Inv := by
  unfold cymCtl
  try dsimp only
  repeat' (first
    | with_reducible (first
      | assumption | apply enableStream_inv | apply disableStream_inv | apply restartStream_inv
      | apply keyRequest_inv | apply inv_ite)
    | intro _)

theorem cymWrite_inv {q : Requester} {off : Nat} {v : BitVec 32} {s : State} (h_s : s.Inv) : OInv (cymWrite q off v s)
    := by
  unfold cymWrite
  try dsimp only
  repeat' (first
    | with_reducible (first
      | assumption | apply State.setStream_inv | apply regError_inv | apply cymCtl_inv | apply inv_ite
      | apply oinv_none | apply oinv_some | apply oinv_ite)
    | intro _ | split)

theorem chnRead_inv {off : Nat} {s : State} (h_s : s.Inv) : OPInv (chnRead off s) := by
  unfold chnRead
  try dsimp only
  repeat' (first
    | with_reducible (first
      | assumption | apply arrRead_inv | apply chnStat_inv | apply linkStat_inv | apply crcCount_inv
      | apply shows_inv | apply opinv_none | apply opinv_some | apply opinv_ite)
    | intro _ | split)

theorem chnWrite_inv {q : Requester} {off : Nat} {v : BitVec 32} {s : State} (h_s : s.Inv) : OInv (chnWrite q off v s)
    := by
  unfold chnWrite
  try dsimp only
  repeat' (first
    | with_reducible (first
      | assumption | apply chnCtlWrite_inv | apply oinv_none | apply oinv_some)
    | split | with_reducible apply inv_keep)

theorem fltRead_inv {off : Nat} {s : State} (h_s : s.Inv) : OPInv (fltRead off s) := by
  unfold fltRead
  try dsimp only
  repeat' (first
    | with_reducible (first
      | assumption | apply regerrCount_inv | apply shows_inv | apply opinv_none | apply opinv_some
      | apply opinv_ite)
    | intro _ | split)

theorem fltWrite_inv {q : Requester} {off : Nat} {v : BitVec 32} {s : State} (h_s : s.Inv) : OInv (fltWrite q off v
    s) := by
  unfold fltWrite
  split
  · exact oinv_some (fltCtl_inv h_s)
  · exact oinv_some (inv_mk h_s.memOk h_s.pwrOk h_s.grdOk h_s.schOk h_s.carOk ⟨⟨orOne_ne (by decide) _⟩⟩)
  · exact oinv_some (fwCtl_inv h_s)
  · exact oinv_some (inv_mk h_s.memOk h_s.pwrOk h_s.grdOk h_s.schOk h_s.carOk h_s.fltOk)
  · exact oinv_some (fwData_inv h_s)
  · exact oinv_none

theorem ringRead_inv {t r off : Nat} {s : State} (h_s : s.Inv) : OPInv (ringRead t r off s) := by
  unfold ringRead
  try dsimp only
  repeat' (first | with_reducible (first | assumption | apply shows_inv | apply opinv_none) | split)

theorem tpgRead_inv {t off : Nat} {s : State} (h_s : s.Inv) : OPInv (tpgRead t off s) := by
  unfold tpgRead
  try dsimp only
  repeat' (first
    | with_reducible (first
      | assumption | apply shows_inv | apply ringRead_inv | apply opinv_none | apply opinv_ite)
    | intro _ | split)

theorem ringCtlWrite_inv {q : Requester} {t r : Nat} {v : BitVec 32} {s : State} (h_s : s.Inv) :
    (ringCtlWrite q t r v s).Inv := by
  unfold ringCtlWrite
  try dsimp only
  repeat' (first
    | with_reducible (first
      | assumption | apply State.setRing_inv | apply enableRing_inv | apply disableRing_inv | apply regError_inv
      | apply inv_ite)
    | intro _)

theorem baseLocked_inv {q : Requester} {t r off : Nat} {f : Ring → Ring} {s : State} (h_s : s.Inv) :
    (baseLocked q t r off f s).Inv := by
  unfold baseLocked
  try dsimp only
  repeat' (first
    | with_reducible (first
      | assumption | apply State.setRing_inv | apply regError_inv | apply inv_ite)
    | intro _)

theorem ringWrite_inv {q : Requester} {t r off : Nat} {v : BitVec 32} {s : State} (h_s : s.Inv) :
    OInv (ringWrite q t r off v s) := by
  unfold ringWrite
  try dsimp only
  repeat' (first
    | with_reducible (first
      | assumption | apply ringCtlWrite_inv | apply baseLocked_inv | apply oinv_none | apply oinv_some)
    | split)

theorem msixWrite_inv {t w : Nat} {v : BitVec 32} {s : State} (h_s : s.Inv) : (msixWrite t w v s).Inv := by
  unfold msixWrite
  try dsimp only
  repeat' with_reducible (first | assumption | apply State.setFunc_inv)

theorem tpgWrite_inv {q : Requester} {t off : Nat} {v : BitVec 32} {s : State} (h_s : s.Inv) :
    OInv (tpgWrite q t off v s) := by
  unfold tpgWrite
  try dsimp only
  repeat' (first
    | with_reducible (first
      | assumption | apply State.setTenant_inv | apply writePoll_inv | apply coalWrite_inv | apply ringWrite_inv
      | apply msixWrite_inv | apply oinv_none | apply oinv_some | apply oinv_ite)
    | intro _ | split)

/-! ## Machine/Registers.lean -/

theorem blockRead_inv {q : Requester} {off : Nat} {s : State} (h_s : s.Inv) : OPInv (blockRead q off s) := by
  unfold blockRead
  try dsimp only
  repeat' (first
    | with_reducible (first
      | assumption | apply pwrRead_inv | apply clkRead_inv | apply hifRead_inv | apply tenRead_inv
      | apply gngRead_inv | apply carRead_inv | apply memRead_inv | apply schRead_inv | apply wbkRead_inv
      | apply grdRead_inv | apply rolRead_inv | apply inkRead_inv | apply tokRead_inv | apply cymRead_inv
      | apply chnRead_inv | apply fltRead_inv | apply pinv_mk | apply opinv_none | apply opinv_map)
    | intro _ | split)

theorem blockWrite_inv {q : Requester} {off : Nat} {v : BitVec 32} {s : State} (h_s : s.Inv) :
    OInv (blockWrite q off v s) := by
  unfold blockWrite
  try dsimp only
  repeat' (first
    | with_reducible (first
      | assumption | apply brdWrite_inv | apply pwrWrite_inv | apply clkWrite_inv | apply tenWrite_inv
      | apply carWrite_inv | apply memWrite_inv | apply schWrite_inv | apply wbkWrite_inv | apply grdWrite_inv
      | apply rolWrite_inv | apply inkWrite_inv | apply tokRegWrite_inv | apply cymWrite_inv | apply chnWrite_inv
      | apply fltWrite_inv | apply oinv_none)
    | split)

theorem addrRead_inv {q : Requester} {a : RegAddr} {s : State} (h_s : s.Inv) : OPInv (addrRead q a s) := by
  unfold addrRead
  try dsimp only
  repeat' (first | with_reducible (first | assumption | apply tpgRead_inv | apply blockRead_inv) | split)

theorem addrWrite_inv {q : Requester} {a : RegAddr} {v : BitVec 32} {s : State} (h_s : s.Inv) :
    OInv (addrWrite q a v s) := by
  unfold addrWrite
  try dsimp only
  repeat' (first | with_reducible (first | assumption | apply tpgWrite_inv | apply blockWrite_inv) | split)

theorem read32_inv {q : Requester} {a : RegAddr} {s : State} (h_s : s.Inv) : PInv (read32 q a s) := opinv_getD
    (addrRead_inv h_s) h_s
theorem write32_inv {q : Requester} {a : RegAddr} {v : BitVec 32} {s : State} (h_s : s.Inv) : (write32 q a v s).Inv := by
  unfold write32
  try dsimp only
  repeat' (first
    | with_reducible (first
      | assumption | apply regError_inv | apply addrWrite_inv | apply inv_ite)
    | intro _ | refine opt_inv ‹_› ?_ | split)

theorem regWrite32_inv {q : Requester} {a : RegAddr} {be : Nat} {v : BitVec 32} {s : State} (h_s : s.Inv) :
    (regWrite32 q a be v s).Inv := by
  unfold regWrite32
  try dsimp only
  repeat' (first
    | with_reducible (first
      | assumption | apply regError_inv | apply regWriteOr_inv | apply write32_inv | apply inv_ite)
    | intro _)

theorem barWrite_inv {q : Requester} {addr size be : Nat} {data : BitVec 64} {s : State} (h_s : s.Inv) : (barWrite q
    addr size be data s).Inv := by
  unfold barWrite
  try dsimp only
  repeat' (first
    | with_reducible (first
      | assumption | apply regError_inv | apply regWriteOr_inv | apply regWrite32_inv | apply inv_ite)
    | intro _ | refine pair_inv ‹_› ?_ | refine opt_inv ‹_› ?_ | refine optp_inv ‹_› ?_ | split)

theorem barRead_inv {q : Requester} {addr size : Nat} {s : State} (h_s : s.Inv) : (barRead q addr size s).Inv := by
  unfold barRead
  try dsimp only
  repeat' (first
    | with_reducible (first
      | assumption | apply regError_inv | apply regRead_inv | apply read32_inv | apply inv_ite | apply pinv_mk)
    | intro _ | split | with_reducible apply inv_keep)

theorem vfWrite_inv {f : CfgField} {v : BitVec 64} {s : State} (h_s : s.Inv) : (vfWrite f v s).Inv := by
  unfold vfWrite
  try dsimp only
  repeat' (first
    | with_reducible (first
      | assumption | apply numvfsWrite_inv | apply inv_ite)
    | intro _ | refine pair_inv ‹_› ?_ | refine opt_inv ‹_› ?_ | refine optp_inv ‹_› ?_ | split)

theorem barWriteCfg_inv {f : CfgField} {v : BitVec 64} {s : State} (h_s : s.Inv) : (barWriteCfg f v s).Inv := by
  unfold barWriteCfg
  try dsimp only
  repeat' (first
    | with_reducible (first
      | assumption | apply State.setFunc_inv | apply inv_ite)
    | intro _ | refine pair_inv ‹_› ?_ | refine opt_inv ‹_› ?_ | refine optp_inv ‹_› ?_ | split
    | with_reducible apply inv_keep)

theorem cfgWrite_inv {t : Nat} {f : CfgField} {v : BitVec 64} {s : State} (h_s : s.Inv) : (cfgWrite t f v s).Inv := by
  unfold cfgWrite
  try dsimp only
  repeat' (first
    | with_reducible (first
      | assumption | apply State.setFunc_inv | apply vfWrite_inv | apply barWriteCfg_inv | apply bmeClear_inv
      | apply bmeSet_inv | apply inv_ite)
    | intro _ | refine pair_inv ‹_› ?_ | refine opt_inv ‹_› ?_ | refine optp_inv ‹_› ?_ | split
    | with_reducible apply inv_keep)

theorem anyWrite_inv {q : Requester} {sp : Space} {addr size be : Nat} {data : BitVec 64} {s : State} (h_s : s.Inv) :
    (anyWrite q sp addr size be data s).Inv := by
  unfold anyWrite
  try dsimp only
  repeat' (first
    | with_reducible (first
      | assumption | apply barWrite_inv | apply cfgWrite_inv | apply inv_ite)
    | intro _ | refine pair_inv ‹_› ?_ | refine opt_inv ‹_› ?_ | refine optp_inv ‹_› ?_ | split)

theorem execRegisterWrite_inv {q : Requester} {sp : Space} {addr size be : Nat} {data : BitVec 64} {s : State}
    (h_s : s.Inv) : RInv (execRegisterWrite q sp addr size be data s) := by
  unfold execRegisterWrite
  try dsimp only
  repeat' (first
    | with_reducible (first
      | assumption | apply anyWrite_inv | apply rinv_next | apply rinv_ite | apply rinv_fault)
    | intro _)

theorem anyRead_inv {q : Requester} {sp : Space} {addr size : Nat} {s : State} (h_s : s.Inv) :
    (anyRead q sp addr size s).Inv := by
  unfold anyRead
  try dsimp only
  repeat' (first | with_reducible (first | assumption | apply barRead_inv) | split | with_reducible apply inv_keep)

theorem execRegisterRead_inv {q : Requester} {sp : Space} {addr size be0 : Nat} {s : State} (h_s : s.Inv) :
    RInv (execRegisterRead q sp addr size be0 s) := by
  unfold execRegisterRead
  try dsimp only
  repeat' (first
    | with_reducible (first
      | assumption | apply anyRead_inv | apply rinv_next | apply rinv_ite | apply rinv_fault)
    | intro _)

end Sys2Proof.Machine
end

