-- ==== Sys2Proof/Laws/InvTile.lean ====
section
/-!
SUPPORT. Each operation keeps the invariant: the instructions of a tile.
-/
namespace Sys2Proof.Machine

/-! ## Machine/TileMatrix.lean -/

theorem execWld_inv {i : Fin 1024} {s : State} (h_s : s.Inv) : RInv (execWld i s) := rinv_next (tileRun_inv h_s)

theorem execMma_inv {i : Fin 1024} {s : State} (h_s : s.Inv) : RInv (execMma i s) := rinv_next (tileRun_inv h_s)

theorem execOma_inv {i : Fin 1024} {s : State} (h_s : s.Inv) : RInv (execOma i s) := rinv_next (tileRun_inv h_s)

theorem execAzr_inv {i : Fin 1024} {s : State} (h_s : s.Inv) : RInv (execAzr i s) := rinv_next (tileRun_inv h_s)

theorem execAld_inv {i : Fin 1024} {s : State} (h_s : s.Inv) : RInv (execAld i s) := rinv_next (tileRun_inv h_s)

theorem execAst_inv {i : Fin 1024} {s : State} (h_s : s.Inv) : RInv (execAst i s) := rinv_next (tileRun_inv h_s)

theorem execQnt_inv {i : Fin 1024} {s : State} (h_s : s.Inv) : RInv (execQnt i s) := rinv_next (tileRun_inv h_s)

/-! ## Machine/TileScalar.lean -/

theorem execAdd_inv {i : Fin 1024} {s : State} (h_s : s.Inv) : RInv (execAdd i s) := rinv_next (tileRun_inv h_s)

theorem execSub_inv {i : Fin 1024} {s : State} (h_s : s.Inv) : RInv (execSub i s) := rinv_next (tileRun_inv h_s)

theorem execAnd_inv {i : Fin 1024} {s : State} (h_s : s.Inv) : RInv (execAnd i s) := rinv_next (tileRun_inv h_s)

theorem execOr_inv {i : Fin 1024} {s : State} (h_s : s.Inv) : RInv (execOr i s) := rinv_next (tileRun_inv h_s)

theorem execXor_inv {i : Fin 1024} {s : State} (h_s : s.Inv) : RInv (execXor i s) := rinv_next (tileRun_inv h_s)

theorem execSll_inv {i : Fin 1024} {s : State} (h_s : s.Inv) : RInv (execSll i s) := rinv_next (tileRun_inv h_s)

theorem execSrl_inv {i : Fin 1024} {s : State} (h_s : s.Inv) : RInv (execSrl i s) := rinv_next (tileRun_inv h_s)

theorem execSra_inv {i : Fin 1024} {s : State} (h_s : s.Inv) : RInv (execSra i s) := rinv_next (tileRun_inv h_s)

theorem execMul_inv {i : Fin 1024} {s : State} (h_s : s.Inv) : RInv (execMul i s) := rinv_next (tileRun_inv h_s)

theorem execSlt_inv {i : Fin 1024} {s : State} (h_s : s.Inv) : RInv (execSlt i s) := rinv_next (tileRun_inv h_s)

theorem execSltu_inv {i : Fin 1024} {s : State} (h_s : s.Inv) : RInv (execSltu i s) := rinv_next (tileRun_inv h_s)

theorem execAddi_inv {i : Fin 1024} {s : State} (h_s : s.Inv) : RInv (execAddi i s) := rinv_next (tileRun_inv h_s)

theorem execAndi_inv {i : Fin 1024} {s : State} (h_s : s.Inv) : RInv (execAndi i s) := rinv_next (tileRun_inv h_s)

theorem execOri_inv {i : Fin 1024} {s : State} (h_s : s.Inv) : RInv (execOri i s) := rinv_next (tileRun_inv h_s)

theorem execXori_inv {i : Fin 1024} {s : State} (h_s : s.Inv) : RInv (execXori i s) := rinv_next (tileRun_inv h_s)

theorem execSlli_inv {i : Fin 1024} {s : State} (h_s : s.Inv) : RInv (execSlli i s) := rinv_next (tileRun_inv h_s)

theorem execSrli_inv {i : Fin 1024} {s : State} (h_s : s.Inv) : RInv (execSrli i s) := rinv_next (tileRun_inv h_s)

theorem execSrai_inv {i : Fin 1024} {s : State} (h_s : s.Inv) : RInv (execSrai i s) := rinv_next (tileRun_inv h_s)

theorem execLui_inv {i : Fin 1024} {s : State} (h_s : s.Inv) : RInv (execLui i s) := rinv_next (tileRun_inv h_s)

theorem execLdn_inv {i : Fin 1024} {s : State} (h_s : s.Inv) : RInv (execLdn i s) := rinv_next (tileRun_inv h_s)

theorem execLdnu_inv {i : Fin 1024} {s : State} (h_s : s.Inv) : RInv (execLdnu i s) := rinv_next (tileRun_inv h_s)

theorem execLdw_inv {i : Fin 1024} {s : State} (h_s : s.Inv) : RInv (execLdw i s) := rinv_next (tileRun_inv h_s)

theorem execStn_inv {i : Fin 1024} {s : State} (h_s : s.Inv) : RInv (execStn i s) := rinv_next (tileRun_inv h_s)

theorem execStw_inv {i : Fin 1024} {s : State} (h_s : s.Inv) : RInv (execStw i s) := rinv_next (tileRun_inv h_s)

theorem execBeq_inv {i : Fin 1024} {s : State} (h_s : s.Inv) : RInv (execBeq i s) := rinv_next (tileRun_inv h_s)

theorem execBne_inv {i : Fin 1024} {s : State} (h_s : s.Inv) : RInv (execBne i s) := rinv_next (tileRun_inv h_s)

theorem execBlt_inv {i : Fin 1024} {s : State} (h_s : s.Inv) : RInv (execBlt i s) := rinv_next (tileRun_inv h_s)

theorem execBge_inv {i : Fin 1024} {s : State} (h_s : s.Inv) : RInv (execBge i s) := rinv_next (tileRun_inv h_s)

theorem execBltu_inv {i : Fin 1024} {s : State} (h_s : s.Inv) : RInv (execBltu i s) := rinv_next (tileRun_inv h_s)

theorem execBgeu_inv {i : Fin 1024} {s : State} (h_s : s.Inv) : RInv (execBgeu i s) := rinv_next (tileRun_inv h_s)

theorem execJal_inv {i : Fin 1024} {s : State} (h_s : s.Inv) : RInv (execJal i s) := rinv_next (tileRun_inv h_s)

theorem execJr_inv {i : Fin 1024} {s : State} (h_s : s.Inv) : RInv (execJr i s) := rinv_next (tileRun_inv h_s)

theorem execNopTile_inv {i : Fin 1024} {s : State} (h_s : s.Inv) : RInv (execNopTile i s) :=
  rinv_next (tileRun_inv h_s)

theorem execIllegalOpcode_inv {i : Fin 1024} {s : State} (h_s : s.Inv) : RInv (execIllegalOpcode i s) :=
  rinv_next (tileRun_inv h_s)

/-! ## Machine/TileVector.lean -/

theorem execVld_inv {i : Fin 1024} {s : State} (h_s : s.Inv) : RInv (execVld i s) := rinv_next (tileRun_inv h_s)

theorem execVst_inv {i : Fin 1024} {s : State} (h_s : s.Inv) : RInv (execVst i s) := rinv_next (tileRun_inv h_s)

theorem execVadd_inv {i : Fin 1024} {s : State} (h_s : s.Inv) : RInv (execVadd i s) := rinv_next (tileRun_inv h_s)

theorem execVsub_inv {i : Fin 1024} {s : State} (h_s : s.Inv) : RInv (execVsub i s) := rinv_next (tileRun_inv h_s)

theorem execVmul_inv {i : Fin 1024} {s : State} (h_s : s.Inv) : RInv (execVmul i s) := rinv_next (tileRun_inv h_s)

theorem execVmax_inv {i : Fin 1024} {s : State} (h_s : s.Inv) : RInv (execVmax i s) := rinv_next (tileRun_inv h_s)

theorem execVmin_inv {i : Fin 1024} {s : State} (h_s : s.Inv) : RInv (execVmin i s) := rinv_next (tileRun_inv h_s)

theorem execVbc_inv {i : Fin 1024} {s : State} (h_s : s.Inv) : RInv (execVbc i s) := rinv_next (tileRun_inv h_s)

theorem execVred_inv {i : Fin 1024} {s : State} (h_s : s.Inv) : RInv (execVred i s) := rinv_next (tileRun_inv h_s)

theorem execVmsk_inv {i : Fin 1024} {s : State} (h_s : s.Inv) : RInv (execVmsk i s) := rinv_next (tileRun_inv h_s)

theorem execVcvt_inv {i : Fin 1024} {s : State} (h_s : s.Inv) : RInv (execVcvt i s) := rinv_next (tileRun_inv h_s)

end Sys2Proof.Machine
end

