-- ==== Sys2Proof/Laws/State.lean ====
section
/-!
SUPPORT. One lemma for each field that an update of a table leaves alone, and the reads after a write, so that no proof
unfolds a record update.
-/
namespace Sys2Proof.Machine

variable (s : State)

@[simp] theorem State.setFunc_pending (t : Nat) (x : Func) : (s.setFunc t x).pending = s.pending := rfl
@[simp] theorem State.setFunc_now (t : Nat) (x : Func) : (s.setFunc t x).now = s.now := rfl
@[simp] theorem State.setFunc_free (t : Nat) (x : Func) : (s.setFunc t x).free = s.free := rfl
@[simp] theorem State.setFunc_out (t : Nat) (x : Func) : (s.setFunc t x).out = s.out := rfl
@[simp] theorem State.setFunc_rdata (t : Nat) (x : Func) : (s.setFunc t x).rdata = s.rdata := rfl
@[simp] theorem State.setFunc_brd (t : Nat) (x : Func) : (s.setFunc t x).brd = s.brd := rfl
@[simp] theorem State.setFunc_pwr (t : Nat) (x : Func) : (s.setFunc t x).pwr = s.pwr := rfl
@[simp] theorem State.setFunc_boot (t : Nat) (x : Func) : (s.setFunc t x).boot = s.boot := rfl
@[simp] theorem State.setFunc_clk (t : Nat) (x : Func) : (s.setFunc t x).clk = s.clk := rfl
@[simp] theorem State.setFunc_ten (t : Nat) (x : Func) : (s.setFunc t x).ten = s.ten := rfl
@[simp] theorem State.setFunc_rings (t : Nat) (x : Func) : (s.setFunc t x).rings = s.rings := rfl
@[simp] theorem State.setFunc_gng (t : Nat) (x : Func) : (s.setFunc t x).gng = s.gng := rfl
@[simp] theorem State.setFunc_car (t : Nat) (x : Func) : (s.setFunc t x).car = s.car := rfl
@[simp] theorem State.setFunc_wbk (t : Nat) (x : Func) : (s.setFunc t x).wbk = s.wbk := rfl
@[simp] theorem State.setFunc_mem (t : Nat) (x : Func) : (s.setFunc t x).mem = s.mem := rfl
@[simp] theorem State.setFunc_sch (t : Nat) (x : Func) : (s.setFunc t x).sch = s.sch := rfl
@[simp] theorem State.setFunc_grd (t : Nat) (x : Func) : (s.setFunc t x).grd = s.grd := rfl
@[simp] theorem State.setFunc_rol (t : Nat) (x : Func) : (s.setFunc t x).rol = s.rol := rfl
@[simp] theorem State.setFunc_ink (t : Nat) (x : Func) : (s.setFunc t x).ink = s.ink := rfl
@[simp] theorem State.setFunc_tok (t : Nat) (x : Func) : (s.setFunc t x).tok = s.tok := rfl
@[simp] theorem State.setFunc_cym (t : Nat) (x : Func) : (s.setFunc t x).cym = s.cym := rfl
@[simp] theorem State.setFunc_chn (t : Nat) (x : Func) : (s.setFunc t x).chn = s.chn := rfl
@[simp] theorem State.setFunc_flt (t : Nat) (x : Func) : (s.setFunc t x).flt = s.flt := rfl

@[simp] theorem State.setTenant_pending (t : Nat) (x : Tenant) : (s.setTenant t x).pending = s.pending := rfl
@[simp] theorem State.setTenant_now (t : Nat) (x : Tenant) : (s.setTenant t x).now = s.now := rfl
@[simp] theorem State.setTenant_free (t : Nat) (x : Tenant) : (s.setTenant t x).free = s.free := rfl
@[simp] theorem State.setTenant_out (t : Nat) (x : Tenant) : (s.setTenant t x).out = s.out := rfl
@[simp] theorem State.setTenant_rdata (t : Nat) (x : Tenant) : (s.setTenant t x).rdata = s.rdata := rfl
@[simp] theorem State.setTenant_brd (t : Nat) (x : Tenant) : (s.setTenant t x).brd = s.brd := rfl
@[simp] theorem State.setTenant_pwr (t : Nat) (x : Tenant) : (s.setTenant t x).pwr = s.pwr := rfl
@[simp] theorem State.setTenant_boot (t : Nat) (x : Tenant) : (s.setTenant t x).boot = s.boot := rfl
@[simp] theorem State.setTenant_clk (t : Nat) (x : Tenant) : (s.setTenant t x).clk = s.clk := rfl
@[simp] theorem State.setTenant_hif (t : Nat) (x : Tenant) : (s.setTenant t x).hif = s.hif := rfl
@[simp] theorem State.setTenant_rings (t : Nat) (x : Tenant) : (s.setTenant t x).rings = s.rings := rfl
@[simp] theorem State.setTenant_gng (t : Nat) (x : Tenant) : (s.setTenant t x).gng = s.gng := rfl
@[simp] theorem State.setTenant_car (t : Nat) (x : Tenant) : (s.setTenant t x).car = s.car := rfl
@[simp] theorem State.setTenant_wbk (t : Nat) (x : Tenant) : (s.setTenant t x).wbk = s.wbk := rfl
@[simp] theorem State.setTenant_mem (t : Nat) (x : Tenant) : (s.setTenant t x).mem = s.mem := rfl
@[simp] theorem State.setTenant_sch (t : Nat) (x : Tenant) : (s.setTenant t x).sch = s.sch := rfl
@[simp] theorem State.setTenant_grd (t : Nat) (x : Tenant) : (s.setTenant t x).grd = s.grd := rfl
@[simp] theorem State.setTenant_rol (t : Nat) (x : Tenant) : (s.setTenant t x).rol = s.rol := rfl
@[simp] theorem State.setTenant_ink (t : Nat) (x : Tenant) : (s.setTenant t x).ink = s.ink := rfl
@[simp] theorem State.setTenant_tok (t : Nat) (x : Tenant) : (s.setTenant t x).tok = s.tok := rfl
@[simp] theorem State.setTenant_cym (t : Nat) (x : Tenant) : (s.setTenant t x).cym = s.cym := rfl
@[simp] theorem State.setTenant_chn (t : Nat) (x : Tenant) : (s.setTenant t x).chn = s.chn := rfl
@[simp] theorem State.setTenant_flt (t : Nat) (x : Tenant) : (s.setTenant t x).flt = s.flt := rfl

@[simp] theorem State.setMap_pending (i : Nat) (x : MapEntry) : (s.setMap i x).pending = s.pending := rfl
@[simp] theorem State.setMap_now (i : Nat) (x : MapEntry) : (s.setMap i x).now = s.now := rfl
@[simp] theorem State.setMap_free (i : Nat) (x : MapEntry) : (s.setMap i x).free = s.free := rfl
@[simp] theorem State.setMap_out (i : Nat) (x : MapEntry) : (s.setMap i x).out = s.out := rfl
@[simp] theorem State.setMap_rdata (i : Nat) (x : MapEntry) : (s.setMap i x).rdata = s.rdata := rfl
@[simp] theorem State.setMap_brd (i : Nat) (x : MapEntry) : (s.setMap i x).brd = s.brd := rfl
@[simp] theorem State.setMap_pwr (i : Nat) (x : MapEntry) : (s.setMap i x).pwr = s.pwr := rfl
@[simp] theorem State.setMap_boot (i : Nat) (x : MapEntry) : (s.setMap i x).boot = s.boot := rfl
@[simp] theorem State.setMap_clk (i : Nat) (x : MapEntry) : (s.setMap i x).clk = s.clk := rfl
@[simp] theorem State.setMap_hif (i : Nat) (x : MapEntry) : (s.setMap i x).hif = s.hif := rfl
@[simp] theorem State.setMap_rings (i : Nat) (x : MapEntry) : (s.setMap i x).rings = s.rings := rfl
@[simp] theorem State.setMap_gng (i : Nat) (x : MapEntry) : (s.setMap i x).gng = s.gng := rfl
@[simp] theorem State.setMap_car (i : Nat) (x : MapEntry) : (s.setMap i x).car = s.car := rfl
@[simp] theorem State.setMap_wbk (i : Nat) (x : MapEntry) : (s.setMap i x).wbk = s.wbk := rfl
@[simp] theorem State.setMap_mem (i : Nat) (x : MapEntry) : (s.setMap i x).mem = s.mem := rfl
@[simp] theorem State.setMap_sch (i : Nat) (x : MapEntry) : (s.setMap i x).sch = s.sch := rfl
@[simp] theorem State.setMap_grd (i : Nat) (x : MapEntry) : (s.setMap i x).grd = s.grd := rfl
@[simp] theorem State.setMap_rol (i : Nat) (x : MapEntry) : (s.setMap i x).rol = s.rol := rfl
@[simp] theorem State.setMap_ink (i : Nat) (x : MapEntry) : (s.setMap i x).ink = s.ink := rfl
@[simp] theorem State.setMap_tok (i : Nat) (x : MapEntry) : (s.setMap i x).tok = s.tok := rfl
@[simp] theorem State.setMap_cym (i : Nat) (x : MapEntry) : (s.setMap i x).cym = s.cym := rfl
@[simp] theorem State.setMap_chn (i : Nat) (x : MapEntry) : (s.setMap i x).chn = s.chn := rfl
@[simp] theorem State.setMap_flt (i : Nat) (x : MapEntry) : (s.setMap i x).flt = s.flt := rfl

@[simp] theorem State.setRing_pending (t r : Nat) (x : Ring) : (s.setRing t r x).pending = s.pending := rfl
@[simp] theorem State.setRing_now (t r : Nat) (x : Ring) : (s.setRing t r x).now = s.now := rfl
@[simp] theorem State.setRing_free (t r : Nat) (x : Ring) : (s.setRing t r x).free = s.free := rfl
@[simp] theorem State.setRing_out (t r : Nat) (x : Ring) : (s.setRing t r x).out = s.out := rfl
@[simp] theorem State.setRing_rdata (t r : Nat) (x : Ring) : (s.setRing t r x).rdata = s.rdata := rfl
@[simp] theorem State.setRing_brd (t r : Nat) (x : Ring) : (s.setRing t r x).brd = s.brd := rfl
@[simp] theorem State.setRing_pwr (t r : Nat) (x : Ring) : (s.setRing t r x).pwr = s.pwr := rfl
@[simp] theorem State.setRing_boot (t r : Nat) (x : Ring) : (s.setRing t r x).boot = s.boot := rfl
@[simp] theorem State.setRing_clk (t r : Nat) (x : Ring) : (s.setRing t r x).clk = s.clk := rfl
@[simp] theorem State.setRing_hif (t r : Nat) (x : Ring) : (s.setRing t r x).hif = s.hif := rfl
@[simp] theorem State.setRing_ten (t r : Nat) (x : Ring) : (s.setRing t r x).ten = s.ten := rfl
@[simp] theorem State.setRing_gng (t r : Nat) (x : Ring) : (s.setRing t r x).gng = s.gng := rfl
@[simp] theorem State.setRing_car (t r : Nat) (x : Ring) : (s.setRing t r x).car = s.car := rfl
@[simp] theorem State.setRing_wbk (t r : Nat) (x : Ring) : (s.setRing t r x).wbk = s.wbk := rfl
@[simp] theorem State.setRing_mem (t r : Nat) (x : Ring) : (s.setRing t r x).mem = s.mem := rfl
@[simp] theorem State.setRing_sch (t r : Nat) (x : Ring) : (s.setRing t r x).sch = s.sch := rfl
@[simp] theorem State.setRing_grd (t r : Nat) (x : Ring) : (s.setRing t r x).grd = s.grd := rfl
@[simp] theorem State.setRing_rol (t r : Nat) (x : Ring) : (s.setRing t r x).rol = s.rol := rfl
@[simp] theorem State.setRing_ink (t r : Nat) (x : Ring) : (s.setRing t r x).ink = s.ink := rfl
@[simp] theorem State.setRing_tok (t r : Nat) (x : Ring) : (s.setRing t r x).tok = s.tok := rfl
@[simp] theorem State.setRing_cym (t r : Nat) (x : Ring) : (s.setRing t r x).cym = s.cym := rfl
@[simp] theorem State.setRing_chn (t r : Nat) (x : Ring) : (s.setRing t r x).chn = s.chn := rfl
@[simp] theorem State.setRing_flt (t r : Nat) (x : Ring) : (s.setRing t r x).flt = s.flt := rfl

@[simp] theorem State.setSrc_pending (n : Nat) (x : Src) : (s.setSrc n x).pending = s.pending := rfl
@[simp] theorem State.setSrc_now (n : Nat) (x : Src) : (s.setSrc n x).now = s.now := rfl
@[simp] theorem State.setSrc_free (n : Nat) (x : Src) : (s.setSrc n x).free = s.free := rfl
@[simp] theorem State.setSrc_out (n : Nat) (x : Src) : (s.setSrc n x).out = s.out := rfl
@[simp] theorem State.setSrc_rdata (n : Nat) (x : Src) : (s.setSrc n x).rdata = s.rdata := rfl
@[simp] theorem State.setSrc_brd (n : Nat) (x : Src) : (s.setSrc n x).brd = s.brd := rfl
@[simp] theorem State.setSrc_pwr (n : Nat) (x : Src) : (s.setSrc n x).pwr = s.pwr := rfl
@[simp] theorem State.setSrc_boot (n : Nat) (x : Src) : (s.setSrc n x).boot = s.boot := rfl
@[simp] theorem State.setSrc_clk (n : Nat) (x : Src) : (s.setSrc n x).clk = s.clk := rfl
@[simp] theorem State.setSrc_hif (n : Nat) (x : Src) : (s.setSrc n x).hif = s.hif := rfl
@[simp] theorem State.setSrc_ten (n : Nat) (x : Src) : (s.setSrc n x).ten = s.ten := rfl
@[simp] theorem State.setSrc_rings (n : Nat) (x : Src) : (s.setSrc n x).rings = s.rings := rfl
@[simp] theorem State.setSrc_gng (n : Nat) (x : Src) : (s.setSrc n x).gng = s.gng := rfl
@[simp] theorem State.setSrc_wbk (n : Nat) (x : Src) : (s.setSrc n x).wbk = s.wbk := rfl
@[simp] theorem State.setSrc_mem (n : Nat) (x : Src) : (s.setSrc n x).mem = s.mem := rfl
@[simp] theorem State.setSrc_sch (n : Nat) (x : Src) : (s.setSrc n x).sch = s.sch := rfl
@[simp] theorem State.setSrc_grd (n : Nat) (x : Src) : (s.setSrc n x).grd = s.grd := rfl
@[simp] theorem State.setSrc_rol (n : Nat) (x : Src) : (s.setSrc n x).rol = s.rol := rfl
@[simp] theorem State.setSrc_ink (n : Nat) (x : Src) : (s.setSrc n x).ink = s.ink := rfl
@[simp] theorem State.setSrc_tok (n : Nat) (x : Src) : (s.setSrc n x).tok = s.tok := rfl
@[simp] theorem State.setSrc_cym (n : Nat) (x : Src) : (s.setSrc n x).cym = s.cym := rfl
@[simp] theorem State.setSrc_chn (n : Nat) (x : Src) : (s.setSrc n x).chn = s.chn := rfl
@[simp] theorem State.setSrc_flt (n : Nat) (x : Src) : (s.setSrc n x).flt = s.flt := rfl

@[simp] theorem State.setClaimed_pending (c : Nat) (x : List (Nat × Nat)) : (s.setClaimed c x).pending = s.pending := rfl
@[simp] theorem State.setClaimed_now (c : Nat) (x : List (Nat × Nat)) : (s.setClaimed c x).now = s.now := rfl
@[simp] theorem State.setClaimed_free (c : Nat) (x : List (Nat × Nat)) : (s.setClaimed c x).free = s.free := rfl
@[simp] theorem State.setClaimed_out (c : Nat) (x : List (Nat × Nat)) : (s.setClaimed c x).out = s.out := rfl
@[simp] theorem State.setClaimed_rdata (c : Nat) (x : List (Nat × Nat)) : (s.setClaimed c x).rdata = s.rdata := rfl
@[simp] theorem State.setClaimed_brd (c : Nat) (x : List (Nat × Nat)) : (s.setClaimed c x).brd = s.brd := rfl
@[simp] theorem State.setClaimed_pwr (c : Nat) (x : List (Nat × Nat)) : (s.setClaimed c x).pwr = s.pwr := rfl
@[simp] theorem State.setClaimed_boot (c : Nat) (x : List (Nat × Nat)) : (s.setClaimed c x).boot = s.boot := rfl
@[simp] theorem State.setClaimed_clk (c : Nat) (x : List (Nat × Nat)) : (s.setClaimed c x).clk = s.clk := rfl
@[simp] theorem State.setClaimed_hif (c : Nat) (x : List (Nat × Nat)) : (s.setClaimed c x).hif = s.hif := rfl
@[simp] theorem State.setClaimed_ten (c : Nat) (x : List (Nat × Nat)) : (s.setClaimed c x).ten = s.ten := rfl
@[simp] theorem State.setClaimed_rings (c : Nat) (x : List (Nat × Nat)) : (s.setClaimed c x).rings = s.rings := rfl
@[simp] theorem State.setClaimed_gng (c : Nat) (x : List (Nat × Nat)) : (s.setClaimed c x).gng = s.gng := rfl
@[simp] theorem State.setClaimed_wbk (c : Nat) (x : List (Nat × Nat)) : (s.setClaimed c x).wbk = s.wbk := rfl
@[simp] theorem State.setClaimed_mem (c : Nat) (x : List (Nat × Nat)) : (s.setClaimed c x).mem = s.mem := rfl
@[simp] theorem State.setClaimed_sch (c : Nat) (x : List (Nat × Nat)) : (s.setClaimed c x).sch = s.sch := rfl
@[simp] theorem State.setClaimed_grd (c : Nat) (x : List (Nat × Nat)) : (s.setClaimed c x).grd = s.grd := rfl
@[simp] theorem State.setClaimed_rol (c : Nat) (x : List (Nat × Nat)) : (s.setClaimed c x).rol = s.rol := rfl
@[simp] theorem State.setClaimed_ink (c : Nat) (x : List (Nat × Nat)) : (s.setClaimed c x).ink = s.ink := rfl
@[simp] theorem State.setClaimed_tok (c : Nat) (x : List (Nat × Nat)) : (s.setClaimed c x).tok = s.tok := rfl
@[simp] theorem State.setClaimed_cym (c : Nat) (x : List (Nat × Nat)) : (s.setClaimed c x).cym = s.cym := rfl
@[simp] theorem State.setClaimed_chn (c : Nat) (x : List (Nat × Nat)) : (s.setClaimed c x).chn = s.chn := rfl
@[simp] theorem State.setClaimed_flt (c : Nat) (x : List (Nat × Nat)) : (s.setClaimed c x).flt = s.flt := rfl

@[simp] theorem State.setPos_pending (p : Nat) (x : Pos) : (s.setPos p x).pending = s.pending := rfl
@[simp] theorem State.setPos_now (p : Nat) (x : Pos) : (s.setPos p x).now = s.now := rfl
@[simp] theorem State.setPos_free (p : Nat) (x : Pos) : (s.setPos p x).free = s.free := rfl
@[simp] theorem State.setPos_out (p : Nat) (x : Pos) : (s.setPos p x).out = s.out := rfl
@[simp] theorem State.setPos_rdata (p : Nat) (x : Pos) : (s.setPos p x).rdata = s.rdata := rfl
@[simp] theorem State.setPos_brd (p : Nat) (x : Pos) : (s.setPos p x).brd = s.brd := rfl
@[simp] theorem State.setPos_pwr (p : Nat) (x : Pos) : (s.setPos p x).pwr = s.pwr := rfl
@[simp] theorem State.setPos_boot (p : Nat) (x : Pos) : (s.setPos p x).boot = s.boot := rfl
@[simp] theorem State.setPos_clk (p : Nat) (x : Pos) : (s.setPos p x).clk = s.clk := rfl
@[simp] theorem State.setPos_hif (p : Nat) (x : Pos) : (s.setPos p x).hif = s.hif := rfl
@[simp] theorem State.setPos_ten (p : Nat) (x : Pos) : (s.setPos p x).ten = s.ten := rfl
@[simp] theorem State.setPos_rings (p : Nat) (x : Pos) : (s.setPos p x).rings = s.rings := rfl
@[simp] theorem State.setPos_gng (p : Nat) (x : Pos) : (s.setPos p x).gng = s.gng := rfl
@[simp] theorem State.setPos_car (p : Nat) (x : Pos) : (s.setPos p x).car = s.car := rfl
@[simp] theorem State.setPos_mem (p : Nat) (x : Pos) : (s.setPos p x).mem = s.mem := rfl
@[simp] theorem State.setPos_sch (p : Nat) (x : Pos) : (s.setPos p x).sch = s.sch := rfl
@[simp] theorem State.setPos_grd (p : Nat) (x : Pos) : (s.setPos p x).grd = s.grd := rfl
@[simp] theorem State.setPos_rol (p : Nat) (x : Pos) : (s.setPos p x).rol = s.rol := rfl
@[simp] theorem State.setPos_ink (p : Nat) (x : Pos) : (s.setPos p x).ink = s.ink := rfl
@[simp] theorem State.setPos_tok (p : Nat) (x : Pos) : (s.setPos p x).tok = s.tok := rfl
@[simp] theorem State.setPos_cym (p : Nat) (x : Pos) : (s.setPos p x).cym = s.cym := rfl
@[simp] theorem State.setPos_chn (p : Nat) (x : Pos) : (s.setPos p x).chn = s.chn := rfl
@[simp] theorem State.setPos_flt (p : Nat) (x : Pos) : (s.setPos p x).flt = s.flt := rfl

@[simp] theorem State.setChan_pending (k : Nat) (x : Chan) : (s.setChan k x).pending = s.pending := rfl
@[simp] theorem State.setChan_now (k : Nat) (x : Chan) : (s.setChan k x).now = s.now := rfl
@[simp] theorem State.setChan_free (k : Nat) (x : Chan) : (s.setChan k x).free = s.free := rfl
@[simp] theorem State.setChan_out (k : Nat) (x : Chan) : (s.setChan k x).out = s.out := rfl
@[simp] theorem State.setChan_rdata (k : Nat) (x : Chan) : (s.setChan k x).rdata = s.rdata := rfl
@[simp] theorem State.setChan_brd (k : Nat) (x : Chan) : (s.setChan k x).brd = s.brd := rfl
@[simp] theorem State.setChan_pwr (k : Nat) (x : Chan) : (s.setChan k x).pwr = s.pwr := rfl
@[simp] theorem State.setChan_boot (k : Nat) (x : Chan) : (s.setChan k x).boot = s.boot := rfl
@[simp] theorem State.setChan_clk (k : Nat) (x : Chan) : (s.setChan k x).clk = s.clk := rfl
@[simp] theorem State.setChan_hif (k : Nat) (x : Chan) : (s.setChan k x).hif = s.hif := rfl
@[simp] theorem State.setChan_ten (k : Nat) (x : Chan) : (s.setChan k x).ten = s.ten := rfl
@[simp] theorem State.setChan_rings (k : Nat) (x : Chan) : (s.setChan k x).rings = s.rings := rfl
@[simp] theorem State.setChan_gng (k : Nat) (x : Chan) : (s.setChan k x).gng = s.gng := rfl
@[simp] theorem State.setChan_car (k : Nat) (x : Chan) : (s.setChan k x).car = s.car := rfl
@[simp] theorem State.setChan_mem (k : Nat) (x : Chan) : (s.setChan k x).mem = s.mem := rfl
@[simp] theorem State.setChan_sch (k : Nat) (x : Chan) : (s.setChan k x).sch = s.sch := rfl
@[simp] theorem State.setChan_grd (k : Nat) (x : Chan) : (s.setChan k x).grd = s.grd := rfl
@[simp] theorem State.setChan_rol (k : Nat) (x : Chan) : (s.setChan k x).rol = s.rol := rfl
@[simp] theorem State.setChan_ink (k : Nat) (x : Chan) : (s.setChan k x).ink = s.ink := rfl
@[simp] theorem State.setChan_tok (k : Nat) (x : Chan) : (s.setChan k x).tok = s.tok := rfl
@[simp] theorem State.setChan_cym (k : Nat) (x : Chan) : (s.setChan k x).cym = s.cym := rfl
@[simp] theorem State.setChan_chn (k : Nat) (x : Chan) : (s.setChan k x).chn = s.chn := rfl
@[simp] theorem State.setChan_flt (k : Nat) (x : Chan) : (s.setChan k x).flt = s.flt := rfl

@[simp] theorem State.setStack_pending (k : Nat) (x : Stack) : (s.setStack k x).pending = s.pending := rfl
@[simp] theorem State.setStack_now (k : Nat) (x : Stack) : (s.setStack k x).now = s.now := rfl
@[simp] theorem State.setStack_free (k : Nat) (x : Stack) : (s.setStack k x).free = s.free := rfl
@[simp] theorem State.setStack_out (k : Nat) (x : Stack) : (s.setStack k x).out = s.out := rfl
@[simp] theorem State.setStack_rdata (k : Nat) (x : Stack) : (s.setStack k x).rdata = s.rdata := rfl
@[simp] theorem State.setStack_brd (k : Nat) (x : Stack) : (s.setStack k x).brd = s.brd := rfl
@[simp] theorem State.setStack_pwr (k : Nat) (x : Stack) : (s.setStack k x).pwr = s.pwr := rfl
@[simp] theorem State.setStack_boot (k : Nat) (x : Stack) : (s.setStack k x).boot = s.boot := rfl
@[simp] theorem State.setStack_clk (k : Nat) (x : Stack) : (s.setStack k x).clk = s.clk := rfl
@[simp] theorem State.setStack_hif (k : Nat) (x : Stack) : (s.setStack k x).hif = s.hif := rfl
@[simp] theorem State.setStack_ten (k : Nat) (x : Stack) : (s.setStack k x).ten = s.ten := rfl
@[simp] theorem State.setStack_rings (k : Nat) (x : Stack) : (s.setStack k x).rings = s.rings := rfl
@[simp] theorem State.setStack_gng (k : Nat) (x : Stack) : (s.setStack k x).gng = s.gng := rfl
@[simp] theorem State.setStack_car (k : Nat) (x : Stack) : (s.setStack k x).car = s.car := rfl
@[simp] theorem State.setStack_wbk (k : Nat) (x : Stack) : (s.setStack k x).wbk = s.wbk := rfl
@[simp] theorem State.setStack_sch (k : Nat) (x : Stack) : (s.setStack k x).sch = s.sch := rfl
@[simp] theorem State.setStack_grd (k : Nat) (x : Stack) : (s.setStack k x).grd = s.grd := rfl
@[simp] theorem State.setStack_rol (k : Nat) (x : Stack) : (s.setStack k x).rol = s.rol := rfl
@[simp] theorem State.setStack_ink (k : Nat) (x : Stack) : (s.setStack k x).ink = s.ink := rfl
@[simp] theorem State.setStack_tok (k : Nat) (x : Stack) : (s.setStack k x).tok = s.tok := rfl
@[simp] theorem State.setStack_cym (k : Nat) (x : Stack) : (s.setStack k x).cym = s.cym := rfl
@[simp] theorem State.setStack_chn (k : Nat) (x : Stack) : (s.setStack k x).chn = s.chn := rfl
@[simp] theorem State.setStack_flt (k : Nat) (x : Stack) : (s.setStack k x).flt = s.flt := rfl

@[simp] theorem State.setSchTen_pending (t : Nat) (x : SchTen) : (s.setSchTen t x).pending = s.pending := rfl
@[simp] theorem State.setSchTen_now (t : Nat) (x : SchTen) : (s.setSchTen t x).now = s.now := rfl
@[simp] theorem State.setSchTen_free (t : Nat) (x : SchTen) : (s.setSchTen t x).free = s.free := rfl
@[simp] theorem State.setSchTen_out (t : Nat) (x : SchTen) : (s.setSchTen t x).out = s.out := rfl
@[simp] theorem State.setSchTen_rdata (t : Nat) (x : SchTen) : (s.setSchTen t x).rdata = s.rdata := rfl
@[simp] theorem State.setSchTen_brd (t : Nat) (x : SchTen) : (s.setSchTen t x).brd = s.brd := rfl
@[simp] theorem State.setSchTen_pwr (t : Nat) (x : SchTen) : (s.setSchTen t x).pwr = s.pwr := rfl
@[simp] theorem State.setSchTen_boot (t : Nat) (x : SchTen) : (s.setSchTen t x).boot = s.boot := rfl
@[simp] theorem State.setSchTen_clk (t : Nat) (x : SchTen) : (s.setSchTen t x).clk = s.clk := rfl
@[simp] theorem State.setSchTen_hif (t : Nat) (x : SchTen) : (s.setSchTen t x).hif = s.hif := rfl
@[simp] theorem State.setSchTen_ten (t : Nat) (x : SchTen) : (s.setSchTen t x).ten = s.ten := rfl
@[simp] theorem State.setSchTen_rings (t : Nat) (x : SchTen) : (s.setSchTen t x).rings = s.rings := rfl
@[simp] theorem State.setSchTen_gng (t : Nat) (x : SchTen) : (s.setSchTen t x).gng = s.gng := rfl
@[simp] theorem State.setSchTen_car (t : Nat) (x : SchTen) : (s.setSchTen t x).car = s.car := rfl
@[simp] theorem State.setSchTen_wbk (t : Nat) (x : SchTen) : (s.setSchTen t x).wbk = s.wbk := rfl
@[simp] theorem State.setSchTen_mem (t : Nat) (x : SchTen) : (s.setSchTen t x).mem = s.mem := rfl
@[simp] theorem State.setSchTen_grd (t : Nat) (x : SchTen) : (s.setSchTen t x).grd = s.grd := rfl
@[simp] theorem State.setSchTen_rol (t : Nat) (x : SchTen) : (s.setSchTen t x).rol = s.rol := rfl
@[simp] theorem State.setSchTen_ink (t : Nat) (x : SchTen) : (s.setSchTen t x).ink = s.ink := rfl
@[simp] theorem State.setSchTen_tok (t : Nat) (x : SchTen) : (s.setSchTen t x).tok = s.tok := rfl
@[simp] theorem State.setSchTen_cym (t : Nat) (x : SchTen) : (s.setSchTen t x).cym = s.cym := rfl
@[simp] theorem State.setSchTen_chn (t : Nat) (x : SchTen) : (s.setSchTen t x).chn = s.chn := rfl
@[simp] theorem State.setSchTen_flt (t : Nat) (x : SchTen) : (s.setSchTen t x).flt = s.flt := rfl

@[simp] theorem State.setTile_pending (i : Nat) (x : Tile) : (s.setTile i x).pending = s.pending := rfl
@[simp] theorem State.setTile_now (i : Nat) (x : Tile) : (s.setTile i x).now = s.now := rfl
@[simp] theorem State.setTile_free (i : Nat) (x : Tile) : (s.setTile i x).free = s.free := rfl
@[simp] theorem State.setTile_out (i : Nat) (x : Tile) : (s.setTile i x).out = s.out := rfl
@[simp] theorem State.setTile_rdata (i : Nat) (x : Tile) : (s.setTile i x).rdata = s.rdata := rfl
@[simp] theorem State.setTile_brd (i : Nat) (x : Tile) : (s.setTile i x).brd = s.brd := rfl
@[simp] theorem State.setTile_pwr (i : Nat) (x : Tile) : (s.setTile i x).pwr = s.pwr := rfl
@[simp] theorem State.setTile_boot (i : Nat) (x : Tile) : (s.setTile i x).boot = s.boot := rfl
@[simp] theorem State.setTile_clk (i : Nat) (x : Tile) : (s.setTile i x).clk = s.clk := rfl
@[simp] theorem State.setTile_hif (i : Nat) (x : Tile) : (s.setTile i x).hif = s.hif := rfl
@[simp] theorem State.setTile_ten (i : Nat) (x : Tile) : (s.setTile i x).ten = s.ten := rfl
@[simp] theorem State.setTile_rings (i : Nat) (x : Tile) : (s.setTile i x).rings = s.rings := rfl
@[simp] theorem State.setTile_gng (i : Nat) (x : Tile) : (s.setTile i x).gng = s.gng := rfl
@[simp] theorem State.setTile_car (i : Nat) (x : Tile) : (s.setTile i x).car = s.car := rfl
@[simp] theorem State.setTile_wbk (i : Nat) (x : Tile) : (s.setTile i x).wbk = s.wbk := rfl
@[simp] theorem State.setTile_mem (i : Nat) (x : Tile) : (s.setTile i x).mem = s.mem := rfl
@[simp] theorem State.setTile_sch (i : Nat) (x : Tile) : (s.setTile i x).sch = s.sch := rfl
@[simp] theorem State.setTile_rol (i : Nat) (x : Tile) : (s.setTile i x).rol = s.rol := rfl
@[simp] theorem State.setTile_ink (i : Nat) (x : Tile) : (s.setTile i x).ink = s.ink := rfl
@[simp] theorem State.setTile_tok (i : Nat) (x : Tile) : (s.setTile i x).tok = s.tok := rfl
@[simp] theorem State.setTile_cym (i : Nat) (x : Tile) : (s.setTile i x).cym = s.cym := rfl
@[simp] theorem State.setTile_chn (i : Nat) (x : Tile) : (s.setTile i x).chn = s.chn := rfl
@[simp] theorem State.setTile_flt (i : Nat) (x : Tile) : (s.setTile i x).flt = s.flt := rfl

@[simp] theorem State.setPort_pending (p : Nat) (x : Port) : (s.setPort p x).pending = s.pending := rfl
@[simp] theorem State.setPort_now (p : Nat) (x : Port) : (s.setPort p x).now = s.now := rfl
@[simp] theorem State.setPort_free (p : Nat) (x : Port) : (s.setPort p x).free = s.free := rfl
@[simp] theorem State.setPort_out (p : Nat) (x : Port) : (s.setPort p x).out = s.out := rfl
@[simp] theorem State.setPort_rdata (p : Nat) (x : Port) : (s.setPort p x).rdata = s.rdata := rfl
@[simp] theorem State.setPort_brd (p : Nat) (x : Port) : (s.setPort p x).brd = s.brd := rfl
@[simp] theorem State.setPort_pwr (p : Nat) (x : Port) : (s.setPort p x).pwr = s.pwr := rfl
@[simp] theorem State.setPort_boot (p : Nat) (x : Port) : (s.setPort p x).boot = s.boot := rfl
@[simp] theorem State.setPort_clk (p : Nat) (x : Port) : (s.setPort p x).clk = s.clk := rfl
@[simp] theorem State.setPort_hif (p : Nat) (x : Port) : (s.setPort p x).hif = s.hif := rfl
@[simp] theorem State.setPort_ten (p : Nat) (x : Port) : (s.setPort p x).ten = s.ten := rfl
@[simp] theorem State.setPort_rings (p : Nat) (x : Port) : (s.setPort p x).rings = s.rings := rfl
@[simp] theorem State.setPort_gng (p : Nat) (x : Port) : (s.setPort p x).gng = s.gng := rfl
@[simp] theorem State.setPort_car (p : Nat) (x : Port) : (s.setPort p x).car = s.car := rfl
@[simp] theorem State.setPort_wbk (p : Nat) (x : Port) : (s.setPort p x).wbk = s.wbk := rfl
@[simp] theorem State.setPort_mem (p : Nat) (x : Port) : (s.setPort p x).mem = s.mem := rfl
@[simp] theorem State.setPort_sch (p : Nat) (x : Port) : (s.setPort p x).sch = s.sch := rfl
@[simp] theorem State.setPort_grd (p : Nat) (x : Port) : (s.setPort p x).grd = s.grd := rfl
@[simp] theorem State.setPort_ink (p : Nat) (x : Port) : (s.setPort p x).ink = s.ink := rfl
@[simp] theorem State.setPort_tok (p : Nat) (x : Port) : (s.setPort p x).tok = s.tok := rfl
@[simp] theorem State.setPort_cym (p : Nat) (x : Port) : (s.setPort p x).cym = s.cym := rfl
@[simp] theorem State.setPort_chn (p : Nat) (x : Port) : (s.setPort p x).chn = s.chn := rfl
@[simp] theorem State.setPort_flt (p : Nat) (x : Port) : (s.setPort p x).flt = s.flt := rfl

@[simp] theorem State.setQueue_pending (n : Nat) (x : Queue) : (s.setQueue n x).pending = s.pending := rfl
@[simp] theorem State.setQueue_now (n : Nat) (x : Queue) : (s.setQueue n x).now = s.now := rfl
@[simp] theorem State.setQueue_free (n : Nat) (x : Queue) : (s.setQueue n x).free = s.free := rfl
@[simp] theorem State.setQueue_out (n : Nat) (x : Queue) : (s.setQueue n x).out = s.out := rfl
@[simp] theorem State.setQueue_rdata (n : Nat) (x : Queue) : (s.setQueue n x).rdata = s.rdata := rfl
@[simp] theorem State.setQueue_brd (n : Nat) (x : Queue) : (s.setQueue n x).brd = s.brd := rfl
@[simp] theorem State.setQueue_pwr (n : Nat) (x : Queue) : (s.setQueue n x).pwr = s.pwr := rfl
@[simp] theorem State.setQueue_boot (n : Nat) (x : Queue) : (s.setQueue n x).boot = s.boot := rfl
@[simp] theorem State.setQueue_clk (n : Nat) (x : Queue) : (s.setQueue n x).clk = s.clk := rfl
@[simp] theorem State.setQueue_hif (n : Nat) (x : Queue) : (s.setQueue n x).hif = s.hif := rfl
@[simp] theorem State.setQueue_ten (n : Nat) (x : Queue) : (s.setQueue n x).ten = s.ten := rfl
@[simp] theorem State.setQueue_rings (n : Nat) (x : Queue) : (s.setQueue n x).rings = s.rings := rfl
@[simp] theorem State.setQueue_gng (n : Nat) (x : Queue) : (s.setQueue n x).gng = s.gng := rfl
@[simp] theorem State.setQueue_car (n : Nat) (x : Queue) : (s.setQueue n x).car = s.car := rfl
@[simp] theorem State.setQueue_wbk (n : Nat) (x : Queue) : (s.setQueue n x).wbk = s.wbk := rfl
@[simp] theorem State.setQueue_mem (n : Nat) (x : Queue) : (s.setQueue n x).mem = s.mem := rfl
@[simp] theorem State.setQueue_sch (n : Nat) (x : Queue) : (s.setQueue n x).sch = s.sch := rfl
@[simp] theorem State.setQueue_grd (n : Nat) (x : Queue) : (s.setQueue n x).grd = s.grd := rfl
@[simp] theorem State.setQueue_rol (n : Nat) (x : Queue) : (s.setQueue n x).rol = s.rol := rfl
@[simp] theorem State.setQueue_tok (n : Nat) (x : Queue) : (s.setQueue n x).tok = s.tok := rfl
@[simp] theorem State.setQueue_cym (n : Nat) (x : Queue) : (s.setQueue n x).cym = s.cym := rfl
@[simp] theorem State.setQueue_chn (n : Nat) (x : Queue) : (s.setQueue n x).chn = s.chn := rfl
@[simp] theorem State.setQueue_flt (n : Nat) (x : Queue) : (s.setQueue n x).flt = s.flt := rfl

@[simp] theorem State.setTokTen_pending (t : Nat) (x : TokTen) : (s.setTokTen t x).pending = s.pending := rfl
@[simp] theorem State.setTokTen_now (t : Nat) (x : TokTen) : (s.setTokTen t x).now = s.now := rfl
@[simp] theorem State.setTokTen_free (t : Nat) (x : TokTen) : (s.setTokTen t x).free = s.free := rfl
@[simp] theorem State.setTokTen_out (t : Nat) (x : TokTen) : (s.setTokTen t x).out = s.out := rfl
@[simp] theorem State.setTokTen_rdata (t : Nat) (x : TokTen) : (s.setTokTen t x).rdata = s.rdata := rfl
@[simp] theorem State.setTokTen_brd (t : Nat) (x : TokTen) : (s.setTokTen t x).brd = s.brd := rfl
@[simp] theorem State.setTokTen_pwr (t : Nat) (x : TokTen) : (s.setTokTen t x).pwr = s.pwr := rfl
@[simp] theorem State.setTokTen_boot (t : Nat) (x : TokTen) : (s.setTokTen t x).boot = s.boot := rfl
@[simp] theorem State.setTokTen_clk (t : Nat) (x : TokTen) : (s.setTokTen t x).clk = s.clk := rfl
@[simp] theorem State.setTokTen_hif (t : Nat) (x : TokTen) : (s.setTokTen t x).hif = s.hif := rfl
@[simp] theorem State.setTokTen_ten (t : Nat) (x : TokTen) : (s.setTokTen t x).ten = s.ten := rfl
@[simp] theorem State.setTokTen_rings (t : Nat) (x : TokTen) : (s.setTokTen t x).rings = s.rings := rfl
@[simp] theorem State.setTokTen_gng (t : Nat) (x : TokTen) : (s.setTokTen t x).gng = s.gng := rfl
@[simp] theorem State.setTokTen_car (t : Nat) (x : TokTen) : (s.setTokTen t x).car = s.car := rfl
@[simp] theorem State.setTokTen_wbk (t : Nat) (x : TokTen) : (s.setTokTen t x).wbk = s.wbk := rfl
@[simp] theorem State.setTokTen_mem (t : Nat) (x : TokTen) : (s.setTokTen t x).mem = s.mem := rfl
@[simp] theorem State.setTokTen_sch (t : Nat) (x : TokTen) : (s.setTokTen t x).sch = s.sch := rfl
@[simp] theorem State.setTokTen_grd (t : Nat) (x : TokTen) : (s.setTokTen t x).grd = s.grd := rfl
@[simp] theorem State.setTokTen_rol (t : Nat) (x : TokTen) : (s.setTokTen t x).rol = s.rol := rfl
@[simp] theorem State.setTokTen_ink (t : Nat) (x : TokTen) : (s.setTokTen t x).ink = s.ink := rfl
@[simp] theorem State.setTokTen_cym (t : Nat) (x : TokTen) : (s.setTokTen t x).cym = s.cym := rfl
@[simp] theorem State.setTokTen_chn (t : Nat) (x : TokTen) : (s.setTokTen t x).chn = s.chn := rfl
@[simp] theorem State.setTokTen_flt (t : Nat) (x : TokTen) : (s.setTokTen t x).flt = s.flt := rfl

@[simp] theorem State.setStream_pending (n : Nat) (x : Stream) : (s.setStream n x).pending = s.pending := rfl
@[simp] theorem State.setStream_now (n : Nat) (x : Stream) : (s.setStream n x).now = s.now := rfl
@[simp] theorem State.setStream_free (n : Nat) (x : Stream) : (s.setStream n x).free = s.free := rfl
@[simp] theorem State.setStream_out (n : Nat) (x : Stream) : (s.setStream n x).out = s.out := rfl
@[simp] theorem State.setStream_rdata (n : Nat) (x : Stream) : (s.setStream n x).rdata = s.rdata := rfl
@[simp] theorem State.setStream_brd (n : Nat) (x : Stream) : (s.setStream n x).brd = s.brd := rfl
@[simp] theorem State.setStream_pwr (n : Nat) (x : Stream) : (s.setStream n x).pwr = s.pwr := rfl
@[simp] theorem State.setStream_boot (n : Nat) (x : Stream) : (s.setStream n x).boot = s.boot := rfl
@[simp] theorem State.setStream_clk (n : Nat) (x : Stream) : (s.setStream n x).clk = s.clk := rfl
@[simp] theorem State.setStream_hif (n : Nat) (x : Stream) : (s.setStream n x).hif = s.hif := rfl
@[simp] theorem State.setStream_ten (n : Nat) (x : Stream) : (s.setStream n x).ten = s.ten := rfl
@[simp] theorem State.setStream_rings (n : Nat) (x : Stream) : (s.setStream n x).rings = s.rings := rfl
@[simp] theorem State.setStream_gng (n : Nat) (x : Stream) : (s.setStream n x).gng = s.gng := rfl
@[simp] theorem State.setStream_car (n : Nat) (x : Stream) : (s.setStream n x).car = s.car := rfl
@[simp] theorem State.setStream_wbk (n : Nat) (x : Stream) : (s.setStream n x).wbk = s.wbk := rfl
@[simp] theorem State.setStream_mem (n : Nat) (x : Stream) : (s.setStream n x).mem = s.mem := rfl
@[simp] theorem State.setStream_sch (n : Nat) (x : Stream) : (s.setStream n x).sch = s.sch := rfl
@[simp] theorem State.setStream_grd (n : Nat) (x : Stream) : (s.setStream n x).grd = s.grd := rfl
@[simp] theorem State.setStream_rol (n : Nat) (x : Stream) : (s.setStream n x).rol = s.rol := rfl
@[simp] theorem State.setStream_ink (n : Nat) (x : Stream) : (s.setStream n x).ink = s.ink := rfl
@[simp] theorem State.setStream_tok (n : Nat) (x : Stream) : (s.setStream n x).tok = s.tok := rfl
@[simp] theorem State.setStream_chn (n : Nat) (x : Stream) : (s.setStream n x).chn = s.chn := rfl
@[simp] theorem State.setStream_flt (n : Nat) (x : Stream) : (s.setStream n x).flt = s.flt := rfl

@[simp] theorem State.setLink_pending (n : Nat) (x : Link) : (s.setLink n x).pending = s.pending := rfl
@[simp] theorem State.setLink_now (n : Nat) (x : Link) : (s.setLink n x).now = s.now := rfl
@[simp] theorem State.setLink_free (n : Nat) (x : Link) : (s.setLink n x).free = s.free := rfl
@[simp] theorem State.setLink_out (n : Nat) (x : Link) : (s.setLink n x).out = s.out := rfl
@[simp] theorem State.setLink_rdata (n : Nat) (x : Link) : (s.setLink n x).rdata = s.rdata := rfl
@[simp] theorem State.setLink_brd (n : Nat) (x : Link) : (s.setLink n x).brd = s.brd := rfl
@[simp] theorem State.setLink_pwr (n : Nat) (x : Link) : (s.setLink n x).pwr = s.pwr := rfl
@[simp] theorem State.setLink_boot (n : Nat) (x : Link) : (s.setLink n x).boot = s.boot := rfl
@[simp] theorem State.setLink_clk (n : Nat) (x : Link) : (s.setLink n x).clk = s.clk := rfl
@[simp] theorem State.setLink_hif (n : Nat) (x : Link) : (s.setLink n x).hif = s.hif := rfl
@[simp] theorem State.setLink_ten (n : Nat) (x : Link) : (s.setLink n x).ten = s.ten := rfl
@[simp] theorem State.setLink_rings (n : Nat) (x : Link) : (s.setLink n x).rings = s.rings := rfl
@[simp] theorem State.setLink_gng (n : Nat) (x : Link) : (s.setLink n x).gng = s.gng := rfl
@[simp] theorem State.setLink_car (n : Nat) (x : Link) : (s.setLink n x).car = s.car := rfl
@[simp] theorem State.setLink_wbk (n : Nat) (x : Link) : (s.setLink n x).wbk = s.wbk := rfl
@[simp] theorem State.setLink_mem (n : Nat) (x : Link) : (s.setLink n x).mem = s.mem := rfl
@[simp] theorem State.setLink_sch (n : Nat) (x : Link) : (s.setLink n x).sch = s.sch := rfl
@[simp] theorem State.setLink_grd (n : Nat) (x : Link) : (s.setLink n x).grd = s.grd := rfl
@[simp] theorem State.setLink_rol (n : Nat) (x : Link) : (s.setLink n x).rol = s.rol := rfl
@[simp] theorem State.setLink_ink (n : Nat) (x : Link) : (s.setLink n x).ink = s.ink := rfl
@[simp] theorem State.setLink_tok (n : Nat) (x : Link) : (s.setLink n x).tok = s.tok := rfl
@[simp] theorem State.setLink_cym (n : Nat) (x : Link) : (s.setLink n x).cym = s.cym := rfl
@[simp] theorem State.setLink_flt (n : Nat) (x : Link) : (s.setLink n x).flt = s.flt := rfl

@[simp] theorem State.setBell_pending (c : Nat) (x : Bell) : (s.setBell c x).pending = s.pending := rfl
@[simp] theorem State.setBell_now (c : Nat) (x : Bell) : (s.setBell c x).now = s.now := rfl
@[simp] theorem State.setBell_free (c : Nat) (x : Bell) : (s.setBell c x).free = s.free := rfl
@[simp] theorem State.setBell_out (c : Nat) (x : Bell) : (s.setBell c x).out = s.out := rfl
@[simp] theorem State.setBell_rdata (c : Nat) (x : Bell) : (s.setBell c x).rdata = s.rdata := rfl
@[simp] theorem State.setBell_brd (c : Nat) (x : Bell) : (s.setBell c x).brd = s.brd := rfl
@[simp] theorem State.setBell_pwr (c : Nat) (x : Bell) : (s.setBell c x).pwr = s.pwr := rfl
@[simp] theorem State.setBell_boot (c : Nat) (x : Bell) : (s.setBell c x).boot = s.boot := rfl
@[simp] theorem State.setBell_clk (c : Nat) (x : Bell) : (s.setBell c x).clk = s.clk := rfl
@[simp] theorem State.setBell_hif (c : Nat) (x : Bell) : (s.setBell c x).hif = s.hif := rfl
@[simp] theorem State.setBell_ten (c : Nat) (x : Bell) : (s.setBell c x).ten = s.ten := rfl
@[simp] theorem State.setBell_rings (c : Nat) (x : Bell) : (s.setBell c x).rings = s.rings := rfl
@[simp] theorem State.setBell_gng (c : Nat) (x : Bell) : (s.setBell c x).gng = s.gng := rfl
@[simp] theorem State.setBell_car (c : Nat) (x : Bell) : (s.setBell c x).car = s.car := rfl
@[simp] theorem State.setBell_wbk (c : Nat) (x : Bell) : (s.setBell c x).wbk = s.wbk := rfl
@[simp] theorem State.setBell_mem (c : Nat) (x : Bell) : (s.setBell c x).mem = s.mem := rfl
@[simp] theorem State.setBell_sch (c : Nat) (x : Bell) : (s.setBell c x).sch = s.sch := rfl
@[simp] theorem State.setBell_grd (c : Nat) (x : Bell) : (s.setBell c x).grd = s.grd := rfl
@[simp] theorem State.setBell_rol (c : Nat) (x : Bell) : (s.setBell c x).rol = s.rol := rfl
@[simp] theorem State.setBell_ink (c : Nat) (x : Bell) : (s.setBell c x).ink = s.ink := rfl
@[simp] theorem State.setBell_tok (c : Nat) (x : Bell) : (s.setBell c x).tok = s.tok := rfl
@[simp] theorem State.setBell_cym (c : Nat) (x : Bell) : (s.setBell c x).cym = s.cym := rfl
@[simp] theorem State.setBell_chn (c : Nat) (x : Bell) : (s.setBell c x).chn = s.chn := rfl

@[simp] theorem State.modJob_pending (j : Nat) (f : Job → Job) : (s.modJob j f).pending = s.pending := rfl
@[simp] theorem State.modJob_now (j : Nat) (f : Job → Job) : (s.modJob j f).now = s.now := rfl
@[simp] theorem State.modJob_free (j : Nat) (f : Job → Job) : (s.modJob j f).free = s.free := rfl
@[simp] theorem State.modJob_out (j : Nat) (f : Job → Job) : (s.modJob j f).out = s.out := rfl
@[simp] theorem State.modJob_rdata (j : Nat) (f : Job → Job) : (s.modJob j f).rdata = s.rdata := rfl
@[simp] theorem State.modJob_brd (j : Nat) (f : Job → Job) : (s.modJob j f).brd = s.brd := rfl
@[simp] theorem State.modJob_pwr (j : Nat) (f : Job → Job) : (s.modJob j f).pwr = s.pwr := rfl
@[simp] theorem State.modJob_boot (j : Nat) (f : Job → Job) : (s.modJob j f).boot = s.boot := rfl
@[simp] theorem State.modJob_clk (j : Nat) (f : Job → Job) : (s.modJob j f).clk = s.clk := rfl
@[simp] theorem State.modJob_hif (j : Nat) (f : Job → Job) : (s.modJob j f).hif = s.hif := rfl
@[simp] theorem State.modJob_ten (j : Nat) (f : Job → Job) : (s.modJob j f).ten = s.ten := rfl
@[simp] theorem State.modJob_rings (j : Nat) (f : Job → Job) : (s.modJob j f).rings = s.rings := rfl
@[simp] theorem State.modJob_gng (j : Nat) (f : Job → Job) : (s.modJob j f).gng = s.gng := rfl
@[simp] theorem State.modJob_car (j : Nat) (f : Job → Job) : (s.modJob j f).car = s.car := rfl
@[simp] theorem State.modJob_wbk (j : Nat) (f : Job → Job) : (s.modJob j f).wbk = s.wbk := rfl
@[simp] theorem State.modJob_mem (j : Nat) (f : Job → Job) : (s.modJob j f).mem = s.mem := rfl
@[simp] theorem State.modJob_grd (j : Nat) (f : Job → Job) : (s.modJob j f).grd = s.grd := rfl
@[simp] theorem State.modJob_rol (j : Nat) (f : Job → Job) : (s.modJob j f).rol = s.rol := rfl
@[simp] theorem State.modJob_ink (j : Nat) (f : Job → Job) : (s.modJob j f).ink = s.ink := rfl
@[simp] theorem State.modJob_tok (j : Nat) (f : Job → Job) : (s.modJob j f).tok = s.tok := rfl
@[simp] theorem State.modJob_cym (j : Nat) (f : Job → Job) : (s.modJob j f).cym = s.cym := rfl
@[simp] theorem State.modJob_chn (j : Nat) (f : Job → Job) : (s.modJob j f).chn = s.chn := rfl
@[simp] theorem State.modJob_flt (j : Nat) (f : Job → Job) : (s.modJob j f).flt = s.flt := rfl

@[simp] theorem State.emit_pending (op : LinkOp) : (s.emit op).pending = s.pending := rfl
@[simp] theorem State.emit_now (op : LinkOp) : (s.emit op).now = s.now := rfl
@[simp] theorem State.emit_free (op : LinkOp) : (s.emit op).free = s.free := rfl
@[simp] theorem State.emit_rdata (op : LinkOp) : (s.emit op).rdata = s.rdata := rfl
@[simp] theorem State.emit_brd (op : LinkOp) : (s.emit op).brd = s.brd := rfl
@[simp] theorem State.emit_pwr (op : LinkOp) : (s.emit op).pwr = s.pwr := rfl
@[simp] theorem State.emit_boot (op : LinkOp) : (s.emit op).boot = s.boot := rfl
@[simp] theorem State.emit_clk (op : LinkOp) : (s.emit op).clk = s.clk := rfl
@[simp] theorem State.emit_hif (op : LinkOp) : (s.emit op).hif = s.hif := rfl
@[simp] theorem State.emit_ten (op : LinkOp) : (s.emit op).ten = s.ten := rfl
@[simp] theorem State.emit_rings (op : LinkOp) : (s.emit op).rings = s.rings := rfl
@[simp] theorem State.emit_gng (op : LinkOp) : (s.emit op).gng = s.gng := rfl
@[simp] theorem State.emit_car (op : LinkOp) : (s.emit op).car = s.car := rfl
@[simp] theorem State.emit_wbk (op : LinkOp) : (s.emit op).wbk = s.wbk := rfl
@[simp] theorem State.emit_mem (op : LinkOp) : (s.emit op).mem = s.mem := rfl
@[simp] theorem State.emit_sch (op : LinkOp) : (s.emit op).sch = s.sch := rfl
@[simp] theorem State.emit_grd (op : LinkOp) : (s.emit op).grd = s.grd := rfl
@[simp] theorem State.emit_rol (op : LinkOp) : (s.emit op).rol = s.rol := rfl
@[simp] theorem State.emit_ink (op : LinkOp) : (s.emit op).ink = s.ink := rfl
@[simp] theorem State.emit_tok (op : LinkOp) : (s.emit op).tok = s.tok := rfl
@[simp] theorem State.emit_cym (op : LinkOp) : (s.emit op).cym = s.cym := rfl
@[simp] theorem State.emit_chn (op : LinkOp) : (s.emit op).chn = s.chn := rfl
@[simp] theorem State.emit_flt (op : LinkOp) : (s.emit op).flt = s.flt := rfl

@[simp] theorem State.setDom_pending (d : Nat) (b : Bool) : (s.setDom d b).pending = s.pending := rfl
@[simp] theorem State.setDom_now (d : Nat) (b : Bool) : (s.setDom d b).now = s.now := rfl
@[simp] theorem State.setDom_free (d : Nat) (b : Bool) : (s.setDom d b).free = s.free := rfl
@[simp] theorem State.setDom_out (d : Nat) (b : Bool) : (s.setDom d b).out = s.out := rfl
@[simp] theorem State.setDom_rdata (d : Nat) (b : Bool) : (s.setDom d b).rdata = s.rdata := rfl
@[simp] theorem State.setDom_brd (d : Nat) (b : Bool) : (s.setDom d b).brd = s.brd := rfl
@[simp] theorem State.setDom_boot (d : Nat) (b : Bool) : (s.setDom d b).boot = s.boot := rfl
@[simp] theorem State.setDom_clk (d : Nat) (b : Bool) : (s.setDom d b).clk = s.clk := rfl
@[simp] theorem State.setDom_hif (d : Nat) (b : Bool) : (s.setDom d b).hif = s.hif := rfl
@[simp] theorem State.setDom_ten (d : Nat) (b : Bool) : (s.setDom d b).ten = s.ten := rfl
@[simp] theorem State.setDom_rings (d : Nat) (b : Bool) : (s.setDom d b).rings = s.rings := rfl
@[simp] theorem State.setDom_gng (d : Nat) (b : Bool) : (s.setDom d b).gng = s.gng := rfl
@[simp] theorem State.setDom_car (d : Nat) (b : Bool) : (s.setDom d b).car = s.car := rfl
@[simp] theorem State.setDom_wbk (d : Nat) (b : Bool) : (s.setDom d b).wbk = s.wbk := rfl
@[simp] theorem State.setDom_mem (d : Nat) (b : Bool) : (s.setDom d b).mem = s.mem := rfl
@[simp] theorem State.setDom_sch (d : Nat) (b : Bool) : (s.setDom d b).sch = s.sch := rfl
@[simp] theorem State.setDom_grd (d : Nat) (b : Bool) : (s.setDom d b).grd = s.grd := rfl
@[simp] theorem State.setDom_rol (d : Nat) (b : Bool) : (s.setDom d b).rol = s.rol := rfl
@[simp] theorem State.setDom_ink (d : Nat) (b : Bool) : (s.setDom d b).ink = s.ink := rfl
@[simp] theorem State.setDom_tok (d : Nat) (b : Bool) : (s.setDom d b).tok = s.tok := rfl
@[simp] theorem State.setDom_cym (d : Nat) (b : Bool) : (s.setDom d b).cym = s.cym := rfl
@[simp] theorem State.setDom_chn (d : Nat) (b : Bool) : (s.setDom d b).chn = s.chn := rfl
@[simp] theorem State.setDom_flt (d : Nat) (b : Bool) : (s.setDom d b).flt = s.flt := rfl

@[simp] theorem State.setByte_pending (a : Nat) (b : Byte) : (s.setByte a b).pending = s.pending := rfl
@[simp] theorem State.setByte_now (a : Nat) (b : Byte) : (s.setByte a b).now = s.now := rfl
@[simp] theorem State.setByte_free (a : Nat) (b : Byte) : (s.setByte a b).free = s.free := rfl
@[simp] theorem State.setByte_out (a : Nat) (b : Byte) : (s.setByte a b).out = s.out := rfl
@[simp] theorem State.setByte_rdata (a : Nat) (b : Byte) : (s.setByte a b).rdata = s.rdata := rfl
@[simp] theorem State.setByte_brd (a : Nat) (b : Byte) : (s.setByte a b).brd = s.brd := rfl
@[simp] theorem State.setByte_pwr (a : Nat) (b : Byte) : (s.setByte a b).pwr = s.pwr := rfl
@[simp] theorem State.setByte_boot (a : Nat) (b : Byte) : (s.setByte a b).boot = s.boot := rfl
@[simp] theorem State.setByte_clk (a : Nat) (b : Byte) : (s.setByte a b).clk = s.clk := rfl
@[simp] theorem State.setByte_hif (a : Nat) (b : Byte) : (s.setByte a b).hif = s.hif := rfl
@[simp] theorem State.setByte_ten (a : Nat) (b : Byte) : (s.setByte a b).ten = s.ten := rfl
@[simp] theorem State.setByte_rings (a : Nat) (b : Byte) : (s.setByte a b).rings = s.rings := rfl
@[simp] theorem State.setByte_gng (a : Nat) (b : Byte) : (s.setByte a b).gng = s.gng := rfl
@[simp] theorem State.setByte_car (a : Nat) (b : Byte) : (s.setByte a b).car = s.car := rfl
@[simp] theorem State.setByte_wbk (a : Nat) (b : Byte) : (s.setByte a b).wbk = s.wbk := rfl
@[simp] theorem State.setByte_sch (a : Nat) (b : Byte) : (s.setByte a b).sch = s.sch := rfl
@[simp] theorem State.setByte_grd (a : Nat) (b : Byte) : (s.setByte a b).grd = s.grd := rfl
@[simp] theorem State.setByte_rol (a : Nat) (b : Byte) : (s.setByte a b).rol = s.rol := rfl
@[simp] theorem State.setByte_ink (a : Nat) (b : Byte) : (s.setByte a b).ink = s.ink := rfl
@[simp] theorem State.setByte_tok (a : Nat) (b : Byte) : (s.setByte a b).tok = s.tok := rfl
@[simp] theorem State.setByte_cym (a : Nat) (b : Byte) : (s.setByte a b).cym = s.cym := rfl
@[simp] theorem State.setByte_chn (a : Nat) (b : Byte) : (s.setByte a b).chn = s.chn := rfl
@[simp] theorem State.setByte_flt (a : Nat) (b : Byte) : (s.setByte a b).flt = s.flt := rfl

/-! ## A read after a write -/

theorem State.func_setFunc (i j : Nat) (x : Func) : (s.setFunc i x).func j = if j = i then x else s.func j := Tbl.find_put _ _ _ _ _
@[simp] theorem State.func_setFunc_same (i : Nat) (x : Func) : (s.setFunc i x).func i = x := Tbl.find_put_same _ _ _ _
theorem State.tenant_setTenant (i j : Nat) (x : Tenant) : (s.setTenant i x).tenant j = if j = i then x else s.tenant j := Tbl.find_put _ _ _ _ _
@[simp] theorem State.tenant_setTenant_same (i : Nat) (x : Tenant) : (s.setTenant i x).tenant i = x := Tbl.find_put_same _ _ _ _
theorem State.mapEntry_setMap (i j : Nat) (x : MapEntry) : (s.setMap i x).mapEntry j = if j = i then x else s.mapEntry j := Tbl.find_put _ _ _ _ _
@[simp] theorem State.mapEntry_setMap_same (i : Nat) (x : MapEntry) : (s.setMap i x).mapEntry i = x := Tbl.find_put_same _ _ _ _
theorem State.src_setSrc (i j : Nat) (x : Src) : (s.setSrc i x).src j = if j = i then x else s.src j := Tbl.find_put _ _ _ _ _
@[simp] theorem State.src_setSrc_same (i : Nat) (x : Src) : (s.setSrc i x).src i = x := Tbl.find_put_same _ _ _ _
theorem State.pos_setPos (i j : Nat) (x : Pos) : (s.setPos i x).pos j = if j = i then x else s.pos j := Tbl.find_put _ _ _ _ _
@[simp] theorem State.pos_setPos_same (i : Nat) (x : Pos) : (s.setPos i x).pos i = x := Tbl.find_put_same _ _ _ _
theorem State.chan_setChan (i j : Nat) (x : Chan) : (s.setChan i x).chan j = if j = i then x else s.chan j := Tbl.find_put _ _ _ _ _
@[simp] theorem State.chan_setChan_same (i : Nat) (x : Chan) : (s.setChan i x).chan i = x := Tbl.find_put_same _ _ _ _
theorem State.stack_setStack (i j : Nat) (x : Stack) : (s.setStack i x).stack j = if j = i then x else s.stack j := Tbl.find_put _ _ _ _ _
@[simp] theorem State.stack_setStack_same (i : Nat) (x : Stack) : (s.setStack i x).stack i = x := Tbl.find_put_same _ _ _ _
theorem State.schTen_setSchTen (i j : Nat) (x : SchTen) : (s.setSchTen i x).schTen j = if j = i then x else s.schTen j := Tbl.find_put _ _ _ _ _
@[simp] theorem State.schTen_setSchTen_same (i : Nat) (x : SchTen) : (s.setSchTen i x).schTen i = x := Tbl.find_put_same _ _ _ _
theorem State.tile_setTile (i j : Nat) (x : Tile) : (s.setTile i x).tile j = if j = i then x else s.tile j := Tbl.find_put _ _ _ _ _
@[simp] theorem State.tile_setTile_same (i : Nat) (x : Tile) : (s.setTile i x).tile i = x := Tbl.find_put_same _ _ _ _
theorem State.port_setPort (i j : Nat) (x : Port) : (s.setPort i x).port j = if j = i then x else s.port j := Tbl.find_put _ _ _ _ _
@[simp] theorem State.port_setPort_same (i : Nat) (x : Port) : (s.setPort i x).port i = x := Tbl.find_put_same _ _ _ _
theorem State.queue_setQueue (i j : Nat) (x : Queue) : (s.setQueue i x).queue j = if j = i then x else s.queue j := Tbl.find_put _ _ _ _ _
@[simp] theorem State.queue_setQueue_same (i : Nat) (x : Queue) : (s.setQueue i x).queue i = x := Tbl.find_put_same _ _ _ _
theorem State.tokTen_setTokTen (i j : Nat) (x : TokTen) : (s.setTokTen i x).tokTen j = if j = i then x else s.tokTen j := Tbl.find_put _ _ _ _ _
@[simp] theorem State.tokTen_setTokTen_same (i : Nat) (x : TokTen) : (s.setTokTen i x).tokTen i = x := Tbl.find_put_same _ _ _ _
theorem State.stream_setStream (i j : Nat) (x : Stream) : (s.setStream i x).stream j = if j = i then x else s.stream j := Tbl.find_put _ _ _ _ _
@[simp] theorem State.stream_setStream_same (i : Nat) (x : Stream) : (s.setStream i x).stream i = x := Tbl.find_put_same _ _ _ _
theorem State.link_setLink (i j : Nat) (x : Link) : (s.setLink i x).link j = if j = i then x else s.link j := Tbl.find_put _ _ _ _ _
@[simp] theorem State.link_setLink_same (i : Nat) (x : Link) : (s.setLink i x).link i = x := Tbl.find_put_same _ _ _ _
theorem State.bell_setBell (i j : Nat) (x : Bell) : (s.setBell i x).bell j = if j = i then x else s.bell j := Tbl.find_put _ _ _ _ _
@[simp] theorem State.bell_setBell_same (i : Nat) (x : Bell) : (s.setBell i x).bell i = x := Tbl.find_put_same _ _ _ _
theorem State.byte_setByte (a b : Nat) (x : Byte) : (s.setByte a x).byte b = if b = a then x else s.byte b := Tbl.find_put _ _ _ _ _
@[simp] theorem State.byte_setByte_same (a : Nat) (x : Byte) : (s.setByte a x).byte a = x := Tbl.find_put_same _ _ _ _
@[simp] theorem State.setFunc_setFunc (i : Nat) (x y : Func) : (s.setFunc i x).setFunc i y = s.setFunc i y := by
  simp [State.setFunc]
@[simp] theorem State.setTenant_setTenant (i : Nat) (x y : Tenant) : (s.setTenant i x).setTenant i y = s.setTenant i y := by
  simp [State.setTenant]
@[simp] theorem State.setMap_setMap (i : Nat) (x y : MapEntry) : (s.setMap i x).setMap i y = s.setMap i y := by
  simp [State.setMap]
@[simp] theorem State.setSrc_setSrc (i : Nat) (x y : Src) : (s.setSrc i x).setSrc i y = s.setSrc i y := by
  simp [State.setSrc]
@[simp] theorem State.setPos_setPos (i : Nat) (x y : Pos) : (s.setPos i x).setPos i y = s.setPos i y := by
  simp [State.setPos]
@[simp] theorem State.setChan_setChan (i : Nat) (x y : Chan) : (s.setChan i x).setChan i y = s.setChan i y := by
  simp [State.setChan]
@[simp] theorem State.setStack_setStack (i : Nat) (x y : Stack) : (s.setStack i x).setStack i y = s.setStack i y := by
  simp [State.setStack]
@[simp] theorem State.setSchTen_setSchTen (i : Nat) (x y : SchTen) : (s.setSchTen i x).setSchTen i y = s.setSchTen i y := by
  simp [State.setSchTen]
@[simp] theorem State.setTile_setTile (i : Nat) (x y : Tile) : (s.setTile i x).setTile i y = s.setTile i y := by
  simp [State.setTile]
@[simp] theorem State.setPort_setPort (i : Nat) (x y : Port) : (s.setPort i x).setPort i y = s.setPort i y := by
  simp [State.setPort]
@[simp] theorem State.setQueue_setQueue (i : Nat) (x y : Queue) : (s.setQueue i x).setQueue i y = s.setQueue i y := by
  simp [State.setQueue]
@[simp] theorem State.setTokTen_setTokTen (i : Nat) (x y : TokTen) : (s.setTokTen i x).setTokTen i y = s.setTokTen i y := by
  simp [State.setTokTen]
@[simp] theorem State.setStream_setStream (i : Nat) (x y : Stream) : (s.setStream i x).setStream i y = s.setStream i y := by
  simp [State.setStream]
@[simp] theorem State.setLink_setLink (i : Nat) (x y : Link) : (s.setLink i x).setLink i y = s.setLink i y := by
  simp [State.setLink]
@[simp] theorem State.setBell_setBell (i : Nat) (x y : Bell) : (s.setBell i x).setBell i y = s.setBell i y := by
  simp [State.setBell]
@[simp] theorem State.setRing_setRing (t r : Nat) (x y : Ring) : (s.setRing t r x).setRing t r y = s.setRing t r y := by
  simp [State.setRing]
@[simp] theorem State.setTile_grd_msgs (i : Nat) (x : Tile) : (s.setTile i x).grd.msgs = s.grd.msgs := rfl
@[simp] theorem State.setTile_grd_wdogLimit (i : Nat) (x : Tile) : (s.setTile i x).grd.wdogLimit = s.grd.wdogLimit := rfl
@[simp] theorem State.setStack_mem_cells (k : Nat) (x : Stack) : (s.setStack k x).mem.cells = s.mem.cells := rfl

end Sys2Proof.Machine
end

