-- ==== Sys2Proof/Laws/Memory.lean ====
section
/-!
SUPPORT. A write into a tenant's device memory, of bytes, of lines or of a result line, changes device memory and nothing
else of the machine.
-/
namespace Sys2Proof.Machine

/-- Bytes written into device memory change its bytes and its recorded errors alone. -/
theorem State.writeTen_only (s : State) (t a : Nat) (bs : List Byte) :
    ∃ cs es, s.writeTen t a bs = { s with mem := { s.mem with cells := cs, ecc := es } } := by
  unfold State.writeTen
  generalize bs.zipIdx = xs
  induction xs generalizing s with
  | nil => exact ⟨s.mem.cells, s.mem.ecc, rfl⟩
  | cons x xs ih =>
    rw [List.foldl_cons]
    split
    · obtain ⟨cs, es, h⟩ := ih (s.setByte _ x.1)
      exact ⟨cs, es, h⟩
    · exact ih s

/-- A result line and the lines that waited behind its claim change device memory and the claims alone. -/
theorem writeResult_only (t line : Nat) (ws : List Word) (s : State) :
    ∃ m, writeResult t line ws s = { s with mem := m } := by
  have lines : ∀ (l : Nat) (ns : List Nonet) (u : State), (∃ m, u = { s with mem := m }) →
      ∃ m, u.writeLines t l ns = { s with mem := m } := by
    rintro l ns _ ⟨m, rfl⟩
    obtain ⟨cs, es, h⟩ := State.writeTen_only { s with mem := m } t (72 * l)
      (packNonets (ns ++ List.replicate ((64 - ns.length % 64) % 64) 0))
    exact ⟨_, h⟩
  have all : ∀ (xs : List (List Nonet)) (u : State), (∃ m, u = { s with mem := m }) →
      ∃ m, forEach xs (fun ns s => s.writeLines t line ns) u = { s with mem := m } := by
    intro xs
    induction xs with
    | nil => exact fun u h => h
    | cons x xs ih => exact fun u h => ih _ (lines line x u h)
  have with_mem : ∀ (u : State) (m' : DevMem), (∃ m, u = { s with mem := m }) →
      ∃ m, { u with mem := m' } = { s with mem := m } := by
    rintro _ m' ⟨m, rfl⟩
    exact ⟨m', rfl⟩
  have base := lines line (wordsNonets (ws ++ List.replicate (16 - ws.length) 0)) s ⟨s.mem, rfl⟩
  unfold writeResult
  extract_lets full u
  split
  · exact base
  · split
    · exact base
    · refine all _ _ (with_mem u _ ?_)
      exact base

variable (s : State) (t a : Nat) (bs : List Byte) (ns : List Nonet) (ws : List Word)


@[simp] theorem State.writeTen_pending : (s.writeTen t a bs).pending = s.pending := by
  obtain ⟨_, _, h⟩ := s.writeTen_only t a bs; rw [h]
@[simp] theorem State.writeTen_now : (s.writeTen t a bs).now = s.now := by
  obtain ⟨_, _, h⟩ := s.writeTen_only t a bs; rw [h]
@[simp] theorem State.writeTen_free : (s.writeTen t a bs).free = s.free := by
  obtain ⟨_, _, h⟩ := s.writeTen_only t a bs; rw [h]
@[simp] theorem State.writeTen_out : (s.writeTen t a bs).out = s.out := by
  obtain ⟨_, _, h⟩ := s.writeTen_only t a bs; rw [h]
@[simp] theorem State.writeTen_rdata : (s.writeTen t a bs).rdata = s.rdata := by
  obtain ⟨_, _, h⟩ := s.writeTen_only t a bs; rw [h]
@[simp] theorem State.writeTen_brd : (s.writeTen t a bs).brd = s.brd := by
  obtain ⟨_, _, h⟩ := s.writeTen_only t a bs; rw [h]
@[simp] theorem State.writeTen_pwr : (s.writeTen t a bs).pwr = s.pwr := by
  obtain ⟨_, _, h⟩ := s.writeTen_only t a bs; rw [h]
@[simp] theorem State.writeTen_boot : (s.writeTen t a bs).boot = s.boot := by
  obtain ⟨_, _, h⟩ := s.writeTen_only t a bs; rw [h]
@[simp] theorem State.writeTen_clk : (s.writeTen t a bs).clk = s.clk := by
  obtain ⟨_, _, h⟩ := s.writeTen_only t a bs; rw [h]
@[simp] theorem State.writeTen_hif : (s.writeTen t a bs).hif = s.hif := by
  obtain ⟨_, _, h⟩ := s.writeTen_only t a bs; rw [h]
@[simp] theorem State.writeTen_ten : (s.writeTen t a bs).ten = s.ten := by
  obtain ⟨_, _, h⟩ := s.writeTen_only t a bs; rw [h]
@[simp] theorem State.writeTen_rings : (s.writeTen t a bs).rings = s.rings := by
  obtain ⟨_, _, h⟩ := s.writeTen_only t a bs; rw [h]
@[simp] theorem State.writeTen_gng : (s.writeTen t a bs).gng = s.gng := by
  obtain ⟨_, _, h⟩ := s.writeTen_only t a bs; rw [h]
@[simp] theorem State.writeTen_car : (s.writeTen t a bs).car = s.car := by
  obtain ⟨_, _, h⟩ := s.writeTen_only t a bs; rw [h]
@[simp] theorem State.writeTen_wbk : (s.writeTen t a bs).wbk = s.wbk := by
  obtain ⟨_, _, h⟩ := s.writeTen_only t a bs; rw [h]
@[simp] theorem State.writeTen_sch : (s.writeTen t a bs).sch = s.sch := by
  obtain ⟨_, _, h⟩ := s.writeTen_only t a bs; rw [h]
@[simp] theorem State.writeTen_grd : (s.writeTen t a bs).grd = s.grd := by
  obtain ⟨_, _, h⟩ := s.writeTen_only t a bs; rw [h]
@[simp] theorem State.writeTen_rol : (s.writeTen t a bs).rol = s.rol := by
  obtain ⟨_, _, h⟩ := s.writeTen_only t a bs; rw [h]
@[simp] theorem State.writeTen_ink : (s.writeTen t a bs).ink = s.ink := by
  obtain ⟨_, _, h⟩ := s.writeTen_only t a bs; rw [h]
@[simp] theorem State.writeTen_tok : (s.writeTen t a bs).tok = s.tok := by
  obtain ⟨_, _, h⟩ := s.writeTen_only t a bs; rw [h]
@[simp] theorem State.writeTen_cym : (s.writeTen t a bs).cym = s.cym := by
  obtain ⟨_, _, h⟩ := s.writeTen_only t a bs; rw [h]
@[simp] theorem State.writeTen_chn : (s.writeTen t a bs).chn = s.chn := by
  obtain ⟨_, _, h⟩ := s.writeTen_only t a bs; rw [h]
@[simp] theorem State.writeTen_flt : (s.writeTen t a bs).flt = s.flt := by
  obtain ⟨_, _, h⟩ := s.writeTen_only t a bs; rw [h]

@[simp] theorem State.writeLines_pending : (s.writeLines t a ns).pending = s.pending := by
  simp [State.writeLines]
@[simp] theorem State.writeLines_now : (s.writeLines t a ns).now = s.now := by
  simp [State.writeLines]
@[simp] theorem State.writeLines_free : (s.writeLines t a ns).free = s.free := by
  simp [State.writeLines]
@[simp] theorem State.writeLines_out : (s.writeLines t a ns).out = s.out := by
  simp [State.writeLines]
@[simp] theorem State.writeLines_rdata : (s.writeLines t a ns).rdata = s.rdata := by
  simp [State.writeLines]
@[simp] theorem State.writeLines_brd : (s.writeLines t a ns).brd = s.brd := by
  simp [State.writeLines]
@[simp] theorem State.writeLines_pwr : (s.writeLines t a ns).pwr = s.pwr := by
  simp [State.writeLines]
@[simp] theorem State.writeLines_boot : (s.writeLines t a ns).boot = s.boot := by
  simp [State.writeLines]
@[simp] theorem State.writeLines_clk : (s.writeLines t a ns).clk = s.clk := by
  simp [State.writeLines]
@[simp] theorem State.writeLines_hif : (s.writeLines t a ns).hif = s.hif := by
  simp [State.writeLines]
@[simp] theorem State.writeLines_ten : (s.writeLines t a ns).ten = s.ten := by
  simp [State.writeLines]
@[simp] theorem State.writeLines_rings : (s.writeLines t a ns).rings = s.rings := by
  simp [State.writeLines]
@[simp] theorem State.writeLines_gng : (s.writeLines t a ns).gng = s.gng := by
  simp [State.writeLines]
@[simp] theorem State.writeLines_car : (s.writeLines t a ns).car = s.car := by
  simp [State.writeLines]
@[simp] theorem State.writeLines_wbk : (s.writeLines t a ns).wbk = s.wbk := by
  simp [State.writeLines]
@[simp] theorem State.writeLines_sch : (s.writeLines t a ns).sch = s.sch := by
  simp [State.writeLines]
@[simp] theorem State.writeLines_grd : (s.writeLines t a ns).grd = s.grd := by
  simp [State.writeLines]
@[simp] theorem State.writeLines_rol : (s.writeLines t a ns).rol = s.rol := by
  simp [State.writeLines]
@[simp] theorem State.writeLines_ink : (s.writeLines t a ns).ink = s.ink := by
  simp [State.writeLines]
@[simp] theorem State.writeLines_tok : (s.writeLines t a ns).tok = s.tok := by
  simp [State.writeLines]
@[simp] theorem State.writeLines_cym : (s.writeLines t a ns).cym = s.cym := by
  simp [State.writeLines]
@[simp] theorem State.writeLines_chn : (s.writeLines t a ns).chn = s.chn := by
  simp [State.writeLines]
@[simp] theorem State.writeLines_flt : (s.writeLines t a ns).flt = s.flt := by
  simp [State.writeLines]

@[simp] theorem writeResult_pending : (writeResult t a ws s).pending = s.pending := by
  obtain ⟨_, h⟩ := writeResult_only t a ws s; rw [h]
@[simp] theorem writeResult_now : (writeResult t a ws s).now = s.now := by
  obtain ⟨_, h⟩ := writeResult_only t a ws s; rw [h]
@[simp] theorem writeResult_free : (writeResult t a ws s).free = s.free := by
  obtain ⟨_, h⟩ := writeResult_only t a ws s; rw [h]
@[simp] theorem writeResult_out : (writeResult t a ws s).out = s.out := by
  obtain ⟨_, h⟩ := writeResult_only t a ws s; rw [h]
@[simp] theorem writeResult_rdata : (writeResult t a ws s).rdata = s.rdata := by
  obtain ⟨_, h⟩ := writeResult_only t a ws s; rw [h]
@[simp] theorem writeResult_brd : (writeResult t a ws s).brd = s.brd := by
  obtain ⟨_, h⟩ := writeResult_only t a ws s; rw [h]
@[simp] theorem writeResult_pwr : (writeResult t a ws s).pwr = s.pwr := by
  obtain ⟨_, h⟩ := writeResult_only t a ws s; rw [h]
@[simp] theorem writeResult_boot : (writeResult t a ws s).boot = s.boot := by
  obtain ⟨_, h⟩ := writeResult_only t a ws s; rw [h]
@[simp] theorem writeResult_clk : (writeResult t a ws s).clk = s.clk := by
  obtain ⟨_, h⟩ := writeResult_only t a ws s; rw [h]
@[simp] theorem writeResult_hif : (writeResult t a ws s).hif = s.hif := by
  obtain ⟨_, h⟩ := writeResult_only t a ws s; rw [h]
@[simp] theorem writeResult_ten : (writeResult t a ws s).ten = s.ten := by
  obtain ⟨_, h⟩ := writeResult_only t a ws s; rw [h]
@[simp] theorem writeResult_rings : (writeResult t a ws s).rings = s.rings := by
  obtain ⟨_, h⟩ := writeResult_only t a ws s; rw [h]
@[simp] theorem writeResult_gng : (writeResult t a ws s).gng = s.gng := by
  obtain ⟨_, h⟩ := writeResult_only t a ws s; rw [h]
@[simp] theorem writeResult_car : (writeResult t a ws s).car = s.car := by
  obtain ⟨_, h⟩ := writeResult_only t a ws s; rw [h]
@[simp] theorem writeResult_wbk : (writeResult t a ws s).wbk = s.wbk := by
  obtain ⟨_, h⟩ := writeResult_only t a ws s; rw [h]
@[simp] theorem writeResult_sch : (writeResult t a ws s).sch = s.sch := by
  obtain ⟨_, h⟩ := writeResult_only t a ws s; rw [h]
@[simp] theorem writeResult_grd : (writeResult t a ws s).grd = s.grd := by
  obtain ⟨_, h⟩ := writeResult_only t a ws s; rw [h]
@[simp] theorem writeResult_rol : (writeResult t a ws s).rol = s.rol := by
  obtain ⟨_, h⟩ := writeResult_only t a ws s; rw [h]
@[simp] theorem writeResult_ink : (writeResult t a ws s).ink = s.ink := by
  obtain ⟨_, h⟩ := writeResult_only t a ws s; rw [h]
@[simp] theorem writeResult_tok : (writeResult t a ws s).tok = s.tok := by
  obtain ⟨_, h⟩ := writeResult_only t a ws s; rw [h]
@[simp] theorem writeResult_cym : (writeResult t a ws s).cym = s.cym := by
  obtain ⟨_, h⟩ := writeResult_only t a ws s; rw [h]
@[simp] theorem writeResult_chn : (writeResult t a ws s).chn = s.chn := by
  obtain ⟨_, h⟩ := writeResult_only t a ws s; rw [h]
@[simp] theorem writeResult_flt : (writeResult t a ws s).flt = s.flt := by
  obtain ⟨_, h⟩ := writeResult_only t a ws s; rw [h]

end Sys2Proof.Machine
end

