-- ==== Sys2Proof/Laws/Ops.lean ====
section
/-!
SUPPORT. What the shared operations leave alone, and what a register access, an event, a record and an error do.
-/
namespace Sys2Proof.Machine

variable {s : State}

/-! ## Register accesses -/

theorem regWriteOr_go {bad : Option Nat} {q : Requester} {a : RegAddr} {f : State → State}
    (h : access q a true s = .go) : regWriteOr bad q a f s = f s := by simp [regWriteOr, h]

theorem regWrite_go {q : Requester} {a : RegAddr} {f : State → State} (h : access q a true s = .go) :
    regWrite q a f s = f s := regWriteOr_go h

theorem regWrite_off {q : Requester} {a : RegAddr} {f : State → State} (h : access q a true s = .off) :
    regWrite q a f s = regError q a.bar0 s := by simp [regWrite, regWriteOr, h]

/-- A write that is an error counts as one before PWR_BOOT.ready too (R18, R19, R593). -/
theorem regWriteOr_notReady {off : Nat} {q : Requester} {a : RegAddr} {f : State → State}
    (h : access q a true s = .notReady) : regWriteOr (some off) q a f s = regError q off s := by simp [regWriteOr, h]

theorem regRead_go {q : Requester} {a : RegAddr} {g : State → Reg × State} (h : access q a false s = .go) :
    regRead q a g s = { (g s).2 with rdata := (g s).1.zeroExtend 64 } := by simp [regRead, h]

theorem regRead_off {q : Requester} {a : RegAddr} {g : State → Reg × State} (h : access q a false s = .off) :
    regRead q a g s = { regError q a.bar0 s with rdata := 0xFFFFFFFF } := by simp [regRead, h]

/-- Every way a register write can end. -/
theorem regWrite_cases (q : Requester) (a : RegAddr) (f : State → State) (s : State) :
    regWrite q a f s = f s ∨ regWrite q a f s = regError q a.bar0 s ∨ regWrite q a f s = s := by
  unfold regWrite regWriteOr; split <;> simp

/-! ## Stamps, events, records and errors -/

@[simp] theorem takeStamp_pending : (takeStamp s).pending = s.pending := rfl
@[simp] theorem takeStamp_now : (takeStamp s).now = s.now := rfl
@[simp] theorem takeStamp_free : (takeStamp s).free = s.free := rfl
@[simp] theorem takeStamp_out : (takeStamp s).out = s.out := rfl
@[simp] theorem takeStamp_rdata : (takeStamp s).rdata = s.rdata := rfl
@[simp] theorem takeStamp_brd : (takeStamp s).brd = s.brd := rfl
@[simp] theorem takeStamp_pwr : (takeStamp s).pwr = s.pwr := rfl
@[simp] theorem takeStamp_boot : (takeStamp s).boot = s.boot := rfl
@[simp] theorem takeStamp_clk : (takeStamp s).clk = s.clk := rfl
@[simp] theorem takeStamp_hif : (takeStamp s).hif = s.hif := rfl
@[simp] theorem takeStamp_ten : (takeStamp s).ten = s.ten := rfl
@[simp] theorem takeStamp_rings : (takeStamp s).rings = s.rings := rfl
@[simp] theorem takeStamp_car : (takeStamp s).car = s.car := rfl
@[simp] theorem takeStamp_wbk : (takeStamp s).wbk = s.wbk := rfl
@[simp] theorem takeStamp_mem : (takeStamp s).mem = s.mem := rfl
@[simp] theorem takeStamp_sch : (takeStamp s).sch = s.sch := rfl
@[simp] theorem takeStamp_grd : (takeStamp s).grd = s.grd := rfl
@[simp] theorem takeStamp_rol : (takeStamp s).rol = s.rol := rfl
@[simp] theorem takeStamp_ink : (takeStamp s).ink = s.ink := rfl
@[simp] theorem takeStamp_tok : (takeStamp s).tok = s.tok := rfl
@[simp] theorem takeStamp_cym : (takeStamp s).cym = s.cym := rfl
@[simp] theorem takeStamp_chn : (takeStamp s).chn = s.chn := rfl
@[simp] theorem takeStamp_flt : (takeStamp s).flt = s.flt := rfl

@[simp] theorem takeStamp_next : (takeStamp s).gng.next = s.gng.next + 1 := rfl
@[simp] theorem takeStamp_era : (takeStamp s).gng.era = s.gng.era := rfl

variable (n m : Nat) (f : Finding) (j : Option Job)

@[simp] theorem raise_pending : (raise n s).pending = s.pending := rfl
@[simp] theorem raise_now : (raise n s).now = s.now := rfl
@[simp] theorem raise_free : (raise n s).free = s.free := rfl
@[simp] theorem raise_out : (raise n s).out = s.out := rfl
@[simp] theorem raise_rdata : (raise n s).rdata = s.rdata := rfl
@[simp] theorem raise_brd : (raise n s).brd = s.brd := rfl
@[simp] theorem raise_pwr : (raise n s).pwr = s.pwr := rfl
@[simp] theorem raise_boot : (raise n s).boot = s.boot := rfl
@[simp] theorem raise_clk : (raise n s).clk = s.clk := rfl
@[simp] theorem raise_hif : (raise n s).hif = s.hif := rfl
@[simp] theorem raise_ten : (raise n s).ten = s.ten := rfl
@[simp] theorem raise_rings : (raise n s).rings = s.rings := rfl
@[simp] theorem raise_wbk : (raise n s).wbk = s.wbk := rfl
@[simp] theorem raise_mem : (raise n s).mem = s.mem := rfl
@[simp] theorem raise_sch : (raise n s).sch = s.sch := rfl
@[simp] theorem raise_grd : (raise n s).grd = s.grd := rfl
@[simp] theorem raise_rol : (raise n s).rol = s.rol := rfl
@[simp] theorem raise_ink : (raise n s).ink = s.ink := rfl
@[simp] theorem raise_tok : (raise n s).tok = s.tok := rfl
@[simp] theorem raise_cym : (raise n s).cym = s.cym := rfl
@[simp] theorem raise_chn : (raise n s).chn = s.chn := rfl
@[simp] theorem raise_flt : (raise n s).flt = s.flt := rfl

@[simp] theorem raise_gng : (raise n s).gng = (takeStamp s).gng := rfl

/-- The source of an event. -/
theorem raise_src : (raise n s).src n =
    if (s.src n).pending || (s.src n).active then
      { s.src n with lost := true, count := satInc (s.src n).count, stamp := s.gng.next }
    else { s.src n with pending := true, stamp := s.gng.next } := by
  unfold raise; simp

/-- Every other source. -/
theorem raise_src_other (h : m ≠ n) : (raise n s).src m = s.src m := Tbl.find_put_other _ _ _ h

@[simp] theorem countFlt_pending : (countFlt n s).pending = s.pending := rfl
@[simp] theorem countFlt_now : (countFlt n s).now = s.now := rfl
@[simp] theorem countFlt_free : (countFlt n s).free = s.free := rfl
@[simp] theorem countFlt_out : (countFlt n s).out = s.out := rfl
@[simp] theorem countFlt_rdata : (countFlt n s).rdata = s.rdata := rfl
@[simp] theorem countFlt_brd : (countFlt n s).brd = s.brd := rfl
@[simp] theorem countFlt_pwr : (countFlt n s).pwr = s.pwr := rfl
@[simp] theorem countFlt_boot : (countFlt n s).boot = s.boot := rfl
@[simp] theorem countFlt_clk : (countFlt n s).clk = s.clk := rfl
@[simp] theorem countFlt_hif : (countFlt n s).hif = s.hif := rfl
@[simp] theorem countFlt_ten : (countFlt n s).ten = s.ten := rfl
@[simp] theorem countFlt_rings : (countFlt n s).rings = s.rings := rfl
@[simp] theorem countFlt_gng : (countFlt n s).gng = s.gng := rfl
@[simp] theorem countFlt_car : (countFlt n s).car = s.car := rfl
@[simp] theorem countFlt_wbk : (countFlt n s).wbk = s.wbk := rfl
@[simp] theorem countFlt_mem : (countFlt n s).mem = s.mem := rfl
@[simp] theorem countFlt_sch : (countFlt n s).sch = s.sch := rfl
@[simp] theorem countFlt_grd : (countFlt n s).grd = s.grd := rfl
@[simp] theorem countFlt_rol : (countFlt n s).rol = s.rol := rfl
@[simp] theorem countFlt_ink : (countFlt n s).ink = s.ink := rfl
@[simp] theorem countFlt_tok : (countFlt n s).tok = s.tok := rfl
@[simp] theorem countFlt_cym : (countFlt n s).cym = s.cym := rfl
@[simp] theorem countFlt_chn : (countFlt n s).chn = s.chn := rfl

@[simp] theorem writeRecord_pending : (writeRecord f j s).pending = s.pending := rfl
@[simp] theorem writeRecord_now : (writeRecord f j s).now = s.now := rfl
@[simp] theorem writeRecord_free : (writeRecord f j s).free = s.free := rfl
@[simp] theorem writeRecord_out : (writeRecord f j s).out = s.out := rfl
@[simp] theorem writeRecord_rdata : (writeRecord f j s).rdata = s.rdata := rfl
@[simp] theorem writeRecord_brd : (writeRecord f j s).brd = s.brd := rfl
@[simp] theorem writeRecord_pwr : (writeRecord f j s).pwr = s.pwr := rfl
@[simp] theorem writeRecord_boot : (writeRecord f j s).boot = s.boot := rfl
@[simp] theorem writeRecord_clk : (writeRecord f j s).clk = s.clk := rfl
@[simp] theorem writeRecord_hif : (writeRecord f j s).hif = s.hif := rfl
@[simp] theorem writeRecord_ten : (writeRecord f j s).ten = s.ten := rfl
@[simp] theorem writeRecord_rings : (writeRecord f j s).rings = s.rings := rfl
@[simp] theorem writeRecord_car : (writeRecord f j s).car = s.car := rfl
@[simp] theorem writeRecord_wbk : (writeRecord f j s).wbk = s.wbk := rfl
@[simp] theorem writeRecord_mem : (writeRecord f j s).mem = s.mem := rfl
@[simp] theorem writeRecord_sch : (writeRecord f j s).sch = s.sch := rfl
@[simp] theorem writeRecord_grd : (writeRecord f j s).grd = s.grd := rfl
@[simp] theorem writeRecord_rol : (writeRecord f j s).rol = s.rol := rfl
@[simp] theorem writeRecord_ink : (writeRecord f j s).ink = s.ink := rfl
@[simp] theorem writeRecord_tok : (writeRecord f j s).tok = s.tok := rfl
@[simp] theorem writeRecord_cym : (writeRecord f j s).cym = s.cym := rfl
@[simp] theorem writeRecord_chn : (writeRecord f j s).chn = s.chn := rfl

@[simp] theorem writeRecord_gng : (writeRecord f j s).gng = (takeStamp s).gng := rfl
@[simp] theorem writeRecord_next : (writeRecord f j s).flt.next = s.flt.next + 1 := rfl

@[simp] theorem fire_pending : (fire f s).pending = s.pending := by simp [fire]
@[simp] theorem fire_now : (fire f s).now = s.now := by simp [fire]
@[simp] theorem fire_free : (fire f s).free = s.free := by simp [fire]
@[simp] theorem fire_out : (fire f s).out = s.out := by simp [fire]
@[simp] theorem fire_rdata : (fire f s).rdata = s.rdata := by simp [fire]
@[simp] theorem fire_brd : (fire f s).brd = s.brd := by simp [fire]
@[simp] theorem fire_pwr : (fire f s).pwr = s.pwr := by simp [fire]
@[simp] theorem fire_boot : (fire f s).boot = s.boot := by simp [fire]
@[simp] theorem fire_clk : (fire f s).clk = s.clk := by simp [fire]
@[simp] theorem fire_hif : (fire f s).hif = s.hif := by simp [fire]
@[simp] theorem fire_ten : (fire f s).ten = s.ten := by simp [fire]
@[simp] theorem fire_rings : (fire f s).rings = s.rings := by simp [fire]
@[simp] theorem fire_wbk : (fire f s).wbk = s.wbk := by simp [fire]
@[simp] theorem fire_mem : (fire f s).mem = s.mem := by simp [fire]
@[simp] theorem fire_sch : (fire f s).sch = s.sch := by simp [fire]
@[simp] theorem fire_grd : (fire f s).grd = s.grd := by simp [fire]
@[simp] theorem fire_rol : (fire f s).rol = s.rol := by simp [fire]
@[simp] theorem fire_ink : (fire f s).ink = s.ink := by simp [fire]
@[simp] theorem fire_tok : (fire f s).tok = s.tok := by simp [fire]
@[simp] theorem fire_cym : (fire f s).cym = s.cym := by simp [fire]
@[simp] theorem fire_chn : (fire f s).chn = s.chn := by simp [fire]

@[simp] theorem fire_flt : (fire f s).flt = (writeRecord f none (countFlt f.detector s)).flt := rfl

variable (q : Requester)

@[simp] theorem regError_pending : (regError q n s).pending = s.pending := by simp [regError]
@[simp] theorem regError_now : (regError q n s).now = s.now := by simp [regError]
@[simp] theorem regError_free : (regError q n s).free = s.free := by simp [regError]
@[simp] theorem regError_out : (regError q n s).out = s.out := by simp [regError]
@[simp] theorem regError_rdata : (regError q n s).rdata = s.rdata := by simp [regError]
@[simp] theorem regError_brd : (regError q n s).brd = s.brd := by simp [regError]
@[simp] theorem regError_pwr : (regError q n s).pwr = s.pwr := by simp [regError]
@[simp] theorem regError_boot : (regError q n s).boot = s.boot := by simp [regError]
@[simp] theorem regError_clk : (regError q n s).clk = s.clk := by simp [regError]
@[simp] theorem regError_hif : (regError q n s).hif = s.hif := by simp [regError]
@[simp] theorem regError_ten : (regError q n s).ten = s.ten := by simp [regError]
@[simp] theorem regError_rings : (regError q n s).rings = s.rings := by simp [regError]
@[simp] theorem regError_wbk : (regError q n s).wbk = s.wbk := by simp [regError]
@[simp] theorem regError_mem : (regError q n s).mem = s.mem := by simp [regError]
@[simp] theorem regError_sch : (regError q n s).sch = s.sch := by simp [regError]
@[simp] theorem regError_grd : (regError q n s).grd = s.grd := by simp [regError]
@[simp] theorem regError_rol : (regError q n s).rol = s.rol := by simp [regError]
@[simp] theorem regError_ink : (regError q n s).ink = s.ink := by simp [regError]
@[simp] theorem regError_tok : (regError q n s).tok = s.tok := by simp [regError]
@[simp] theorem regError_cym : (regError q n s).cym = s.cym := by simp [regError]
@[simp] theorem regError_chn : (regError q n s).chn = s.chn := by simp [regError]

@[simp] theorem regError_regerr : (regError q n s).flt.regerr = satInc s.flt.regerr := by simp [regError, countFlt]

end Sys2Proof.Machine
end

