-- ==== Sys2Proof/Laws/Tile.lean ====
section
/-!
SUPPORT. What an instruction of a tile that runs does to the card: its end, its jumps and its accesses.
-/
namespace Sys2Proof.Machine

/-- A tile that can run an instruction runs it. -/
theorem tileRun_of_runs {s : State} {i op : Nat} {w : Word} {f : Word → Tile → TileOut} (h : s.Runs i op w) :
    tileRun op i f s = applyOut i (f w (s.tile i)) s := by
  simp [tileRun, h.ready, h.word, h.op]

/-- An instruction that is done leaves its tile, moves the pc and counts what saturated. -/
theorem applyOut_done {s : State} {i op : Nat} {w : Word} {y : Tile} {l} (h : s.Runs i op w) :
    applyOut i (.done y l) s = countSats i l (s.advance i y) := by
  have := h.next
  have e : (s.tile i).pc ≠ BitVec.allOnes 14 := by
    intro e; rw [e] at this; simp at this
  simp only [applyOut, e, if_false]; rfl

/-- Accesses that are allowed are made. -/
theorem access_of_allows {x : Tile} {as : List Acc} {f : TileOut} (h : x.Allows as) : x.access as f = f := by
  simp [Tile.access, h.legal, h.free, h.correct]

@[simp] theorem countSats_nil (i : Nat) (s : State) : countSats i [] s = s := rfl
theorem countSats_one (i a b : Nat) (s : State) : countSats i [(a, b)] s = countSat i a b s := rfl

/-- A jump inside the instruction memory. -/
theorem applyOut_jump (i : Nat) (y : Tile) (t : Int) (s : State) (h : 0 ≤ t) (h1 : t ≤ 16383) :
    applyOut i (.jump y t) s = s.setTile i { y with pc := BitVec.ofNat 14 t.toNat, wdog := 0 } := by
  have : BitVec.ofInt 14 t = BitVec.ofNat 14 t.toNat := by
    apply BitVec.eq_of_toNat_eq; simp; omega
  simp [applyOut, h, h1, this]

/-! ## Registers of a tile -/

@[simp] theorem Tile.reg_zero (x : Tile) : x.reg 0 = 0 := rfl
@[simp] theorem Tile.setReg_zero (x : Tile) (v : Word) : x.setReg 0 v = x := rfl

/-- A register that is written is read back. -/
theorem Tile.reg_setReg {n : Nat} (x : Tile) (v : Word) (h : n ≠ 0) : (x.setReg n v).reg n = v := by
  simp [Tile.setReg, Tile.reg, h]

/-- Every other register. -/
theorem Tile.reg_setReg_other {n m : Nat} (x : Tile) (v : Word) (h : m ≠ n) : (x.setReg n v).reg m = x.reg m := by
  by_cases h1 : n = 0
  · simp [Tile.setReg, h1]
  · by_cases h2 : m = 0
    · simp [Tile.reg, h2]
    · simp only [Tile.setReg, Tile.reg, h1, h2, if_false]; exact Tbl.find_put_other _ _ _ h

end Sys2Proof.Machine
end

