-- ==== Sys2Proof/Tests/Slice0.lean ====
section
/-!
SUPPORT. Tests of the model: for every statement with hypotheses, states and operands that meet them, clause by
clause; an ill-formed term for each check of WellFormed; and single commands against the spec's worked examples.
-/
namespace Sys2Proof.Tests
open Sys2Proof Sys2Proof.Machine

/-! ## States -/

/-- A job of tenant 1 on tile 1023. -/
def aJob : Job :=
  { id := 7, tenant := 1, ring := 0, seq := 0, jobId := 9, phase := .running, origin := 1023, tag := 5
    parts := [0, 0, 0, 0] }

/-- A card that has started up: every domain on, the link up with 63 VFs, tenants 0 and 1 enabled with four pages
each, and ring 0 of each enabled. -/
def live : State := { State.reset with
  pwr := { State.reset.pwr with dom := 0xFFFF, perst := false }
  boot := { State.reset.boot with stage := .running, ready := true, scrubbed := true }
  clk := { State.reset.clk with locked := 0x3FFF }
  hif := { State.reset.hif with
    linkUp := true, width := 16, speed := 5, numVfs := 63, vfEnable := true, ari := true
    funcs := [(0, { bme := true, mse := true, msixEn := true }), (1, { bme := true, mse := true, msixEn := true })
              , (63, { bme := true, mse := true, msixEn := true })] }
  ten := { State.reset.ten with
    tenants := [(0, { enable := true, mapBase := 4, mapCount := 4 }), (1, { enable := true, mapCount := 4 })]
    map := (List.range 8).map (fun i => (i, { valid := true, ppn := BitVec.ofNat 16 i })) }
  rings := [(0, { enable := true, sqProd := 1 }), (8, { enable := true, sqProd := 1 })]
  mem := { State.reset.mem with
    stk := [(0, { trained := true }), (1, { trained := true }), (2, { trained := true }), (3, { trained := true })]
    tenCap := [(1, 10000)] }
  sch := { State.reset.sch with tens := [(1, { limit := 1024 })], nextJob := 8 }
  chn := { State.reset.chn with
    bypassing := false, assigned := true, unit := 1
    links := [(0, { cable := .plain, up := true }), (1, { cable := .plain, up := true })] }
  flt := { State.reset.flt with
    cores := [(0, { running := true }), (1, { running := true }), (2, { running := true }), (3, { running := true })] } }

/-- The card with the job on its tile, which is about to run an instruction. -/
def running (w : Word) (x : Tile) : State :=
  { live with sch := { live.sch with jobs := [aJob] } }.setTile 1023
    { x with running := true, tag := 5, job := some 7, imem := if w = 0 then [] else [(0, w)] }

/-- The card on a CXL link. -/
def cxlLive : State := { live with hif := { live.hif with cxl := true } }

/-- The card with one job. -/
def withJob (j : Job) : State := { live with sch := { live.sch with jobs := [j] } }

/-- The manifest that stands at address 0 of tenant 1 in `withManifest`: one tile, one program, one declaration. -/
def aManifest : Parsed :=
  { man := { progs := [{ image := 288, words := 1 }], decls := [{ interval := 1, live := 0, ranges := [] }], tiles := [0] }
    bad := false, reads := [(0, 72), (72, 16), (144, 16), (216, 2)] }

/-- The card with that manifest in device memory, and a spill area of tenant 1. -/
def withManifest : State := { live with
  sch := { live.sch with tens := [(1, { limit := 1024, spillLines := 8 })] }
  mem := { live.mem with cells := [(0, 1), (2, 1), (3, 1), (8, 1), (10, 1), (14, 1), (16, 72), (24, 144), (32, 216),
    (72, 32), (73, 1), (80, 1), (144, 1)] } }

/-- Tile 0 is the lowest rectangle of one tile where it is good. -/
theorem lowestRect_one (good : Nat → Bool) (h : good 0 = true) : lowestRect 1 1 good = some 0 := by
  unfold lowestRect
  rw [show (1024 : Nat) = 1023 + 1 from rfl, List.range_succ_eq_map, List.find?_cons_of_pos]
  simp [rect, h]

/-- A tile of a job of one tile, on the started card, passes the tile check. -/
theorem tileCheck_one (s : State) (h : s.allocatable 0 = true) (l : 1 ≤ (s.schTen 1).limit.toNat) :
    s.tileCheck 1 {} = none := by
  have n : ¬ (s.schTen 1).limit.toNat < 1 := by omega
  simp [State.tileCheck, lowestRect_one _ h, n]

/-- A job of one tile that waits is placed on tile 0 where it is good. -/
theorem find_one (j : Job) (good : Nat → Bool) (p : j.phase ≠ .spilled) (w : j.man.width = 1) (h : j.man.height = 1)
    (g : good 0 = true) : j.find good = some 0 := by
  simp [Job.find, p, w, h, lowestRect_one _ g]

/-- A flit with this first byte (type and last), number of valid lanes less one, and lane 0, with its CRC. -/
def flit (b lanes : Byte) (lane : Nat) : List Byte :=
  let h := [b, 0, 0, lanes]
  let p := leBytes 9 lane ++ List.replicate 63 0
  h ++ leBytes 4 (crc32 (h ++ p)).toNat ++ p

/-- Four bytes stored at offset 4 read back. -/
theorem le_leBytes_four (n : Nat) (h : n < 2 ^ 32) (a b c d : Byte) (p : List Byte) :
    le ([a, b, c, d] ++ leBytes 4 n ++ p) 4 4 = n := by
  simp [le, leBytes, slice, ofLe, List.range_succ]
  omega

/-- The CRC of such a flit is good. -/
theorem flit_crc (b n : Byte) (lane : Nat) : rawCrcOk (flit b n lane) = true := by
  have h := le_leBytes_four (crc32 ([b, 0, 0, n] ++ (leBytes 9 lane ++ List.replicate 63 0))).toNat (BitVec.isLt _)
    b 0 0 n (leBytes 9 lane ++ List.replicate 63 0)
  unfold rawCrcOk flit
  rw [h]
  simp [leBytes]

/-- A receiver that expects sequence number 0 keeps it. -/
theorem rawGood_flit (l : Link) (b n : Byte) (lane : Nat) (t : b.toNat % 16 ≤ 5) (q : l.rxSeq = 0xFF) :
    rawGood l (flit b n lane) = true := by
  have e : rawType (flit b n lane) = b.toNat % 16 := rfl
  have f : rawSeq (flit b n lane) = 0 := rfl
  simp [rawGood, flit_crc, e, f, t, q]

/-- A link that carries flits takes it. -/
theorem flitOk_flit (s : State) (x kind : Nat) (b n : Byte) (lane : Nat) (c : s.carries x = true)
    (t : b.toNat % 16 = kind) (u : kind ≤ 5) (q : (s.link x).rxSeq = 0xFF) : s.flitOk x kind (flit b n lane) = true := by
  have e : rawType (flit b n lane) = b.toNat % 16 := rfl
  simp [State.flitOk, c, rawGood_flit (s.link x) b n lane (by omega) q, e, t]

/-- A flit of a type above 5 is not good. -/
theorem rawGood_type (l : Link) (b n : Byte) (lane : Nat) (t : 5 < b.toNat % 16) : rawGood l (flit b n lane) = false := by
  have e : rawType (flit b n lane) = b.toNat % 16 := rfl
  simp [rawGood, e, t]

/-- The one request that waits stands first at its port. -/
theorem head_atPort (s : State) (e : GongRequest) (h : s.gng.held = [e]) : (s.atPort e).head? = some e := by
  simp [State.atPort, h]

/-- It is granted where no port waits for another. -/
theorem grantable_one (s : State) (e : GongRequest) (h : s.gng.held = [e]) (p : s.gng.passed = []) :
    s.grantable e = true := by
  simp [State.grantable, State.gongFree, head_atPort s e h, p]

/-- A port that another has seen granted is not free. -/
theorem not_gongFree (s : State) (e : GongRequest)
    (h : s.gng.passed = [((gongPort e + 1) % 64, [gongPort e])]) : s.gongFree (gongPort e) = false := by
  have l : gongPort e < 64 := Nat.mod_lt _ (by decide)
  have n : (gongPort e + 1) % 64 ≠ gongPort e := by omega
  simp [State.gongFree, h, n]

/-! ## States that meet the hypotheses of each statement, clause by clause -/

theorem test_meets_StepRunsFront :
  let s : State := live
  s.pending = [] :=
  by decide

theorem test_meets_EveryCommandCompletes :
  let c : Instr := .registerWrite (.fn 0) .bar 0x100000 1 15 0
  let s : State := live
  s.takes c = true :=
  by decide

theorem test_meets_StepKeepsInvariant :
  let s : State := State.reset
  let t : State := tick State.reset
  s.Inv ∧ step s = .next t :=
  ⟨⟨by decide, by constructor <;> decide⟩, rfl⟩

theorem test_meets_MemoryByteLaws :
  (let b : Nat := 1
   let a : Nat := 0
   b ≠ a) ∧
  (let s : State := live.setByte 0 255
   s.mem.wf = true) :=
  by and_intros <;> decide

theorem test_meets_TenantWritesReachOwnPages :
  let s : State := live
  let t : Nat := 1
  let a : Nat := 0
  let bs : List Byte := [1, 2]
  let p : Nat := 2
  ((∀ i < bs.length, s.translate t (a + i) ≠ some p)) :=
  by decide

theorem test_meets_VirtualFunctionIsolation :
  (let t : Fin 64 := 1
   let s : State := live
   let u : State := anyWrite (.fn 1) .bar 0x400 4 15 7 live
   let sp : Space := .bar
   let addr : Nat := 0x400
   let size : Nat := 4
   let be : Nat := 15
   let v : BitVec 64 := 7
   let m : Nat := 63
   t.val ≠ 0 ∧ exec (.registerWrite (.fn t) sp addr size be v) s = .next u ∧ m < 64 ∧ m ≠ t.val) ∧
  (let t : Fin 64 := 63
   t.val ≠ 0) :=
  by and_intros <;> first | decide | rfl

theorem test_meets_OffWindowAccess :
  (let q : Requester := .fn 0
   let a : RegAddr := .blk 0x600000
   let s : State := live.setDom domMGT false
   access q a true s = .off) ∧
  (let q : Requester := .fn 1
   let a : RegAddr := .tpg 1 0
   let s : State := live.setDom domHIF false
   access q a false s = .off) ∧
  (let s : State := live
   let off : Nat := 0xFFFFF
   s.fnAnswers 0 = true ∧ s.boot.stage ≠ .recovery ∧ off < 0x100000) ∧
  (let s : State := live
   let off : Nat := 0x100000
   s.fnAnswers 0 = true ∧ s.boot.stage ≠ .recovery ∧ 0x100000 ≤ off) :=
  by and_intros <;> decide

theorem test_meets_RegisterAccesses :
  (let q : Requester := .fn 0
   let a : RegAddr := .blk 0x1FFFFFC
   let addr : Nat := 0x1FFFFFC
   let s : State := live
   regAddr q addr = some a ∧ addr % 4 = 0 ∧ access q a true s = .go) ∧
  (let q : Requester := .core 3
   let a : RegAddr := .tpg 0 0
   let addr : Nat := 0x1F00000
   let s : State := live
   regAddr q addr = some a ∧ addr % 4 = 0 ∧ access q a false s = .go) ∧
  (let q : Requester := .fn 0
   let size : Nat := 4
   let addr : Nat := 2
   let off : Nat := 0
   let s : State := live
   0 < size ∧ regAddr q (addr / 4 * 4) = some (.blk off) ∧ misaligned addr size = true ∧
   access q (.blk off) true s = .go) ∧
  (let q : Requester := .fn 0
   let size : Nat := 8
   let addr : Nat := 0x100004
   let off : Nat := 0x100004
   let s : State := live
   0 < size ∧ regAddr q (addr / 4 * 4) = some (.blk off) ∧ misaligned addr size = true ∧
   access q (.blk off) false s = .go) ∧
  (let q : Requester := .fn 1
   let a : RegAddr := .tpg 1 0
   let addr : Nat := 0
   let be : Nat := 14
   let s : State := live
   regAddr q addr = some a ∧ addr % 4 = 0 ∧ be % 16 ≠ 15 ∧ access q a true s = .go) ∧
  (let q : Requester := .fn 1
   let a : RegAddr := .tpg 1 0x400
   let addr : Nat := 0x400
   regAddr q addr = some a ∧ addr % 8 = 0) ∧
  (let q : Requester := .fn 0
   let size : Nat := 2
   let addr : Nat := 0x300001
   let off : Nat := 0x300000
   let s : State := { live with boot := { live.boot with ready := false } }
   0 < size ∧ regAddr q (addr / 4 * 4) = some (.blk off) ∧ misaligned addr size = true ∧
   access q (.blk off) true s = .notReady) ∧
  (let q : Requester := .core 0
   let a : RegAddr := .blk 0x300000
   let addr : Nat := 0x300000
   let be : Nat := 7
   let s : State := { live with boot := { live.boot with ready := false } }
   regAddr q addr = some a ∧ addr % 4 = 0 ∧ be % 16 ≠ 15 ∧ access q a true s = .notReady) ∧
  (let q : Requester := .fn 0
   let a : RegAddr := .blk 0xE0000C
   let addr : Nat := 0xE0000C
   let s : State := { live with boot := { live.boot with ready := false } }
   regAddr q addr = some a ∧ addr % 4 = 0 ∧ access q a true s = .notReady) :=
  by and_intros <;> decide

theorem test_meets_BoardCommands :
  (let p : Fin 2 := 1
   let c : Fin 64 := 63
   let s : State := live
   access (.smbus p) (.blk (4 * c)) false s = .go) ∧
  (let p : Fin 2 := 0
   let c : Fin 64 := 8
   let v : BitVec 32 := 1
   let s : State := live
   let t : State := { live with brd := { live.brd with feedIn := true, feedOut := false } }
   access (.smbus p) (.blk (4 * c)) true s = .go ∧ brdWrite (.smbus p) (4 * c) v s = some t) ∧
  (let s : State := { live with brd := { live.brd with auxPresent := true } }
   s.brd.auxPresent = true ∧ s.pwr.dstate = .d0 ∧ s.on domMGT = true) ∧
  (let s : State := live
   s.on domAON = true ∧ s.on domMGT = true ∧ s.brd.feedIn = true) ∧
  (let s : State := live
   s.on domAON = true ∧ s.on domMGT = true ∧ s.brd.feedOut = true) ∧
  (let s : State := live.setDom domMGT false
   s.pwr.dstate ≠ .d0 ∨ s.on domMGT = false) ∧
  (let s : State := live.setDom domMGT false
   s.on domAON = true ∧ s.on domMGT = false ∧ s.brd.feedIn = true ∧ s.brd.feedOut = true) :=
  by and_intros <;> decide

theorem test_meets_StartUp :
  (let s : State := State.reset
   s.boot.stage = .unpowered) ∧
  (let s : State := { State.reset with boot := { State.reset.boot with stage := .aon } }
   s.boot.stage = .aon) ∧
  (let s : State := { State.reset with boot := { State.reset.boot with stage := .mems } }
   s.boot.stage = .mems ∧ s.pwr.perst = true ∧ s.pwr.dstate ≠ .d3cold) ∧
  (let s : State := { live with boot := { live.boot with stage := .mgt } }
   s.boot.stage = .mgt ∧ s.slotFailure s.boot.activeB = 0) ∧
  (let s : State := { live with boot := { live.boot with stage := .mgt, activeB := true } }
   s.boot.stage = .mgt ∧ s.slotFailure s.boot.activeB ≠ 0 ∧ s.slotFailure (!s.boot.activeB) = 0) ∧
  (let s : State := { live with boot := { live.boot with stage := .mgt, fusedArb := 1 } }
   s.boot.stage = .mgt ∧ s.slotFailure s.boot.activeB ≠ 0 ∧ s.slotFailure (!s.boot.activeB) ≠ 0) ∧
  (let s : State := { State.reset with boot := { State.reset.boot with stage := .aon } }
   s.boot.stage ≠ .unpowered) ∧
  (let w : BitVec 5 := 16
   let g : BitVec 3 := 5
   let s : State := { live with hif := { live.hif with linkUp := false } }
   [1, 2, 4, 8, 16].contains w.toNat = true ∧ 1 ≤ g.toNat ∧ g.toNat ≤ 5 ∧ s.hif.linkUp = false ∧
   s.pwr.perst = false ∧ s.on domHIF = true ∧ s.pwr.dstate = .d0) ∧
  (let k : Fin 4 := 3
   let s : State := live.setStack 3 {}
   s.boot.stage = .running ∧ (s.stack k).trained = false ∧ (s.stack k).fenced = false ∧
   s.dramHeld k = false) ∧
  (let s : State := { live with boot := { live.boot with scrubbed := false } }
   s.boot.stage = .running ∧ s.boot.scrubbed = false ∧
   ((∀ k ∈ [0, 1, 2, 3], ((s.stack k).trained || (s.stack k).fenced) = true))) ∧
  (let f : ImageFacts := { readable := false, digestOk := true, sigOk := true, arb := 0, version := 0 }
   f.readable = false) ∧
  (let f : ImageFacts := { readable := true, digestOk := false, sigOk := true, arb := 0, version := 0 }
   f.readable = true ∧ f.digestOk = false) ∧
  (let f : ImageFacts := { readable := true, digestOk := true, sigOk := false, arb := 0, version := 0 }
   f.readable = true ∧ f.digestOk = true ∧ f.sigOk = false) ∧
  (let f : ImageFacts := { readable := true, digestOk := true, sigOk := true, arb := 0, version := 0 }
   let m : Nat := 1
   f.readable = true ∧ f.digestOk = true ∧ f.sigOk = true ∧ f.arb < m) ∧
  (let k : Fin 4 := 0
   let s : State := { live.setStack 0 {} with clk := { live.clk with disconnected := 0x20 } }
   s.boot.stage = .running ∧ (s.stack k).trained = false ∧ (s.stack k).fenced = false ∧ s.dramHeld k = true) :=
  by and_intros <;> decide

set_option maxRecDepth 20000 in
theorem test_meets_ResetsAndPowerStates :
  (let s : State := live
   s.cableFed = false) ∧
  (let s : State := live
   s.pwr.perst = false ∧ s.boot.stage ≠ .unpowered) ∧
  (let q : Requester := .fn 0
   let v : BitVec 32 := 0x5A5A0001
   let s : State := live
   access q (.blk 0x100030) true s = .go ∧ v.toNat / 65536 = 0x5A5A ∧ v.toNat % 2 = 1 ∧ s.boot.resetting = false) ∧
  (let q : Requester := .fn 0
   let v : BitVec 32 := 0x00000001
   let s : State := live
   access q (.blk 0x100030) true s = .go ∧ v.toNat / 65536 ≠ 0x5A5A ∧ v.toNat % 2 = 1) ∧
  (let f : Fin 64 := 63
   let s : State := live
   f.val ≠ 0 ∧ s.hif.linkUp = true ∧ s.tenantExists f = true ∧ (s.func f).flrBusy = false) ∧
  (let s : State := live
   s.hif.linkUp = true ∧ (s.func 0).flrBusy = false) ∧
  (let k : Nat := 63
   k < 64) ∧
  (let s : State := { live with pwr := { live.pwr with vset := 550 } }
   550 ≤ s.pwr.vset.toNat ∧ s.pwr.vset.toNat ≤ 900) ∧
  (let d : Nat := 15
   d < 16) ∧
  (let s : State := live
   s.pwr.dstate = .d0 ∧ s.hif.linkUp = true) ∧
  (let s : State := { live with pwr := { live.pwr with dstate := .d3hot } }
   s.pwr.dstate = .d3hot) ∧
  (let s : State := { live with pwr := { live.pwr with dstate := .d3cold } }
   s.pwr.dstate = .d3cold) ∧
  (let d : Fin 16 := 14
   let s : State := live.setDom domCHN false
   s.mayPower d = true ∧ s.on d = false) ∧
  (let d : Fin 16 := 13
   let s : State := live
   d.val ∈ switched ∧ s.on d = true ∧ s.needed d = false) ∧
  (let s : State := live
   s.hif.linkUp = true) ∧
  (let k : Fin 4 := 3
   let d : Fin 16 := 6
   let s : State := live
   d.val = domMEM k ∧ s.on d = true ∧ ∀ t < 64, s.onStack t k = false) ∧
  (let d : Nat := 0
   let e : Nat := 15
   d < 16 ∧ e < 16) :=
  by and_intros <;> decide

set_option maxRecDepth 20000 in
theorem test_meets_VoltageAndClocks :
  (let s : State := { live with pwr := { live.pwr with vact := 900 } }
   s.on domMGT = true ∧ s.pwr.vact.toNat ≤ 900 ∧ 550 ≤ s.pwr.vset.toNat ∧ s.pwr.thermalLimited = false ∧
   s.pwr.dieHot = false ∧ 10 * s.effectiveCap < (751 : BitVec 16).toNat ∧ 560 ≤ s.pwr.vact.toNat) ∧
  (let die : List Int := List.replicate 64 114
   let stackC : List (Option Int) := [some 104, none, some 0, none]
   let s : State := live
   die.length = 64 ∧ stackC.length = 4 ∧ s.on domMGT = true ∧ s.pwr.tripped = false ∧ maxTemp die < 115 ∧
   maxTemp (stackC.filterMap id) < 105) ∧
  (let q : Requester := .fn 0
   let p : Fin 4 := 3
   let v : BitVec 32 := 20000
   let s : State := live
   access q (.blk (0x200010 + 4 * p)) true s = .go ∧ s.on domFRONT = true ∧ 20000 ≤ v.toNat % 2 ^ 18 ∧
   v.toNat % 2 ^ 18 ≤ 250000) ∧
  (let q : Requester := .fn 0
   let p : Fin 4 := 3
   let v : BitVec 32 := 19999
   let s : State := live
   access q (.blk (0x200010 + 4 * p)) true s = .go ∧ ((v.toNat % 2 ^ 18 < 20000 ∨ 250000 < v.toNat % 2 ^ 18))) ∧
  (let k : Nat := 3
   let s : State := live
   s.on (domMEM k) = true ∧ (s.stack k).fenced = false ∧ (85 : Int) < 86 ∧ (s.stack k).hot = false) ∧
  (let k : Nat := 0
   let t : Int := 82
   let s : State := live.setStack 0 { trained := true, hot := true }
   s.on (domMEM k) = true ∧ (s.stack k).fenced = false ∧ t ≤ 82) ∧
  (let q : Requester := .fn 0
   let p : Fin 4 := 0
   let v : BitVec 32 := 250000
   let s : State := live.setDom domFRONT false
   access q (.blk (0x200010 + 4 * p)) true s = .go ∧ 20000 ≤ v.toNat % 2 ^ 18 ∧ v.toNat % 2 ^ 18 ≤ 250000 ∧
   s.on domFRONT = false) ∧
  (let i : Fin 13 := 8
   let s : State := { live with clk := { live.clk with relock := 0x100 } }
   bit s.clk.relock i = true ∧ i.val < 9) ∧
  (let i : Fin 13 := 9
   let s : State := { live with clk := { live.clk with relock := 0x200 } }
   bit s.clk.relock i = true ∧ (s.port (i - 9)).enable = false) ∧
  (let i : Fin 13 := 12
   let s : State := { live.setPort 3 { enable := true, fmt := 0x02C603FF, rate := 4000 } with
   clk := { live.clk with relock := 0x1000 } }
   bit s.clk.relock i = true ∧ 9 ≤ i.val ∧ (s.port (i - 9)).enable = true ∧
   (s.port (i - 9)).rateOk (s.lineKhz (i - 9)).toNat = true) ∧
  (let i : Fin 13 := 9
   let s : State := { live.setPort 0 { enable := true, fmt := 0x02C603FF, rate := 200001 } with
   clk := { live.clk with relock := 0x200 } }
   bit s.clk.relock i = true ∧ 9 ≤ i.val ∧ (s.port (i - 9)).enable = true ∧
   (s.port (i - 9)).rateOk (s.lineKhz (i - 9)).toNat = false) :=
  by and_intros <;> decide

theorem test_meets_HostAndTenants :
  (let why : ReadEnd := .timeout
   let t : Fin 64 := 1
   let r : Fin 8 := 0
   let s : State := live
   (why ≠ .timeout ∨ (s.func 0).ctoDisable = false) ∧ s.fetchable t r = true) ∧
  (let why : ReadEnd := .completerAbort
   let t : Fin 64 := 0
   let s : State := live.setTenant 0 { enable := true, polls := 1 }
   (why ≠ .timeout ∨ (s.func 0).ctoDisable = false) ∧ s.lineRead t = true) ∧
  (let s : State := live.setFunc 0 { bme := true, ctoDisable := true }
   (s.func 0).ctoDisable = true) ∧
  (let j : Nat := 7
   let x : Job := aJob
   let s : State := withJob aJob
   s.job? j = some x) ∧
  (let s : State := live
   s.hif.linkUp = true ∧ (s.func 0).flrBusy = false) ∧
  (let t : Fin 64 := 1
   let s : State := live
   s.configurable t = true ∧ (s.func t).bme = true) ∧
  (let t : Fin 64 := 2
   let s : State := live
   s.configurable t = true ∧ (s.func t).bme = false) ∧
  (let q : Requester := .fn 0
   let i : Fin 49152 := 49151
   let v : BitVec 32 := 0x80002EFF
   let s : State := live
   access q (.blk (baseTEN + 0x10000 + 4 * i)) true s = .go ∧ s.locked i = false ∧ (s.mapEntry i).valid = false ∧
   ((bit v 31 = true → s.pageConflict i (fldv v 0 16 : BitVec 16).toNat = false ∧
   s.pageReserved (fldv v 0 16 : BitVec 16).toNat = false))) ∧
  (let q : Requester := .fn 0
   let i : Fin 49152 := 7
   let v : BitVec 32 := 0
   let s : State := live
   access q (.blk (baseTEN + 0x10000 + 4 * i)) true s = .go ∧ s.locked i = true ∧ bit v 31 = false) ∧
  (let s : State := { live with ten := { live.ten with scrubQ := [{ ppn := 36864, owner := none }] } }
   let p : ScrubPage := { ppn := 36864, owner := none }
   let rest : List ScrubPage := []
   s.ten.scrubQ = p :: rest ∧ s.pwr.dstate = .d0 ∧ s.on (domMEM (p.ppn / stackPages)) = true) ∧
  (let q : Requester := .fn 0
   let t : Fin 64 := 63
   let s : State := live.setTenant 63 { mapBase := 49151, mapCount := 1 }
   access q (.blk (tenBlock t)) true s = .go ∧ (s.tenant t).enable = false ∧ (s.tenant t).disabling = false ∧
   s.tenantExists t = true ∧ (s.tenant t).mapBase.toNat + (s.tenant t).mapCount.toNat ≤ 49152 ∧
   s.overlaps t = false ∧ s.scrubbing t = false) ∧
  (let q : Requester := .fn 0
   let t : Fin 64 := 1
   let s : State := live
   access q (.blk (tenBlock t)) true s = .go ∧ (s.tenant t).enable = true ∧ (s.tenant t).disabling = false) ∧
  (let t : Fin 64 := 1
   let s : State := live.setTenant 1 { enable := true, disabling := true }
   (s.tenant t).disabling = true ∧ ((∀ r ∈ ringsOf, (s.ring t r).inflight = [])) ∧ (s.tenant t).hintDue = false) ∧
  (let t : Fin 64 := 1
   let s : State := cxlLive.setTenant 1 { enable := true, disabling := true, hintDue := true }
   (s.tenant t).disabling = true ∧ (∀ r ∈ ringsOf, (s.ring t r).inflight = []) ∧ (s.tenant t).hintDue = true ∧
   ((tailHint t s).tenant t).hintDue = false) ∧
  (let q : Requester := .fn 0
   let t : Fin 64 := 2
   let s : State := live
   access q (.blk (tenBlock t)) true s = .go ∧ (s.tenant t).enable = false) :=
  by and_intros <;> decide

theorem test_meets_RingsAndChimes :
  (let q : Requester := .fn 1
   let t : Fin 64 := 1
   let r : Fin 8 := 7
   let k : BitVec 5 := 16
   let s : State := live
   access q (.tpg t (ringCtl r)) true s = .go ∧ (s.ring t r).enable = false ∧ (s.ring t r).inflight = [] ∧
   4 ≤ k.toNat ∧ k.toNat ≤ 16) ∧
  (let q : Requester := .fn 1
   let t : Fin 64 := 1
   let r : Fin 8 := 7
   let k : BitVec 5 := 17
   let s : State := live
   access q (.tpg t (ringCtl r)) true s = .go ∧ (s.ring t r).enable = false ∧ ((k.toNat < 4 ∨ 16 < k.toNat))) ∧
  (let q : Requester := .fn 1
   let t : Fin 64 := 1
   let r : Fin 8 := 0
   let s : State := live
   access q (.tpg t (ringCtl r)) true s = .go) ∧
  (let q : Requester := .fn 1
   let t : Fin 64 := 1
   let s : State := live
   access q (.tpg t 0x308) true s = .go) ∧
  (let t : Fin 64 := 1
   let s : State := cxlLive.setTenant 1 { enable := true, chime := .held }
   s.hif.cxl = true ∧ s.hif.linkUp = true ∧ (s.tenant t).chime = .held) ∧
  (let t : Fin 64 := 1
   let s : State := live
   s.hif.cxl = false ∧ s.linkOk t = true ∧ (s.tenant t).enable = true ∧ s.boot.ready = true) ∧
  (let t : Fin 64 := 1
   let line : List Byte := List.replicate 64 0
   let s : State := live.setTenant 1 { enable := true, polls := 2 }
   line.length = 64 ∧ s.hif.cxl = false ∧ 0 < (s.tenant t).polls ∧ (s.tenant t).chime = .absent) ∧
  (let t : Fin 64 := 1
   let s : State := cxlLive.setTenant 1 { enable := true, hintDue := true }
   s.hif.cxl = true ∧ s.hif.linkUp = true ∧ s.hif.l1 = false ∧ s.pwr.dstate = .d0 ∧ (s.func t).bme = true ∧
   (s.tenant t).enable = true ∧ (s.tenant t).hintDue = true) ∧
  (let t : Nat := 1
   let r : Nat := 0
   let p : BitVec 32 := 17
   let c : BitVec 32 := 0
   let s : State := live
   let x := { s.ring t r with sqProd := p, cqCons := c }
   2 ^ x.k.toNat < (p - x.sqHead).toNat ∧ x.enable = true ∧ x.stopped = false) ∧
  (let t : Nat := 1
   let r : Nat := 0
   let p : BitVec 32 := 16
   let c : BitVec 32 := 0
   let s : State := live
   let x := { s.ring t r with sqProd := p, cqCons := c }
   (p - x.sqHead).toNat ≤ 2 ^ x.k.toNat) ∧
  (let t : Fin 64 := 1
   let r : Fin 8 := 0
   let d : List (List Byte) := [List.replicate 64 0]
   let s : State := live
   1 ≤ d.length ∧ d.length ≤ 8 ∧ ((∀ x ∈ d, x.length = 64)) ∧ s.fetchable t r = true ∧ d.length ≤ s.fetchLimit t r) ∧
  (let q : Requester := .fn 1
   let t : Fin 64 := 1
   let r : Fin 8 := 0
   let s : State := live
   access q (.tpg t (ringCtl r)) true s = .go ∧ (s.ring t r).enable = true ∧ (s.ring t r).inflight = []) ∧
  (let t : Fin 64 := 1
   let s : State := cxlLive
   s.hif.cxl = true ∧ s.hif.linkUp = true ∧ (s.tenant t).chime = .absent) ∧
  (let t : Fin 64 := 1
   let line : List Byte := List.replicate 64 255
   let s : State := cxlLive.setTenant 1 { enable := true, chime := .reading }
   line.length = 64 ∧ s.hif.cxl = true ∧ (s.tenant t).chime = .reading) ∧
  (let t : Fin 64 := 1
   let line : List Byte := List.replicate 64 255
   let s : State := cxlLive.setTenant 1 { enable := true, chime := .readingAgain }
   line.length = 64 ∧ s.hif.cxl = true ∧ (s.tenant t).chime = .readingAgain) ∧
  (let t : Fin 64 := 1
   let line : List Byte := List.replicate 64 255
   let s : State := cxlLive.setTenant 1 { enable := true, chime := .held }
   line.length = 64 ∧ s.lineRead t = false) :=
  by and_intros <;> decide

theorem test_meets_Completions :
  (let t : Fin 64 := 1
   let r : Fin 8 := 0
   let d : Inflight := { seq := 0, desc := [0], st := .decided { status := 2 } }
   let rest : List Inflight := []
   let c : Cpl := { status := 2 }
   let s : State := live.setRing 1 0 { enable := true, inflight := [d] }
   (s.ring t r).inflight = d :: rest ∧ s.decision d = some c ∧ s.linkOk t = true ∧ s.firmware (coreOf t) = true ∧
   (s.ring t r).space = true ∧ (s.ring t r).half = none ∧ s.atPort (.completion t r) = [] ∧
   s.gongFree (gongPort (.completion t r)) = true ∧ (∀ j, d.st ≠ .admitted j)) ∧
  (let t : Fin 64 := 1
   let r : Fin 8 := 0
   let d : Inflight := { seq := 0, desc := [0], st := .decided { status := 2 } }
   let rest : List Inflight := []
   let c : Cpl := { status := 2 }
   let s : State := { live with gng := { live.gng with
     passed := [((gongPort (.completion 1 0) + 1) % 64, [gongPort (.completion 1 0)])] } }.setRing 1 0
     { enable := true, inflight := [d] }
   (s.ring t r).inflight = d :: rest ∧ s.decision d = some c ∧ s.linkOk t = true ∧ s.firmware (coreOf t) = true ∧
   (s.ring t r).space = true ∧ (s.ring t r).half = none ∧ s.atPort (.completion t r) = [] ∧
   s.gongFree (gongPort (.completion t r)) = false) ∧
  (let t : Fin 64 := 1
   let r : Fin 8 := 0
   let d : Inflight := { seq := 0, desc := [1], st := .admitted 7 }
   let rest : List Inflight := []
   let c : Cpl := { status := 0 }
   let j : Nat := 7
   let s : State := (withJob { aJob with result := some { status := 0 } }).setRing 1 0 { enable := true, inflight := [d] }
   (s.ring t r).inflight = d :: rest ∧ s.decision d = some c ∧ s.linkOk t = true ∧ s.firmware (coreOf t) = true ∧
   (s.ring t r).space = true ∧ (s.ring t r).half = none ∧ s.atPort (.completion t r) = [] ∧
   s.gongFree (gongPort (.completion t r)) = true ∧ d.st = .admitted j) ∧
  (let t : Fin 64 := 1
   let r : Fin 8 := 0
   let s : State := live.setRing 1 0 { enable := true, markerDue := true }
   (s.ring t r).enable = true ∧ (s.ring t r).markerDue = true ∧ (s.ring t r).inflight = [] ∧ (s.ring t r).half = none ∧
   (s.ring t r).space = true ∧ s.mayFetch t = true ∧ s.atPort (.marker t r) = [] ∧
   s.gongFree (gongPort (.marker t r)) = true) :=
  by and_intros <;> first | decide | exact not_gongFree _ _ rfl | (intro j h; cases h)

theorem test_meets_CompletionEntryLayout :
  let ph : Nat := 255
  let r : Nat := 255
  ph < 256 ∧ r < 256 :=
  by decide

theorem test_meets_EventOfASource :
  (let n : Nat := 511
   let s : State := live
   (s.src n).pending = false ∧ (s.src n).active = false) ∧
  (let n : Nat := 384
   let s : State := live.setSrc 384 { pending := true }
   ((s.src n).pending = true ∨ (s.src n).active = true)) ∧
  (let n : Nat := 0
   let m : Nat := 1
   m ≠ n) :=
  by and_intros <;> decide

theorem test_meets_GongAndPins :
  (let q : Requester := .fn 0
   let s : State := live
   access q (.blk 0x500000) false s = .go) ∧
  (let q : Requester := .fn 0
   let s : State := live
   access q (.blk 0x500010) false s = .go) ∧
  (let e : GongRequest := .source 511
   let s : State := { live with gng := { live.gng with
    held := [.source 511], passed := [(gongPort (.source 511), [gongPort (.source 511)])] } }
   s.on domMGT = true ∧ (s.atPort e).head? = some e ∧ ∀ w ∈ s.gng.passed, w.1 = gongPort e ∨ gongPort e ∉ w.2) ∧
  (let e : GongRequest := .stamp 1023
   let s : State := live
   s.on domMGT = true ∧ ((s.atPort e).head? ≠ some e ∨ (∃ w ∈ s.gng.passed, w.1 ≠ gongPort e ∧ gongPort e ∈ w.2))) ∧
  (let n : Fin 512 := 511
   let s : State := live
   s.on domMGT = true ∧ reservedSource n = false ∧ isPin n = false ∧ s.atPort (.source n) = [] ∧
   s.gongFree (gongPort (.source n)) = true) ∧
  (let n : Fin 512 := 511
   let s : State := { live with gng := { live.gng with held := [.source 511] } }
   s.on domMGT = true ∧ reservedSource n = false ∧ isPin n = false ∧ s.atPort (.source n) ≠ []) ∧
  (let k : Fin 20 := 15
   let b : Bool := false
   let s : State := { live with car := { live.car with levels := 0x8000 } }
   s.ckAon = true ∧ bit s.car.levels k = !b ∧ s.drivenOther k b = false ∧ senses (s.src (384 + k)).sense b = false) ∧
  (let k : Fin 20 := 0
   let b : Bool := true
   let s : State := live.setDom domMGT false
   s.ckAon = true ∧ bit s.car.levels k = !b ∧ s.drivenOther k b = false ∧ senses (s.src (384 + k)).sense b = true ∧
   s.on domMGT = false) ∧
  (let k : Fin 20 := 16
   let b : Bool := false
   let e : GongRequest := .source (384 + k)
   let s : State := { live with car := { live.car with levels := 0x10000 } }.setSrc 400 { sense := 1 }
   s.ckAon = true ∧ bit s.car.levels k = !b ∧ s.drivenOther k b = false ∧ senses (s.src (384 + k)).sense b = true ∧
   s.on domMGT = true ∧ s.atPort e = [] ∧ s.gongFree (gongPort e) = true) ∧
  (let k : Fin 20 := 15
   let b : Bool := true
   let s : State := { live with brd := { live.brd with gpDir := 0x8000 } }
   s.ckAon = true ∧ bit s.car.levels k = !b ∧ s.drivenOther k b = true) ∧
  (let k : Fin 20 := 0
   let b : Bool := false
   let s : State := live
   bit s.car.levels k = b) ∧
  (let k : Fin 20 := 19
   let b : Bool := true
   let s : State := { live with pwr := { live.pwr with dstate := .d3cold }, car := { live.car with levels := 0, latches := 0 } }
   s.on domAON = true ∧ s.ckAon = false ∧ bit s.car.latches k = false ∧ senses (s.src (384 + k)).sense b = true ∧
   s.hif.pmeEn = false) ∧
  (let s : State := live
   s.ckAon = true ∧ s.on domMGT = true) ∧
  (let k : Fin 20 := 19
   let s : State := { live with car := { live.car with latches := 0x80000 } }
   s.ckAon = true ∧ s.on domMGT = true ∧ s.car.latches = setBit 0 k true ∧ s.atPort (.source (384 + k)) = [] ∧
   s.gongFree (gongPort (.source (384 + k))) = true) :=
  by and_intros <;> first | decide | exact head_atPort _ _ rfl | simp [State.atPort]

theorem test_meets_SourcesAndClaims :
  (let q : Requester := .fn 0
   let n : Fin 512 := 511
   let v : BitVec 32 := 0x000380FF
   let s : State := live
   access q (.blk (baseCAR + 4 * n)) true s = .go ∧ (s.src n).active = false ∧ (s.src n).presented = false ∧
   (s.src n).target = v.extractLsb' 15 3 ∧ (s.src n).vector = v.extractLsb' 18 6 ∧
   (s.src n).sense = v.extractLsb' 12 3) ∧
  (let n : Fin 512 := 511
   let s : State := live.setSrc 511 { pending := true, mask := false, target := 3 }
   s.on domMGT = true ∧ s.boot.stage = .running ∧ (s.src n).target.toNat < 4 ∧ s.selected n = true) ∧
  (let n : Fin 512 := 32
   let s : State := live.setSrc 32 { pending := true, mask := false, target := 4, vector := 16 }
   s.on domMGT = true ∧ s.hostReady n = true ∧ (s.src n).mask = false) ∧
  (let c : Fin 4 := 3
   let n : Nat := 40
   let s : State := live.setSrc 40 { pending := true, mask := false, target := 3, presented := true }
   access (.core c) (.blk (baseCAR + 0x4000 + 0x10 * c)) false s = .go ∧ s.presentedTo c = some n ∧
   s.car.holdoff.find 0 (sourceGroup n) = 0) ∧
  (let c : Fin 4 := 3
   let v : BitVec 32 := 40
   let s : State := (live.setSrc 40 { active := true }).setClaimed 3 [(40, 0)]
   access (.core c) (.blk (baseCAR + 0x4004 + 0x10 * c)) true s = .go ∧
   (s.claimed c).any (fun x => x.1 == fld v 0 9) = true) ∧
  (let q : Requester := .fn 0
   let w : Fin 16 := 15
   let s : State := live
   access q (.blk (baseCAR + 0x800 + 4 * w)) true s = .go) ∧
  (let q : Requester := .fn 0
   let n : Fin 512 := 511
   let v : BitVec 32 := 0x80000000
   let s : State := live
   access q (.blk (baseCAR + 0x1000 + 4 * n)) true s = .go ∧ bit v 31 = true) ∧
  (let q : Requester := .fn 0
   let n : Fin 512 := 511
   let s : State := live
   access q (.blk (baseCAR + 0x2000 + 8 * n)) false s = .go) ∧
  (let q : Requester := .core 2
   let c : Fin 4 := 3
   let s : State := live
   ((∀ d : Fin 4, q = .core d → d ≠ c)) ∧ access q (.blk (baseCAR + 0x4000 + 0x10 * c)) false s = .go) ∧
  (let q : Requester := .fn 0
   let c : Fin 4 := 3
   let s : State := live
   ((∀ d : Fin 4, q = .core d → d ≠ c)) ∧ access q (.blk (baseCAR + 0x4004 + 0x10 * c)) true s = .go) ∧
  (let c : Fin 4 := 0
   let s : State := live
   access (.core c) (.blk (baseCAR + 0x4000 + 0x10 * c)) false s = .go ∧ s.presentedTo c = none) ∧
  (let c : Nat := 3
   let n : Nat := 511
   let s : State := live.setSrc 511 { pending := true, mask := false, target := 3 }
   s.boot.stage = .running ∧
   s.car.srcs.find? (fun e => e.2.target.toNat == c && s.selected e.1) = some (n, s.src n)) :=
  by and_intros <;> decide

theorem test_meets_SelectionIsFirst :
  let n : Nat := 40
  let m : Nat := 41
  let s : State := (live.setSrc 40 { pending := true, mask := false, target := 3 }).setSrc 41 { pending := true, mask := false, target := 3 }
  s.selected n = true ∧ m ≠ n ∧ (m, s.src m) ∈ s.car.srcs ∧ s.presentable m = true ∧ (s.src m).mask = false ∧
  (s.src m).target = (s.src n).target :=
  by decide

theorem test_meets_CompletionInterrupts :
  (let t : Fin 64 := 1
   let r : Fin 8 := 0
   let s : State := live.setRing 1 0 { uncovered := 1 }
   (s.ring t r).uncovered ≠ 0) ∧
  (let q : Requester := .fn 1
   let t : Fin 64 := 1
   let r : Fin 8 := 7
   let s : State := live
   access q (.tpg t (0x400 + 8 * r)) true s = .go ∧ (s.ring t r).uncovered = 0) ∧
  (let t : Fin 64 := 1
   let e : Fin 64 := 63
   let s : State := live.setFunc 1 { bme := true, mse := true, msixEn := true, pba := 0x8000000000000000, msix := (List.range 64).map (fun k => (4 * k + 3, 0)) }
   s.tenantExists t = true ∧ bit (s.func t).pba e = true ∧ (s.func t).blocked e = false ∧ s.pwr.dstate = .d0 ∧
   s.hif.l1 = false) ∧
  (let s : State := { live with hif := { live.hif with l1 := true } }
   s.hif.l1 = true ∧ s.pwr.dstate = .d0) ∧
  (let s : State := { live with hif := { live.hif with l1 := true }, pwr := { live.pwr with dstate := .d3hot } }
   s.hif.l1 = true ∧ s.pwr.dstate ≠ .d0) ∧
  (let s : State := live
   s.hif.linkUp = true ∧ (s.func 0).flrBusy = false ∧ s.car.latches = 0) ∧
  (let t : Nat := 2
   let e : Nat := 0
   let s : State := live
   (s.func t).blocked e = true) ∧
  (let t : Nat := 1
   let e : Nat := 0
   let s : State := { live with hif := { live.hif with l1 := true } }.setFunc 1 { bme := true, mse := true, msixEn := true, msix := [(3, 0)] }
   (s.func t).blocked e = false ∧ s.hif.l1 = true) ∧
  (let t : Nat := 1
   let e : Nat := 0
   let s : State := live.setFunc 1 { bme := true, mse := true, msixEn := true, msix := [(3, 0)] }
   (s.func t).blocked e = false ∧ s.hif.l1 = false ∧ s.pwr.dstate = .d0) :=
  by and_intros <;> decide

theorem test_meets_GridCommands :
  (let c : Fin 4 := 3
   let v : BitVec 32 := 0x000013FF
   let s : State := live
   access (.core c) (.blk baseGRD) true s = .go ∧ s.grd.chokeBusy = false ∧ fld v 10 3 ≤ 5 ∧
   (∀ m ∈ s.grd.msgs, m.ports.contains (fld v 0 10, fld v 10 3) = false)) ∧
  (let c : Fin 4 := 0
   let s : State := { live with grd := { live.grd with chokeBusy := true } }
   access (.core c) (.blk baseGRD) true s = .go ∧ s.grd.chokeBusy = true) ∧
  (let i : Fin 1024 := 1023
   let s : State := running 0 { wdog := 2500 }
   (s.tile i).running = true ∧ s.grd.wdogLimit.toNat ≤ (s.tile i).wdog.toNat) ∧
  (let s : State := live
   s.on domMGT = true) ∧
  (let q : Requester := .fn 0
   let i : Fin 1024 := 1023
   let s : State := live
   access q (.blk (tileReg i 0x8)) false s = .go ∧ s.on (domGRID (quadrant i)) = true) ∧
  (let q : Requester := .fn 0
   let s : State := live
   access q (.blk (baseGRD + 0x30)) false s = .go) ∧
  (let i : Nat := 1023
   let s : State := live.setTile 1023 { running := true }
   let m := 0
   (s.tile i).running = true ∧ (s.tile i).job = none ∧ m ≠ i) :=
  by and_intros <;> decide

theorem test_meets_MemoryCommands :
  (let k : Fin 4 := 3
   let s : State := live
   s.on (domMEM k) = true ∧ s.pwr.dstate = .d0 ∧ s.dramHeld k = false ∧
   s.beat (k * stackBytes + (s.stack k).patrol) = none) ∧
  (let q : Requester := .fn 0
   let k : Fin 4 := 3
   let v : BitVec 32 := 0x5A5A0008
   let s : State := live
   access q (.blk (baseMEM + 0x80)) true s = .go ∧ keyed v = true ∧ fld v 0 4 = 2 ^ k.val) ∧
  (let q : Requester := .fn 0
   let k : Fin 4 := 3
   let s : State := live
   access q (.blk (baseMEM + 0x50 + 4 * k)) false s = .go) ∧
  (let q : Requester := .fn 0
   let k : Fin 4 := 3
   let s : State := live
   access q (.blk (baseMEM + 0x60 + 4 * k)) false s = .go) ∧
  (let k : Fin 4 := 3
   let s : State := live.setStack 3 { trained := true, hot := true, cool := 100 }
   (s.stack k).hot = true ∧ 100 ≤ (s.stack k).cool) :=
  by and_intros <;> decide

theorem test_meets_TileArithmetic :
  (let i : Fin 1024 := 1023
   let w : Word := 0x40000000
   let s : State := running 0x40000000 {}
   wFn w = 0 ∧ s.Runs i 0x01 w) ∧
  (let i : Fin 1024 := 1023
   let w : Word := 0x80000000
   let s : State := running 0x80000000 {}
   wFn w = 0 ∧ s.Runs i 0x02 w) ∧
  (let i : Fin 1024 := 1023
   let w : Word := 0xc0000000
   let s : State := running 0xc0000000 {}
   wFn w = 0 ∧ s.Runs i 0x03 w) ∧
  (let i : Fin 1024 := 1023
   let w : Word := 0x100000000
   let s : State := running 0x100000000 {}
   wFn w = 0 ∧ s.Runs i 0x04 w) ∧
  (let i : Fin 1024 := 1023
   let w : Word := 0x140000000
   let s : State := running 0x140000000 {}
   wFn w = 0 ∧ s.Runs i 0x05 w) ∧
  (let i : Fin 1024 := 1023
   let w : Word := 0x180000000
   let s : State := running 0x180000000 {}
   wFn w = 0 ∧ s.Runs i 0x06 w) ∧
  (let i : Fin 1024 := 1023
   let w : Word := 0x1c0000000
   let s : State := running 0x1c0000000 {}
   wFn w = 0 ∧ s.Runs i 0x07 w) ∧
  (let i : Fin 1024 := 1023
   let w : Word := 0x200000000
   let s : State := running 0x200000000 {}
   wFn w = 0 ∧ s.Runs i 0x08 w) ∧
  (let i : Fin 1024 := 1023
   let w : Word := 0x240000000
   let s : State := running 0x240000000 {}
   wFn w = 0 ∧ s.Runs i 0x09 w) ∧
  (let i : Fin 1024 := 1023
   let w : Word := 0x280000000
   let s : State := running 0x280000000 {}
   wFn w = 0 ∧ s.Runs i 0x0A w) ∧
  (let i : Fin 1024 := 1023
   let w : Word := 0x2c0000000
   let s : State := running 0x2c0000000 {}
   wFn w = 0 ∧ s.Runs i 0x0B w) ∧
  (let i : Fin 1024 := 1023
   let w : Word := 0x3000fffff
   let s : State := running 0x3000fffff {}
   s.Runs i 0x0C w) ∧
  (let i : Fin 1024 := 1023
   let w : Word := 0x3400fffff
   let s : State := running 0x3400fffff {}
   s.Runs i 0x0D w) ∧
  (let i : Fin 1024 := 1023
   let w : Word := 0x3800fffff
   let s : State := running 0x3800fffff {}
   s.Runs i 0x0E w) ∧
  (let i : Fin 1024 := 1023
   let w : Word := 0x3c00fffff
   let s : State := running 0x3c00fffff {}
   s.Runs i 0x0F w) ∧
  (let i : Fin 1024 := 1023
   let w : Word := 0x40000003f
   let s : State := running 0x40000003f {}
   s.Runs i 0x10 w ∧ wImm w ≤ 63) ∧
  (let i : Fin 1024 := 1023
   let w : Word := 0x44000003f
   let s : State := running 0x44000003f {}
   s.Runs i 0x11 w ∧ wImm w ≤ 63) ∧
  (let i : Fin 1024 := 1023
   let w : Word := 0x48000003f
   let s : State := running 0x48000003f {}
   s.Runs i 0x12 w ∧ wImm w ≤ 63) ∧
  (let i : Fin 1024 := 1023
   let w : Word := 0x4c0000000
   let s : State := running 0x4c0000000 {}
   s.Runs i 0x13 w) ∧
  (let i : Fin 1024 := 1023
   let w : Word := 0xfc0000000
   let s : State := running 0xfc0000000 {}
   s.Runs i 0x3F w) ∧
  (let n : Nat := 31
   n ≠ 0) ∧
  (let n : Nat := 1
   let m : Nat := 31
   m ≠ n) :=
  by and_intros <;> first | decide | rfl | (constructor <;> decide)

theorem test_meets_TileIllegalAndFaulting :
  (let i : Fin 1024 := 1023
   let w : Word := 0x3fffffff
   let s : State := running 0x3fffffff {}
   s.Runs i 0x00 w) ∧
  (let i : Fin 1024 := 1023
   let w : Word := 0x40000001
   let s : State := running 0x40000001 {}
   wFn w ≠ 0 ∧ s.Runs i 0x01 w) ∧
  (let i : Fin 1024 := 1023
   let w : Word := 0x240000001
   let s : State := running 0x240000001 {}
   wFn w ≠ 0 ∧ s.Runs i 0x09 w) ∧
  (let i : Fin 1024 := 1023
   let w : Word := 0x2c0000001
   let s : State := running 0x2c0000001 {}
   wFn w ≠ 0 ∧ s.Runs i 0x0B w) ∧
  (let i : Fin 1024 := 1023
   let w : Word := 0x400000040
   let s : State := running 0x400000040 {}
   63 < wImm w ∧ s.Runs i 0x10 w) ∧
  (let i : Fin 1024 := 1023
   let w : Word := 0x480000040
   let s : State := running 0x480000040 {}
   63 < wImm w ∧ s.Runs i 0x12 w) ∧
  (let i : Fin 1024 := 1023
   let w : Word := 0x500100000
   let s : State := running 0x500100000 { g := [(1, 262144)] }
   let x := s.tile i
   let a := (x.reg (wRs1 w) + (w.extractLsb' 0 20).signExtend 36).toNat
   262144 < a + 1 ∧ s.Runs i 0x14 w) ∧
  (let i : Fin 1024 := 1023
   let w : Word := 0x600100000
   let s : State := running 0x600100000 { g := [(1, 262141)] }
   let x := s.tile i
   let a := (x.reg (wRs1 w) + (w.extractLsb' 0 20).signExtend 36).toNat
   262144 < a + 4 ∧ s.Runs i 0x18 w) ∧
  (let i : Fin 1024 := 1023
   let w : Word := 0x580100000
   let s : State := running 0x580100000 { g := [(1, 262139)] }
   let x := s.tile i
   let a := (x.reg (wRs1 w) + (w.extractLsb' 0 20).signExtend 36).toNat
   a + 4 ≤ 262144 ∧ a % 4 ≠ 0 ∧ s.Runs i 0x16 w) ∧
  (let i : Fin 1024 := 1023
   let w : Word := 0x600100000
   let s : State := running 0x600100000 { g := [(1, 262139)] }
   let x := s.tile i
   let a := (x.reg (wRs1 w) + (w.extractLsb' 0 20).signExtend 36).toNat
   a + 4 ≤ 262144 ∧ a % 4 ≠ 0 ∧ s.Runs i 0x18 w) :=
  by and_intros <;> first | decide | rfl | (constructor <;> decide)

theorem test_meets_TileLoadsAndStores :
  (let i : Fin 1024 := 1023
   let w : Word := 0x500100000
   let s : State := running 0x500100000 { g := [(1, 262143)] }
   let x := s.tile i
   let a := (x.reg (wRs1 w) + (w.extractLsb' 0 20).signExtend 36).toNat
   s.Runs i 0x14 w ∧ x.Allows [{ write := false, addr := a, n := 1 }]) ∧
  (let i : Fin 1024 := 1023
   let w : Word := 0x540100000
   let s : State := running 0x540100000 { g := [(1, 262143)] }
   let x := s.tile i
   let a := (x.reg (wRs1 w) + (w.extractLsb' 0 20).signExtend 36).toNat
   s.Runs i 0x15 w ∧ x.Allows [{ write := false, addr := a, n := 1 }]) ∧
  (let i : Fin 1024 := 1023
   let w : Word := 0x580100000
   let s : State := running 0x580100000 { g := [(1, 262140)] }
   let x := s.tile i
   let a := (x.reg (wRs1 w) + (w.extractLsb' 0 20).signExtend 36).toNat
   s.Runs i 0x16 w ∧ x.Allows [{ write := false, addr := a, n := 4, align := 4 }]) ∧
  (let i : Fin 1024 := 1023
   let w : Word := 0x5c0100000
   let s : State := running 0x5c0100000 { g := [(1, 262143)] }
   let x := s.tile i
   let a := (x.reg (wRs1 w) + (w.extractLsb' 0 20).signExtend 36).toNat
   s.Runs i 0x17 w ∧ x.Allows [{ write := true, addr := a, n := 1 }]) ∧
  (let i : Fin 1024 := 1023
   let w : Word := 0x600100000
   let s : State := running 0x600100000 { g := [(1, 262140)] }
   let x := s.tile i
   let a := (x.reg (wRs1 w) + (w.extractLsb' 0 20).signExtend 36).toNat
   s.Runs i 0x18 w ∧ x.Allows [{ write := true, addr := a, n := 4, align := 4 }]) :=
  by and_intros <;> first | decide | rfl | (constructor <;> decide)

theorem test_meets_TileBranches :
  (let i : Fin 1024 := 1023
   let w : Word := 0x640003fff
   let s : State := running 0x640003fff {}
   let x := s.tile i
   let t : Int := x.pc.toNat + ((w.extractLsb' 0 20).signExtend 36 : Word).toInt
   0 ≤ t ∧ t ≤ 16383 ∧ s.Runs i 0x19 w) ∧
  (let i : Fin 1024 := 1023
   let w : Word := 0x680000000
   let s : State := running 0x680000000 {}
   let x := s.tile i
   let t : Int := x.pc.toNat + ((w.extractLsb' 0 20).signExtend 36 : Word).toInt
   0 ≤ t ∧ t ≤ 16383 ∧ s.Runs i 0x1A w) ∧
  (let i : Fin 1024 := 1023
   let w : Word := 0x6c0003fff
   let s : State := running 0x6c0003fff {}
   let x := s.tile i
   let t : Int := x.pc.toNat + ((w.extractLsb' 0 20).signExtend 36 : Word).toInt
   0 ≤ t ∧ t ≤ 16383 ∧ s.Runs i 0x1B w) ∧
  (let i : Fin 1024 := 1023
   let w : Word := 0x700003fff
   let s : State := running 0x700003fff {}
   let x := s.tile i
   let t : Int := x.pc.toNat + ((w.extractLsb' 0 20).signExtend 36 : Word).toInt
   0 ≤ t ∧ t ≤ 16383 ∧ s.Runs i 0x1C w) ∧
  (let i : Fin 1024 := 1023
   let w : Word := 0x740003fff
   let s : State := running 0x740003fff {}
   let x := s.tile i
   let t : Int := x.pc.toNat + ((w.extractLsb' 0 20).signExtend 36 : Word).toInt
   0 ≤ t ∧ t ≤ 16383 ∧ s.Runs i 0x1D w) ∧
  (let i : Fin 1024 := 1023
   let w : Word := 0x780003fff
   let s : State := running 0x780003fff {}
   let x := s.tile i
   let t : Int := x.pc.toNat + ((w.extractLsb' 0 20).signExtend 36 : Word).toInt
   0 ≤ t ∧ t ≤ 16383 ∧ s.Runs i 0x1E w) ∧
  (let i : Fin 1024 := 1023
   let w : Word := 0x7c0003fff
   let s : State := running 0x7c0003fff {}
   let x := s.tile i
   let t : Int := x.pc.toNat + ((w.extractLsb' 0 20).signExtend 36 : Word).toInt
   0 ≤ t ∧ t ≤ 16383 ∧ s.Runs i 0x1F w ∧ wRs1 w = 0) ∧
  (let i : Fin 1024 := 1023
   let w : Word := 0x800003fff
   let n : Nat := 16383
   let s : State := running 0x800003fff {}
   let x := s.tile i
   (x.reg (wRs1 w) + (w.extractLsb' 0 20).signExtend 36).toNat = n ∧ n ≤ 16383 ∧ s.Runs i 0x20 w) :=
  by and_intros <;> first | decide | rfl | (constructor <;> decide)

theorem test_meets_TileVectors :
  (let i : Fin 1024 := 1023
   let w : Word := 0x840002000
   let s : State := running 0x840002000 { g := [(1, 262080)] }
   let x := s.tile i
   let a := (x.reg (wVrs w)).toNat
   s.Runs i 0x21 w ∧ wVfn w = 0 ∧ x.Allows [{ write := false, addr := a, n := 64, align := 8 }]) ∧
  (let i : Fin 1024 := 1023
   let w : Word := 0x880002000
   let s : State := running 0x880002000 { g := [(1, 262080)] }
   let x := s.tile i
   let a := (x.reg (wVrs w)).toNat
   s.Runs i 0x22 w ∧ wVfn w = 0 ∧ x.Allows [{ write := true, addr := a, n := 64, align := 8 }]) ∧
  (let i : Fin 1024 := 1023
   let w : Word := 0x8c0000600
   let s : State := running 0x8c0000600 {}
   let f : Fmt := .n9
   vecFmt w = some f ∧ s.Runs i 0x23 w) ∧
  (let i : Fin 1024 := 1023
   let w : Word := 0x900000a00
   let s : State := running 0x900000a00 {}
   let f : Fmt := .s18
   vecFmt w = some f ∧ s.Runs i 0x24 w) ∧
  (let i : Fin 1024 := 1023
   let w : Word := 0x940000c00
   let s : State := running 0x940000c00 {}
   let f : Fmt := .s36
   vecFmt w = some f ∧ s.Runs i 0x25 w) ∧
  (let i : Fin 1024 := 1023
   let w : Word := 0x980001800
   let s : State := running 0x980001800 {}
   let f : Fmt := .f18
   vecFmt w = some f ∧ s.Runs i 0x26 w) ∧
  (let i : Fin 1024 := 1023
   let w : Word := 0x9c0001a00
   let s : State := running 0x9c0001a00 {}
   let f : Fmt := .f36
   vecFmt w = some f ∧ s.Runs i 0x27 w) ∧
  (let i : Fin 1024 := 1023
   let w : Word := 0xa00000600
   let s : State := running 0xa00000600 {}
   let f : Fmt := .n9
   vecFmt w = some f ∧ s.Runs i 0x28 w) ∧
  (let i : Fin 1024 := 1023
   let w : Word := 0xa40000600
   let s : State := running 0xa40000600 {}
   let f : Fmt := .n9
   vecFmt w = some f ∧ s.Runs i 0x29 w ∧ wVsub w = 0) ∧
  (let i : Fin 1024 := 1023
   let w : Word := 0xa80000600
   let s : State := running 0xa80000600 {}
   let f : Fmt := .n9
   vecFmt w = some f ∧ s.Runs i 0x2A w) ∧
  (let i : Fin 1024 := 1023
   let w : Word := 0xac00c1a00
   let s : State := running 0xac00c1a00 {}
   let src : Fmt := .n9
   let tgt : Fmt := .f36
   s.Runs i 0x2B w ∧ Fmt.ofCode (wVs2 w) = some src ∧ Fmt.ofCode (wVfmt w) = some tgt ∧ tilePair src tgt = true ∧
   ((wVsub w % 4 < 2 ∨ (src.elements ≠ 32 ∧ tgt.elements ≠ 32)))) :=
  by and_intros <;> first | decide | rfl | (constructor <;> decide)

theorem test_meets_TileMatrix :
  (let i : Fin 1024 := 1023
   let w : Word := 0xb00800001
   let s : State := running 0xb00800001 { g := [(1, 261120)] }
   let x := s.tile i
   let a := (x.reg (wM1 w)).toNat
   s.Runs i 0x2C w ∧ wM2 w = 0 ∧ wMfn w ≤ 1 ∧ x.Allows [{ write := false, addr := a, n := 1024, align := 64 }]) ∧
  (let i : Fin 1024 := 1023
   let w : Word := 0xb40800f80
   let s : State := running 0xb40800f80 { g := [(1, 261120)] }
   let x := s.tile i
   let a := (x.reg (wM1 w)).toNat
   let n := wRows w
   s.Runs i 0x2D w ∧ wM2 w = 0 ∧ wR0 w + n ≤ 32 ∧ x.Allows [{ write := false, addr := a, n := 32 * n, align := 8 }]) ∧
  (let i : Fin 1024 := 1023
   let w : Word := 0xb80880f80
   let s : State := running 0xb80880f80 { g := [(1, 0), (2, 262080)] }
   let x := s.tile i
   let a := (x.reg (wM1 w)).toNat
   let n := wRows w
   s.Runs i 0x2E w ∧ wMfn w % 4 = 0 ∧ wR0 w + n ≤ 32 ∧
   x.Allows [{ write := false, addr := a, n := 32 * n, align := 8 }, { write := false, addr := fld (x.reg (wM2 w)) 0 18, n := 64, align := 64 }]) ∧
  (let i : Fin 1024 := 1023
   let w : Word := 0xbc0000000
   let s : State := running 0xbc0000000 {}
   s.Runs i 0x2F w ∧ wM1 w = 0 ∧ wM2 w = 0 ∧ wMfn w = 0) ∧
  (let i : Fin 1024 := 1023
   let w : Word := 0xc00800f80
   let s : State := running 0xc00800f80 { g := [(1, 258048)] }
   let x := s.tile i
   let a := (x.reg (wM1 w)).toNat
   let n := wRows w
   s.Runs i 0x30 w ∧ wR0 w + n ≤ 32 ∧ x.Allows [{ write := false, addr := a, n := 128 * n, align := 4 }]) ∧
  (let i : Fin 1024 := 1023
   let w : Word := 0xc4080007c
   let s : State := running 0xc4080007c { g := [(1, 262016)] }
   let x := s.tile i
   let a := (x.reg (wM1 w)).toNat
   let n := wRows w
   s.Runs i 0x31 w ∧ wR0 w + n ≤ 32 ∧ x.Allows [{ write := true, addr := a, n := 128 * n, align := 4 }]) :=
  by and_intros <;> first | decide | rfl | (constructor <;> decide)

theorem test_meets_TileQuantise :
  let i : Fin 1024 := 1023
  let w : Word := 0xc8088c07c
  let s : State := running 0xc8088c07c { g := [(1, 0), (2, 261952)] }
  let f : Fmt := .n9
  let stride : Nat := 32
  s.Runs i 0x32 w ∧ Fmt.ofCode (fld w 14 4) = some f ∧ qntStride f = some stride ∧ bit w 13 = false ∧ (
  let x := s.tile i
  let n := fld w 2 5 + 1
  let out := (x.reg (wM1 w)).toNat
  let pb := (x.reg (wM2 w)).toNat
  x.Allows [{ write := false, addr := pb, n := 192, align := 64 }, { write := true, addr := out, n := stride * n }]) :=
  by and_intros <;> first | decide | rfl | (constructor <;> decide)

theorem test_meets_TileTransfers :
  (let i : Fin 1024 := 1023
   let w : Word := 0xcc01100ff
   let s : State := running 0xcc01100ff { g := [(1, 15270994574), (2, 3840)] }
   let x := s.tile i
   let n := wFn w + 1
   let dl := (x.reg (wRs1 w)).toNat
   let sl := (x.reg (wRs2 w)).toNat
   wRd w = 0 ∧ wFn w < 256 ∧ sl + n ≤ 4096 ∧ 72 * (dl + n) ≤ 2 ^ 40 ∧ x.xfers.length < 8 ∧ s.Runs i 0x33 w ∧
   x.Allows [{ write := true, addr := 64 * sl, n := 64 * n }]) ∧
  (let i : Fin 1024 := 1023
   let w : Word := 0xd001100ff
   let s : State := running 0xd001100ff { g := [(1, 15270994574), (2, 3840)] }
   let x := s.tile i
   let n := wFn w + 1
   let dl := (x.reg (wRs1 w)).toNat
   let sl := (x.reg (wRs2 w)).toNat
   wRd w = 0 ∧ wFn w < 256 ∧ sl + n ≤ 4096 ∧ 72 * (dl + n) ≤ 2 ^ 40 ∧ x.xfers.length < 8 ∧ s.Runs i 0x34 w ∧
   x.Allows [{ write := false, addr := 64 * sl, n := 64 * n }]) ∧
  (let i : Fin 1024 := 1023
   let w : Word := 0xd40000007
   let s : State := running 0xd40000007 {}
   s.Runs i 0x35 w ∧ wImm w ≤ 7 ∧ wRd w = 0 ∧ wRs1 w = 0) ∧
  (let i : Fin 1024 := 1023
   let n : Fin 8 := 0
   let t : Xfer := { store := false, dline := 0, sline := 4095, lines := 1, pc := 0, tenant := 1, job := 7 }
   let s : State := running 0 { xfers := [t] }
   let u : State := (moveIn 1023 t 1 0 (s.setTile 1023 { s.tile 1023 with xfers := [] })).2
   (s.tile i).xfers[n.val]? = some t ∧ s.requestsDue t = false ∧
   s.claimedIn t.tenant (72 * t.dline) (72 * t.lines) = false ∧
   (if t.store then moveOut i t t.lines 0 (s.setTile i { s.tile i with xfers := (s.tile i).xfers.eraseIdx n })
     else moveIn i t t.lines 0 (s.setTile i { s.tile i with xfers := (s.tile i).xfers.eraseIdx n })) = (.all, u)) :=
  by and_intros <;> first | decide | rfl | (constructor <;> decide)

theorem test_meets_TileMessages :
  (let i : Fin 1024 := 1023
   let w : Word := 0xd80000000
   let s : State := running 0xd80000000 {}
   let m : Msg := { src := 1023, dst := 0, unit := 0, tag := 5, mailbox := 0, lanes := [headerLane 1 1023 5 0], outward := true }
   s.Runs i 0x36 w ∧ sendOut i s w (s.tile i) = .inr m) ∧
  (let i : Fin 1024 := 1023
   let rd : BitVec 5 := 31
   let s : State := running 0 { sending := some 31, choked := true }
   (s.tile i).sending = some rd ∧ ((s.tile i).choked = true ∨ s.allLeft i = true)) ∧
  (let i : Fin 1024 := 0
   let rd : BitVec 5 := 0
   let s : State := live.setTile 0 { sending := some 0 }
   (s.tile i).sending = some rd ∧ ((s.tile i).choked = true ∨ s.allLeft i = true)) ∧
  (let i : Fin 1024 := 1023
   let w : Word := 0xdc000000f
   let s : State := running 0xdc000000f { mbox := [(15, { base := 0, size := 4, prod := 1 })] }
   wImm w < 16 ∧ wRs1 w = 0 ∧ (
   let x := s.tile i
   let b := x.box (wImm w)
   s.Runs i 0x37 w ∧ b.size ≠ 0 ∧ b.prod ≠ b.cons)) ∧
  (let i : Fin 1024 := 1023
   let w : Word := 0xdc000000f
   let s : State := running 0xdc000000f { mbox := [(15, { base := 0, size := 4 })] }
   wImm w < 16 ∧ wRs1 w = 0 ∧ (
   let x := s.tile i
   let b := x.box (wImm w)
   s.Runs i 0x37 w ∧ b.size ≠ 0 ∧ b.prod = b.cons)) ∧
  (let i : Fin 1024 := 1023
   let w : Word := 0xe0000000f
   let s : State := running 0xe0000000f { mbox := [(15, { base := 0, size := 4, prod := 1 })] }
   wImm w < 16 ∧ wRs1 w = 0 ∧ (
   let x := s.tile i
   let b := x.box (wImm w)
   s.Runs i 0x38 w ∧ b.size ≠ 0 ∧ b.prod ≠ b.cons ∧ x.Allows [{ write := false, addr := 8 * b.headLane, n := 8 }])) ∧
  (let i : Fin 1024 := 1023
   let w : Word := 0xe8000000f
   let s : State := running 0xe8000000f {}
   wImm w < 16 ∧ wRs1 w = 0 ∧ s.Runs i 0x3A w) ∧
  (let i : Fin 1024 := 1023
   let w : Word := 0xe5e110000
   let s : State := running 0xe5e110000 { g := [(1, 32767), (2, 1)] }
   s.Runs i 0x39 w ∧ wFn w = 0 ∧ wRd w ≤ 15 ∧ (
   let x := s.tile i
   let base := (x.reg (wRs1 w)).toNat
   let size := (x.reg (wRs2 w)).toNat
   (x.box (wRd w)).size = 0 ∧ base + size ≤ 32768 ∧
    ((∀ e ∈ x.mbox, e.1 = wRd w ∨ e.2.size = 0 ∨ base + size ≤ e.2.base.toNat ∨ e.2.base.toNat + e.2.size.toNat ≤ base)))) ∧
  (let m : Nat := 0
   let x : Msg := { src := 1023, dst := 1023, unit := 0, tag := 5, mailbox := 15, lanes := [0, 0, 0, 0], bufs := [1], entered := 1 }
   let s : State := { running 0 { mbox := [(15, { base := 0, size := 4 })] } with
     grd := { (running 0 { mbox := [(15, { base := 0, size := 4 })] }).grd with msgs := [x] } }
   s.grd.msgs[m]? = some x ∧ x.outward = false ∧ x.arrived = true ∧ (s.grd.msgs.take m).any (Msg.samePair x) = false ∧
   (s.tile x.dst).tag ≠ 0 ∧ (s.tile x.dst).tag = x.tag ∧ (
   let b := (s.tile x.dst).box x.mailbox.toNat
   b.size ≠ 0 ∧ x.lanes.length + b.used ≤ b.size.toNat)) ∧
  (let m : Nat := 0
   let x : Msg := { src := 1022, dst := 1023, unit := 0, tag := 5, mailbox := 15, lanes := [0, 0, 0, 0], bufs := [2, 2], entered := 4 }
   let s : State := { live with grd := { live.grd with msgs := [x] } }
   s.grd.msgs[m]? = some x ∧ x.outward = false ∧ x.arrived = true ∧ (s.grd.msgs.take m).any (Msg.samePair x) = false ∧
   ((s.tile x.dst).tag = 0 ∨ (s.tile x.dst).tag ≠ x.tag)) :=
  by and_intros <;> first | decide | rfl | (constructor <;> decide)

theorem test_meets_TileControl :
  (let i : Fin 1024 := 1023
   let w : Word := 0xec0000000
   let d : Decl := default
   let j : Job := { aJob with man := { decls := [default] } }
   let s : State := { running 0xec0000000 {} with sch := { live.sch with jobs := [j] } }
   s.Runs i 0x3B w ∧ wImm w < 65536 ∧ wRd w = 0 ∧ wRs1 w = 0 ∧ s.jobOf i = some j ∧ j.phase ≠ .preempting ∧
   j.man.decls[wImm w]? = some d ∧ (s.tile i).mbox = [] ∧ (s.tile i).xfers = []) ∧
  (let i : Fin 1024 := 1023
   let w : Word := 0xf3c000000
   let s : State := running 0xf3c000000 {}
   s.Runs i 0x3C w ∧ wRd w % 2 = 0 ∧ 2 ≤ wRd w ∧ wImm w = 0 ∧ wRs1 w = 0 ∧
   s.atPort (.stamp i) = [] ∧ s.gongFree (gongPort (.stamp i)) = true) ∧
  (let i : Fin 1024 := 1023
   let w : Word := 0xf40000007
   let s : State := running 0xf40000007 {}
   let v : Word := 1
   s.Runs i 0x3D w ∧ wRs1 w = 0 ∧ sysValue i s (s.tile i) (wImm w) = some v) ∧
  (let i : Fin 1024 := 1023
   let w : Word := 0xf80000000
   let j : Job := { aJob with origin := 1022, man := { width := 2 } }
   let s : State := { running 0xf80000000 {} with sch := { live.sch with jobs := [j] } }
   s.Runs i 0x3E w ∧ w.toNat % 2 ^ 30 = 0 ∧ (s.tile i).xfers = [] ∧ s.jobOf i = some j ∧
   (s.setTile i { s.tile i with running := false, ended := true, wdog := 0 }).allEnded j = false) :=
  by and_intros <;> first | decide | rfl | (constructor <;> decide)

theorem test_meets_DescriptorChecks :
  (let t : Fin 64 := 1
   let r : Fin 8 := 0
   let d : Inflight := { seq := 0, desc := List.replicate 64 0, st := .fetched }
   let s : State := live.setRing 1 0 { enable := true, inflight := [d] }
   (s.ring t r).unchecked = some d ∧ le d.desc 0 1 = 0 ∧ s.firmware (coreOf t) = true ∧ badByte d.seq d.desc = none) ∧
  (let t : Fin 64 := 1
   let r : Fin 8 := 0
   let d : Inflight := { seq := 1, desc := List.replicate 64 0, st := .fetched }
   let s : State := live.setRing 1 0 { enable := true, inflight := [d] }
   let b := 60
   (s.ring t r).unchecked = some d ∧ le d.desc 0 1 = 0 ∧ s.firmware (coreOf t) = true ∧ badByte d.seq d.desc = some b) ∧
  (let t : Fin 64 := 1
   let r : Fin 8 := 0
   let d : Inflight := { seq := 0, desc := [1] ++ List.replicate 63 0, st := .fetched }
   let s : State := live.setRing 1 0 { enable := true, inflight := [d] }
   (s.ring t r).unchecked = some d ∧ le d.desc 0 1 ≠ 0 ∧ fenced d.desc = false ∧
    (s.ring t r).clearBefore d.seq = true ∧ s.checking t = true ∧
   s.checkWaits t d.desc = false) ∧
  (let t : Fin 64 := 1
   let r : Fin 8 := 0
   let d : Inflight := { seq := 0, desc := [1, 4] ++ List.replicate 62 0, st := .fetched }
   let s : State := live.setRing 1 0 { enable := true, inflight := [d] }
   let rest : List Inflight := []
   (s.ring t r).inflight = d :: rest ∧ d.st = .fetched ∧ le d.desc 0 1 ≠ 0 ∧ fenced d.desc = true ∧
    s.checking t = true ∧
   s.checkWaits t d.desc = false) ∧
  (let d : Inflight := { seq := 1, desc := List.replicate 64 0, st := .fetched }
   let b : Nat := 60
   badByte d.seq d.desc = some b) ∧
  (let d : Inflight := { seq := 0, desc := [1] ++ List.replicate 30 0 ++ [16] ++ List.replicate 32 0, st := .fetched }
   let t : Nat := 1
   let hdr : List Byte := []
   let s : State := live
   let c : Cpl := cpl stFormat 31
   badByte d.seq d.desc = none ∧ s.tagReads t d.desc = [] ∧ s.sourceCheck t d.desc hdr = .inl c) ∧
  (let d : Inflight := { seq := 0, desc := [1] ++ List.replicate 55 0 ++ [1, 0, 0, 4] ++ List.replicate 4 0, st := .fetched }
   let t : Nat := 1
   let hdr : List Byte := []
   let s : State := live
   let m : Option Dims := none
   let c : Cpl := cpl stFormat 56
   badByte d.seq d.desc = none ∧ s.tagReads t d.desc = [] ∧ s.sourceCheck t d.desc hdr = .inr m ∧
   (countLookup d.desc (emitReads t (dInAddr d.desc) (s.headerBytes t d.desc) s)).auxCheck t d.desc m = some c) ∧
  (let d : Inflight := { seq := 0, desc := [1] ++ List.replicate 63 0, st := .fetched }
   let t : Nat := 1
   let hdr : List Byte := []
   let s : State := live
   let m : Option Dims := none
   badByte d.seq d.desc = none ∧ s.tagReads t d.desc = [] ∧ s.sourceCheck t d.desc hdr = .inr m ∧
   (countLookup d.desc (emitReads t (dInAddr d.desc) (s.headerBytes t d.desc) s)).auxCheck t d.desc m = none) ∧
  (let j : Job := { aJob with desc := [1] ++ List.replicate 63 0, man := { spans := true } }
   let s : State := { live with pwr := { live.pwr with domHold := 0x4000 } }
   let c := cpl stLimit 6
   s.domainCheck j.tenant j.desc j.man = some c) ∧
  (let j : Job := { aJob with tenant := 2, desc := [1] ++ List.replicate 63 0 }
   let s : State := live
   let c := cpl stTiles 0
   s.domainCheck j.tenant j.desc j.man = none ∧ s.tileCheck j.tenant j.man = some c) ∧
  (let j : Job := { aJob with phase := .waiting, desc := [1] ++ List.replicate 63 0 }
   let s : State := { live with sch := { live.sch with tens := [(1, { limit := 1024, spillLines := 8 })] } }
   let u : State := s
   s.domainCheck j.tenant j.desc j.man = none ∧ s.tileCheck j.tenant j.man = none ∧
   readChecks schBlock j.tenant j.ring { seq := j.seq, desc := j.desc, st := .fetched } j.man.chanReads s = (true, u) ∧
   u.tooManyOutliers j.tenant j.man = false ∧
   ((j.man.spans = false → (u.spillRun j.tenant j.man.spill).isSome = true)) ∧
   u.bandwidthExcess j.tenant j.man.bw = 0) ∧
  (let j : Job := { aJob with phase := .waiting, desc := [1] ++ List.replicate 63 0, man := { bw := 10001 } }
   let s : State := { live with sch := { live.sch with tens := [(1, { limit := 1024, spillLines := 8 })] } }
   let u : State := s
   s.domainCheck j.tenant j.desc j.man = none ∧ s.tileCheck j.tenant j.man = none ∧
   readChecks schBlock j.tenant j.ring { seq := j.seq, desc := j.desc, st := .fetched } j.man.chanReads s = (true, u) ∧
   u.tooManyOutliers j.tenant j.man = false ∧
   ((j.man.spans = false → (u.spillRun j.tenant j.man.spill).isSome = true)) ∧
   u.bandwidthExcess j.tenant j.man.bw ≠ 0) :=
  ⟨by decide, by decide, by decide, by decide, by decide, ⟨by decide, rfl, rfl⟩, ⟨by decide, rfl, rfl, rfl⟩,
   ⟨by decide, rfl, rfl, rfl⟩, rfl,
   ⟨by decide, by simp [State.tileCheck, State.schTen, Tbl.find, live, aJob, State.reset]⟩,
   ⟨rfl, tileCheck_one _ rfl (by decide), rfl, rfl, by decide, by decide⟩,
   ⟨rfl, tileCheck_one _ rfl (by decide), rfl, rfl, by decide, by decide⟩⟩

set_option maxRecDepth 20000 in
theorem test_meets_SchedulerCommands :
  (let id : Nat := 7
   let o : Nat := 0
   let j : Job := { aJob with phase := .waiting }
   let s : State := withJob j
   s.order = [id] ∧ s.job? id = some j ∧ j.queued = true ∧ s.placing j.tenant = true ∧ s.heldBack j = false ∧
   j.kept = none ∧ j.phase = .waiting ∧ j.find (s.tileFree id) = some o) ∧
  (let id : Nat := 7
   let p : Nat := 0
   let j : Job := { aJob with phase := .waiting, passedAt := some 0 }
   let s : State := { withJob j with now := 2500000 }
   s.job? id = some j ∧ j.queued = true ∧ j.passedAt = some p ∧ p + 2500000 ≤ s.now) ∧
  (let k : Nat := 1
   let id : Nat := 7
   let o : Nat := 0
   let j : Job := { aJob with id := 1, tenant := 2, origin := 0, ran := 250000 }
   let s : State := ({ live with sch := { live.sch with slice := 1, tens := [(1, { limit := 1024 }), (2, { limit := 1024, used := 1 })], jobs := [j, { aJob with phase := .waiting, passedAt := some 0 }] } }).setTile 0 { running := true, tag := 5, job := some 1 }
   s.job? k = some j ∧ s.sliceClaim j = some (id, o)) ∧
  (let id : Nat := 7
   let j : Job := { aJob with phase := .preempting }
   let s : State := (withJob j).setTile 1023 { tag := 5, job := some 7, atBar := true }
   s.job? id = some j ∧ j.phase = .preempting ∧ s.quiet j = true ∧ j.tiles.any (fun i => (s.tile i).atBar) = true) ∧
  (let id : Nat := 7
   let j : Job := { aJob with phase := .spilling }
   let s : State := withJob j
   s.job? id = some j ∧ j.phase = .spilling ∧
   s.claimedIn j.tenant (s.spillAddr j.tenant j.spillFirst) (72 * j.spillLines) = false ∧
   ∀ i ∈ j.tiles, (s.tile i).spillParity j.man.decls = none) ∧
  (let id : Nat := 7
   let j : Job := { aJob with phase := .spilled, kept := some 1023 }
   let s : State := { live with sch := { live.sch with tens := [(1, { limit := 1024, spillLines := 8 })], jobs := [j] } }
   let u : State := (readRegions schBlock id j.tenant (j.programs ++ s.slotRegions j) (powerQuadrants j.tiles s)).2
   s.job? id = some j ∧ j.phase = .spilled ∧ j.kept = some j.origin ∧ j.tiles.all (s.tileFree id) = true ∧
   s.placing j.tenant = true ∧ s.claimedAny j.tenant (j.programs ++ s.slotRegions j) = false ∧
   readRegions schBlock id j.tenant (j.programs ++ s.slotRegions j) (powerQuadrants j.tiles s) = (true, u)) ∧
  (let i : Fin 1024 := 1023
   let j : Nat := 7
   let s : State := running 0 { interval := 10, barTime := 5000 }
   (s.tile i).job = some j ∧ (s.tile i).running = true ∧ 500 * (s.tile i).interval ≤ (s.tile i).barTime) ∧
  (let id : Nat := 7
   let j : Job := { aJob with phase := .output }
   let s : State := withJob j
   s.job? id = some j ∧ j.phase = .output ∧ j.stageDue = false ∧ j.pictures = 0) ∧
  (let s : State := live
   s.on domMGT = true) ∧
  (let q : Requester := .fn 0
   let t : Fin 64 := 63
   let s : State := live
   access q (.blk (baseSCH t + 0x18)) false s = .go) ∧
  (let id : Nat := 7
   let j : Job := { aJob with phase := .output, stageDue := true, desc := [1] ++ List.replicate 28 0 ++ [3] ++ List.replicate 34 0, man := { outStage := 1, outCardFmt := 3 } }
   let s : State := withJob j
   let u : State := s
   let c : Fmt := .n9
   let h : Fmt := .n9
   s.job? id = some j ∧ j.phase = .output ∧ j.man.outStage = 1 ∧ j.stageDue = true ∧ s.linkOk j.tenant = true ∧
   s.claimedIn j.tenant j.man.outRegion j.man.outBytes = false ∧
   readRegions schBlock id j.tenant [(j.man.outRegion, j.man.outBytes)] s = (true, u) ∧ Fmt.ofCode j.man.outCardFmt = some c ∧
   Fmt.ofCode (dOutFmt j.desc) = some h) ∧
  (let id : Nat := 7
   let j : Job := { aJob with result := some { status := 0 } }
   let s : State := withJob j
   s.job? id = some j ∧ j.result.isSome = true) := by
  refine ⟨⟨?_, ?_, ?_, ?_, ?_, ?_, ?_, find_one _ _ (by decide) rfl rfl (by decide)⟩, ?_⟩
  all_goals and_intros
  all_goals decide

theorem test_meets_TimeAndPosition :
  (let s : State := { live with wbk := { live.wbk with time := BitVec.allOnes 40 } }
   s.on domMGT = true ∧ s.wbk.time = BitVec.allOnes 40) ∧
  (let q : Requester := .fn 0
   let s : State := live
   access q (.blk 0x700000) false s = .go) ∧
  (let p : Fin 4 := 3
   let a : Bool := false
   let b : Bool := false
   let s : State := live.setPos 3 { enable := true, filt := 255 }
   let u : State := { s with wbk := { s.wbk with
     pins := setBit (setBit s.wbk.pins (16 + 2 * p) a) (17 + 2 * p) b } }
   u.captureDue true = [] ∧ u.posDue true = []) ∧
  (let p : Fin 4 := 3
   let a : Bool := false
   let b : Bool := false
   let s : State := live.setPos 3 {}
   let u : State := { s with wbk := { s.wbk with
     pins := setBit (setBit s.wbk.pins (16 + 2 * p) a) (17 + 2 * p) b } }
   let x := s.pos p
   let moved := (quadIndex a b + 4 - quadIndex x.a x.b) % 4
   u.captureDue true = [] ∧ u.posDue true = [p.val] ∧ s.on domMGT = true ∧ x.filt = 0 ∧ moved = 2) ∧
  (let p : Fin 4 := 3
   let a : Bool := true
   let b : Bool := false
   let s : State := live.setPos 3 {}
   let u : State := { s with wbk := { s.wbk with
     pins := setBit (setBit s.wbk.pins (16 + 2 * p) a) (17 + 2 * p) b } }
   let x := s.pos p
   let moved := (quadIndex a b + 4 - quadIndex x.a x.b) % 4
   u.captureDue true = [] ∧ u.posDue true = [p.val] ∧ s.on domMGT = true ∧ x.filt = 0 ∧ moved ≠ 2 ∧ x.enable = false) ∧
  (let p : Fin 4 := 3
   let a : Bool := false
   let b : Bool := true
   let s : State := live.setPos 3 { enable := true }
   let u : State := { s with wbk := { s.wbk with
     pins := setBit (setBit s.wbk.pins (16 + 2 * p) a) (17 + 2 * p) b } }
   let x := s.pos p
   let moved := (quadIndex a b + 4 - quadIndex x.a x.b) % 4
   let v : BitVec 32 := 1
   u.captureDue true = [] ∧ u.posDue true = [p.val] ∧ s.on domMGT = true ∧ x.filt = 0 ∧ x.enable = true ∧
   (v = x.val + 1 ∧ moved = 1 ∧ x.invert = false ∨ v = x.val + 1 ∧ moved = 3 ∧ x.invert = true ∨
     v = x.val - 1 ∧ moved = 3 ∧ x.invert = false ∨ v = x.val - 1 ∧ moved = 1 ∧ x.invert = true) ∧
   ∀ up : Bool, s.positionMatches p v up = []) ∧
  (let q : Requester := .fn 0
   let p : Fin 4 := 3
   let s : State := live
   access q (.blk (basePOS p + 0xC)) false s = .go) ∧
  (let q : Requester := .fn 0
   let p : Fin 4 := 3
   let s : State := live
   access q (.blk (basePOS p + 4)) true s = .go) :=
  by and_intros <;> decide

theorem test_meets_Channels :
  (let q : Requester := .fn 0
   let k : Fin 16 := 15
   let v : BitVec 32 := 0x4b60
   let s : State := live
   access q (.blk (baseCH k)) true s = .go ∧ ((q = .fn 0 → s.owned k = false)) ∧ (s.chan k).armed = false ∧
   bit v 31 = false ∧ fld v 12 3 ≤ 4 ∧ fld v 10 2 ≠ 3 ∧ fld v 5 5 ≤ 27) ∧
  (let q : Requester := .fn 0
   let k : Fin 16 := 15
   let v : BitVec 32 := 0x4b60
   let s : State := live.setChan 15 { armed := true }
   access q (.blk (baseCH k)) true s = .go ∧ ((q = .fn 0 → s.owned k = false)) ∧ (s.chan k).armed = true ∧
   ((s.chan k).mode ≠ v.extractLsb' 10 2 ∨ (s.chan k).base ≠ v.extractLsb' 12 3 ∨
   (s.chan k).edgeDir ≠ v.extractLsb' 15 2 ∨ (s.chan k).capSrc ≠ v.extractLsb' 5 5)) ∧
  (let q : Requester := .fn 0
   let k : Fin 16 := 15
   let high : Bool := true
   let s : State := live
   access q (.blk (baseCH k + if high then 8 else 4)) true s = .go ∧ ((q = .fn 0 → s.owned k = false))) ∧
  (let q : Requester := .fn 0
   let k : Fin 16 := 0
   let high : Bool := false
   let s : State := live.setPort 0 { enable := true }
   access q (.blk (baseCH k + if high then 8 else 4)) true s = .go ∧ s.owned k = true ∧ q = .fn 0) ∧
  (let k : Fin 16 := 15
   let s : State := live.setChan 15 { armed := true, mode := 1 }
   s.on domMGT = true ∧ (s.chan k).armed = true ∧ (s.chan k).mode = 1 ∧ (s.chan k).base = 0 ∧
   (s.chan k).cmp = s.wbk.time ∧ (s.chan k).matched = false) ∧
  (let i : Fin 28 := 15
   let e : Bool := true
   let s : State := { live with brd := { live.brd with gpDir := 0x8000 } }
   s.drivenOther i e = true) ∧
  (let i : Fin 28 := 27
   let k : Fin 16 := 15
   let e : Bool := true
   let s : State := live.setChan 15 { armed := true, mode := 2, capSrc := 27, edgeDir := 1 }
   let u : State := { s with wbk := { s.wbk with pins := setBit s.wbk.pins i e } }
   let x : Chan := { s.chan k with seen := e, seenFor := 0 }
   s.drivenOther i e = false ∧ u.posDue true = [] ∧ u.captureDue true = [k.val] ∧ s.on domMGT = true ∧
   (s.chan k).capSrc.toNat = i ∧ (s.chan k).seen ≠ e ∧ x.counts e = false) ∧
  (let i : Fin 28 := 27
   let k : Fin 16 := 15
   let e : Bool := true
   let s : State := live.setChan 15 { armed := true, mode := 2, capSrc := 27, presc := 255 }
   let u : State := { s with wbk := { s.wbk with pins := setBit s.wbk.pins i e } }
   let x : Chan := { s.chan k with seen := e, seenFor := 0 }
   s.drivenOther i e = false ∧ u.posDue true = [] ∧ u.captureDue true = [k.val] ∧ s.on domMGT = true ∧
   (s.chan k).capSrc.toNat = i ∧ (s.chan k).seen ≠ e ∧ x.counts e = true ∧ x.edges < x.presc.toNat) ∧
  (let i : Fin 28 := 27
   let k : Fin 16 := 15
   let e : Bool := false
   let s : State := live.setChan 15 { armed := true, mode := 2, capSrc := 27, edgeDir := 1, seen := true }
   let u : State := { s with wbk := { s.wbk with pins := setBit s.wbk.pins i e } }
   let x : Chan := { s.chan k with seen := e, seenFor := 0 }
   s.drivenOther i e = false ∧ u.posDue true = [] ∧ u.captureDue true = [k.val] ∧ s.on domMGT = true ∧
   (s.chan k).capSrc.toNat = i ∧ (s.chan k).seen ≠ e ∧ x.counts e = true ∧ x.presc.toNat ≤ x.edges ∧
   x.captured = false) ∧
  (let i : Fin 28 := 27
   let k : Fin 16 := 15
   let e : Bool := true
   let s : State := live.setChan 15 { armed := true, mode := 2, capSrc := 27, edges := 9, captured := true }
   let u : State := { s with wbk := { s.wbk with pins := setBit s.wbk.pins i e } }
   let x : Chan := { s.chan k with seen := e, seenFor := 0 }
   s.drivenOther i e = false ∧ u.posDue true = [] ∧ u.captureDue true = [k.val] ∧ s.on domMGT = true ∧
   (s.chan k).capSrc.toNat = i ∧ (s.chan k).seen ≠ e ∧ x.counts e = true ∧ x.presc.toNat ≤ x.edges ∧
   x.captured = true) ∧
  (let q : Requester := .fn 0
   let k : Fin 16 := 15
   let s : State := live
   access q (.blk (baseCH k + 0x18)) false s = .go) ∧
  (let k : Fin 16 := 15
   let s : State := live.setChan 15 { pulse := 1 }
   (s.chan k).pulse = 1) ∧
  (let k : Nat := 15
   let s : State := live
   (s.chan k).base = 0 ∧ (s.chan k).lport = 0 ∧ (s.chan k).action = 0 ∧ (
   let x := s.chan k
   x.remain ≠ 1)) ∧
  (let k : Nat := 15
   let s : State := live.setChan 15 { remain := 1 }
   (s.chan k).base = 0 ∧ (s.chan k).lport = 0 ∧ (s.chan k).action = 0 ∧ (
   let x := s.chan k
   x.remain = 1)) ∧
  (let k : Nat := 15
   let s : State := live.setPort 3 { enable := true, mot := 0x84000000 }
   (s.chan k).base = 0 ∧ (s.chan k).lport = 0 ∧ (s.chan k).action = 0 ∧
   ∀ p < 4, (s.port p).enable = false ∨ (s.port p).trigCh ≠ k) :=
  by and_intros <;> decide

theorem test_meets_PortEnableAndTraining :
  (let q : Requester := .fn 0
   let p : Fin 4 := 3
   let v : BitVec 32 := 0x80000000
   let s : State := (live.setPort 3 { fmt := 0x00C00007, tenant := 1, runup := 2 }).setChan 0 { step := 1 }
   access q (.blk (baseROL p)) true s = .go ∧ (s.port p).enable = false ∧ bit v 31 = true ∧ (
   let x : Port := { s.port p with motion := bit v 30, hostRead := bit v 28 }
   let u := s.setPort p x
   u.enableErr p x = 0)) ∧
  (let q : Requester := .fn 0
   let p : Fin 4 := 3
   let v : BitVec 32 := 0x80000000
   let s : State := live
   access q (.blk (baseROL p)) true s = .go ∧ (s.port p).enable = false ∧ bit v 31 = true ∧ (
   let x : Port := { s.port p with motion := bit v 30, hostRead := bit v 28 }
   let u := s.setPort p x
   u.enableErr p x ≠ 0)) ∧
  (let p : Fin 4 := 3
   let s : State := live.setPort 3 { enable := true, state := .train }
   let pairs : List (List (BitVec 16)) := List.replicate (s.port p).lanes (List.replicate 64 0x0F35)
   (s.port p).enable = true ∧ s.on domFRONT = true ∧ bit s.clk.disconnected (9 + p) = false ∧
   pairs.length = (s.port p).lanes ∧
   (∀ ws ∈ pairs, 64 ≤ ws.length ∧ ∀ w ∈ ws.drop (ws.length - 64), w = 0x0F35) ∧ (s.port p).state = .train) ∧
  (let p : Fin 4 := 3
   let s : State := live.setPort 3 { enable := true, state := .run }
   let pairs : List (List (BitVec 16)) := List.replicate (s.port p).lanes (List.replicate 64 0x0F35)
   (s.port p).enable = true ∧ s.on domFRONT = true ∧ bit s.clk.disconnected (9 + p) = false ∧
   pairs.length = (s.port p).lanes ∧
   (∀ ws ∈ pairs, 64 ≤ ws.length ∧ ∀ w ∈ ws.drop (ws.length - 64), w = 0x0F35) ∧ (s.port p).state ≠ .train) ∧
  (let p : Fin 4 := 3
   let s : State := live.setPort 3 { enable := true, state := .train }
   (s.port p).enable = true ∧ (s.port p).state = .train) ∧
  (let q : Requester := .fn 0
   let p : Fin 4 := 3
   let s : State := live.setPort 3 { enable := true, state := .run }
   access q (.blk (baseROL p)) true s = .go ∧ (s.port p).enable = true) ∧
  (let q : Requester := .fn 0
   let p : Fin 4 := 3
   let s : State := live
   access q (.blk (baseROL p)) true s = .go ∧ (s.port p).enable = false) :=
  by and_intros <;> first | (intro ws h; rw [List.eq_of_mem_replicate h]; simp) | decide

theorem test_meets_TriggersAndLines :
  (let p : Fin 4 := 3
   let received : Bool := true
   let pos : BitVec 32 := 5
   let rest : List (BitVec 32) := []
   let s : State := live.setPort 3 { enable := true, state := .run, requests := [5] }
   (s.port p).requests = pos :: rest ∧ (s.port p).enable = true ∧ (s.port p).state = .run ∧ s.on domFRONT = true ∧ (
   let u := s.setPort p { s.port p with requests := rest }
   u.issues p received = true ∧ (s.port p).q = none)) ∧
  (let p : Fin 4 := 3
   let received : Bool := true
   let pos : BitVec 32 := 5
   let rest : List (BitVec 32) := []
   let s : State := live.setPort 3 { enable := true, state := .run, requests := [5], refusedSince := true }
   (s.port p).requests = pos :: rest ∧ (s.port p).enable = true ∧ (s.port p).state = .run ∧ s.on domFRONT = true ∧ (
   let u := s.setPort p { s.port p with requests := rest }
   u.issues p received = false)) ∧
  (let p : Fin 4 := 3
   let l : Issued := { pos := 0, time := 0, seam := false }
   let s : State := live.setPort 3 { enable := true, state := .run, issued := [l] }
   (s.port p).issued.getLast? = some l) ∧
  (let p : Fin 4 := 3
   let received : Bool := false
   let s : State := live.setPort 3 { enable := true, state := .run }
   (s.port p).enable = true ∧ s.on domFRONT = true ∧ (s.port p).state ≠ .train ∧
   (received = true ∨ (s.port p).issued = [])) ∧
  (let p : Fin 4 := 0
   let received : Bool := true
   let s : State := live.setPort 0 { enable := true, state := .waitLow, issued := [{ pos := 0, time := 0, seam := true }] }
   (s.port p).enable = true ∧ s.on domFRONT = true ∧ (s.port p).state ≠ .train ∧
   (received = true ∨ (s.port p).issued = [])) ∧
  (let p : Fin 4 := 3
   let l : Issued := { pos := 0, time := 0, seam := true }
   let rest : List Issued := []
   let s : State := live.setPort 3 { enable := true, state := .run, issued := [l] }
   let pairs : List (List Bool) := List.replicate (s.port p).lanes
     (syncWord ++ List.replicate ((s.port p).lineBits - 16) true)
   (s.port p).issued = l :: rest ∧ (s.port p).framed pairs = true ∧ s.on domFRONT = true) ∧
  (let x : Port := { fmt := 0x02C603FF }
   let c : Nat := 2
   let i : Nat := 1023
   c < x.rows ∧ i < x.w) ∧
  (let p : Nat := 3
   let s : State := live.setPort 3 { enable := true, state := .run, wr := 48 }
   (s.port p).state = .run ∧ (s.port p).hw.toNat ≤ (s.port p).fill) ∧
  (let p : Nat := 3
   let s : State := live.setPort 3 { enable := true, state := .run, wr := 47 }
   (s.port p).fill < (s.port p).hw.toNat) :=
  by and_intros <;> decide

theorem test_meets_RefusedTrigger :
  let p : Nat := 3
  let s : State := live.setPort 3 { enable := true, state := .run }
  p < 4 ∧ (s.port p).enable = true ∧ (s.port p).state = .run :=
  by decide

theorem test_meets_StopAndRestart :
  (let p : Fin 4 := 3
   let s : State := live.setPort 3 { enable := true, state := .stopping }
   (s.port p).enable = true ∧ s.on domFRONT = true ∧ (s.port p).state = .stopping) ∧
  (let p : Fin 4 := 3
   let s : State := live.setPort 3 { enable := true, state := .settleBack }
   (s.port p).enable = true ∧ s.on domFRONT = true ∧ (s.port p).state = .settleBack ∧ (s.port p).kind ≠ 2) ∧
  (let p : Fin 4 := 3
   let s : State := live
   access (.fn 0) (.blk (baseROL p)) true s = .go ∧ (s.port p).state ≠ .fault) ∧
  (let p : Fin 4 := 3
   let s : State := live.setPort 3 { enable := true, state := .fault }
   access (.fn 0) (.blk (baseROL p)) true s = .go ∧ (s.port p).state = .fault ∧ s.mfltHigh p = true) ∧
  (let q : Requester := .fn 0
   let p : Fin 4 := 3
   let s : State := live.setPort 3 { enable := true, state := .run }
   access q (.blk (baseROL p)) true s = .go ∧ (s.port p).state = .run) ∧
  (let q : Requester := .fn 0
   let p : Fin 4 := 3
   let s : State := live
   access q (.blk (baseROL p)) true s = .go ∧ (s.port p).state ≠ .run ∧ (s.port p).state ≠ .runup) ∧
  (let q : Requester := .fn 0
   let p : Fin 4 := 3
   let s : State := live
   access q (.blk (baseROL p + 0x40)) true s = .go) ∧
  (let p : Fin 4 := 3
   let v : BitVec 32 := 0
   let s : State := live.setPort 3 { enable := true, state := .run, hostRead := true, wr := 1, rdLo := 1 }
   access (.fn 0) (.blk (baseROL p + 0x44)) true s = .go ∧ (s.port p).hostRead = true ∧ (
   let n : BitVec 64 := v ++ (s.port p).rdLo
   (s.port p).rd ≤ n ∧ n ≤ (s.port p).wr)) ∧
  (let p : Fin 4 := 3
   let v : BitVec 32 := 0
   let s : State := live.setPort 3 { enable := true, state := .run, hostRead := true, wr := 1, rdLo := 2 }
   access (.fn 0) (.blk (baseROL p + 0x44)) true s = .go ∧ (s.port p).hostRead = true ∧ (
   let n : BitVec 64 := v ++ (s.port p).rdLo
   ((s.port p).wr < n ∨ n < (s.port p).rd))) ∧
  (let q : Requester := .fn 0
   let p : Fin 4 := 3
   let s : State := live
   access q (.blk (baseROL p + 0x38)) false s = .go) ∧
  (let q : Requester := .fn 0
   let p : Fin 4 := 3
   let s : State := live
   access q (.blk (baseROL p + 0x54)) false s = .go) :=
  by and_intros <;> decide

theorem test_meets_IntakeQueues :
  (let q : Requester := .fn 0
   let n : Fin 16 := 15
   let v : BitVec 32 := 0x82000001
   let s : State := live
   access q (.blk (baseINK n)) true s = .go ∧ (s.queue n).enable = false ∧ bit v 31 = true ∧ (
   let y : Queue := { s.queue n with
         cfg := v &&& 0x6FE0003F, tags := if bit v 28 then [] else (s.queue n).tags }
   s.queueErr y = 0)) ∧
  (let q : Requester := .fn 0
   let n : Fin 16 := 15
   let v : BitVec 32 := 0x80000001
   let s : State := live
   access q (.blk (baseINK n)) true s = .go ∧ (s.queue n).enable = false ∧ bit v 31 = true ∧ (
   let y : Queue := { s.queue n with
         cfg := v &&& 0x6FE0003F, tags := if bit v 28 then [] else (s.queue n).tags }
   s.queueErr y ≠ 0)) ∧
  (let q : Requester := .fn 0
   let n : Fin 16 := 15
   let v : BitVec 32 := 0
   let s : State := live.setQueue 15 { cfg := 0x80000000 }
   access q (.blk (baseINK n)) true s = .go ∧ (s.queue n).enable = true ∧ bit v 28 = false ∧ bit v 31 = false ∧
   s.unforwarded n = false) ∧
  (let q : Requester := .fn 0
   let n : Fin 16 := 15
   let v : BitVec 32 := 0
   let s : State := live.setQueue 15 { cfg := 0x80000000, samples := [{ ring := 0, seq := 0, job := some 7 }] }
   access q (.blk (baseINK n)) true s = .go ∧ (s.queue n).enable = true ∧ bit v 28 = false ∧ bit v 31 = false ∧
   s.unforwarded n = true) ∧
  (let q : Requester := .fn 0
   let n : Fin 16 := 15
   let s : State := live
   access q (.blk (baseINK n)) true s = .go) ∧
  (let q : Requester := .fn 0
   let n : Fin 16 := 15
   let s : State := live
   access q (.blk (baseINK n + 0x2C)) false s = .go) :=
  by and_intros <;> decide

set_option maxRecDepth 20000 in
theorem test_meets_Samples :
  (let n : Fin 16 := 15
   let y : Sample := { ring := 0, seq := 0, job := some 7, lines := 1, z := 1 }
   let j : Job := aJob
   let s : State := (withJob j).setQueue 15 { cfg := 0x82000001, samples := [y] }
   s.cutting n = some (y, j) ∧ s.inkServes n = true ∧ 4 ≤ (s.queue n).kind ∧ y.cut = false ∧ y.budget = 0) ∧
  (let n : Fin 16 := 15
   let y : Sample := { ring := 0, seq := 0, job := some 7, lines := 1, z := 1, cut := true }
   let j : Job := aJob
   let s : State := ((withJob j).setQueue 15 { cfg := 0x82000001, samples := [y] }).setPort 0 { enable := true, wr := 1 }
   let p := s.port (s.queue n).port
   let u : State := (readRegions inkBlock j.id p.tenant.toNat [(p.slotAddr p.rd, p.slotBytes)] s).2
   s.cutting n = some (y, j) ∧ s.inkServes n = true ∧ (s.queue n).kind = 4 ∧ y.cut = true ∧ y.taken < y.lines ∧
   0 < (s.port (s.queue n).port).fill ∧ (s.port (s.queue n).port).hostRead = false ∧
   s.claimedAny p.tenant.toNat [(p.slotAddr p.rd, p.slotBytes)] = false ∧
   readRegions inkBlock j.id p.tenant.toNat [(p.slotAddr p.rd, p.slotBytes)] s = (true, u)) ∧
  (let n : Fin 16 := 15
   let y : Sample := { ring := 0, seq := 0, job := some 7, lines := 1, z := 1, cut := true }
   let j : Job := aJob
   let k : Nat := 0
   let s : State := ((withJob j).setQueue 15 { cfg := 0x82800001, samples := [y] }).setStream 0
     { enable := true, cfg := 0x9F000001, outWr := 1 }
   let c := s.stream k
   let u : State := (readRegions inkBlock j.id c.tenant [c.slotAt c.outRd] s).2
   s.cutting n = some (y, j) ∧ s.feeder n = some k ∧ s.inkServes n = true ∧ (s.queue n).kind = 5 ∧ y.cut = true ∧
   y.taken = 0 ∧ c.outWr ≠ c.outRd ∧ s.claimedAny c.tenant [c.slotAt c.outRd] = false ∧
   readRegions inkBlock j.id c.tenant [c.slotAt c.outRd] s = (true, u)) ∧
  (let n : Fin 16 := 15
   let id : Nat := 7
   let input : List Byte := []
   let y : Sample := { ring := 0, seq := 0, job := some 7, z := 1 }
   let j : Job := { aJob with srcDims := (1, 1, 1), desc := List.replicate 24 0 ++ [17] ++ List.replicate 39 0 }
   let s : State := (withJob j).setQueue 15 { cfg := 0x81800001, samples := [y] }
   let f : DecodeFault := (0, 0)
   s.sampleFor n id = some y ∧ s.job? id = some j ∧ s.decodes n y j = true ∧
   decodePlanes (s.queue n).kind j.srcDims (input.take (dInLen j.desc)) = .error f) ∧
  (let n : Fin 16 := 15
   let id : Nat := 7
   let input : List Byte := List.replicate 17 255
   let y : Sample := { ring := 0, seq := 0, job := some 7, z := 1 }
   let j : Job := { aJob with srcDims := (1, 1, 1), desc := List.replicate 24 0 ++ [17] ++ List.replicate 39 0 }
   let s : State := (withJob j).setQueue 15 { cfg := 0x81800001, samples := [y] }
   let ps : List (List Byte) := [[255]]
   let used : Nat := 17
   s.sampleFor n id = some y ∧ s.job? id = some j ∧ s.decodes n y j = true ∧
   decodePlanes (s.queue n).kind j.srcDims (input.take (dInLen j.desc)) = .ok (ps, used) ∧
   s.claimedAny j.tenant (s.sampleWrites n j y) = false ∧
   ∀ r ∈ s.sampleWrites n j y, s.mapped j.tenant r.1 r.2 = true) ∧
  (let n : Fin 16 := 15
   let y : Sample := { ring := 0, seq := 0, job := some 7, complete := true }
   let rest : List Sample := []
   let id : Nat := 7
   let s : State := (withJob aJob).setQueue 15 { samples := [y] }
   (s.queue n).samples = y :: rest ∧ s.sampleDone n y = true ∧ y.job = some id) ∧
  (let n : Fin 16 := 15
   let y : Sample := { ring := 0, seq := 0 }
   let rest : List Sample := []
   let s : State := live.setQueue 15 { samples := [y] }
   (s.queue n).samples = y :: rest ∧ s.sampleDone n y = true ∧ y.job = none) ∧
  (let n : Fin 16 := 15
   let y : Sample := { ring := 0, seq := 0, job := some 7 }
   let rest : List Sample := []
   let s : State := (withJob aJob).setQueue 15 { samples := [y] }
   (s.queue n).samples = y :: rest ∧ s.sampleDone n y = false) ∧
  (let id : Nat := 7
   let input : List Byte := [0]
   let j : Job := { aJob with loadDue := true, desc := List.replicate 24 0 ++ [1, 0, 0, 0, 2] ++ List.replicate 35 0 }
   let f : Fmt := .s8
   let s : State := withJob j
   s.job? id = some j ∧ j.loadDue = true ∧ j.result = none ∧ s.on domFRONT = true ∧ s.linkOk j.tenant = true ∧
   Fmt.ofCode (dInFmt j.desc) = some f ∧ (
   let ns := loadNonets f (dInWide j.desc) (dZero j.desc) (input.take (dInLen j.desc))
   s.claimedAny j.tenant [(72 * dParam j.desc, 72 * ceilDiv ns.length 64)] = false ∧
   s.mapped j.tenant (72 * dParam j.desc) (72 * ceilDiv ns.length 64) = true)) :=
  by and_intros <;> decide

theorem test_meets_ShakerLimits :
  let u : Nat := 255
  u ≤ 255 :=
  by decide

set_option maxRecDepth 20000 in
theorem test_meets_TablesAndTokens :
  (let q : Requester := .fn 0
   let t : Fin 64 := 63
   let s : State := live.setTokTen 63 { checking := .set }
   access q (.blk (baseTOK t)) true s = .go ∧ s.tokLocked t = true) ∧
  (let q : Requester := .fn 0
   let t : Fin 64 := 63
   let s : State := live.setTokTen 63 { tokValid := true }
   access q (.blk (baseTOK t)) true s = .go ∧ s.tokLocked t = false ∧ (s.tokTen t).tokValid = true) ∧
  (let q : Requester := .fn 0
   let t : Fin 64 := 63
   let s : State := live
   access q (.blk (baseTOK t)) true s = .go ∧ s.tokLocked t = false ∧ (s.tokTen t).tokValid = false) ∧
  (let t : Fin 64 := 1
   let s : State := live.setTokTen 1 { checking := .set }
   let u : State := (readTables t (s.setReads t) (dropOnDie t s)).2
   (s.tokTen t).checking = .set ∧ s.on domTOK = true ∧ s.claimedAny t (s.setReads t) = false ∧
   readTables t (s.setReads t) (dropOnDie t s) = (true, u)) ∧
  (let t : Fin 64 := 1
   let s : State := live.setTokTen 1 { checking := .grammar }
   let u : State := (readTables t (s.gramReads t) (dropOnDie t s)).2
   (s.tokTen t).checking = .grammar ∧ s.on domTOK = true ∧ s.claimedAny t (s.gramReads t) = false ∧
   readTables t (s.gramReads t) (dropOnDie t s) = (true, u)) ∧
  (let q : Requester := .fn 0
   let s : State := live
   access q (.blk 0xE00010) false s = .go) ∧
  (let x : TokStream := { job := 7, tenant := 1, detok := false }
   let rest : List TokStream := []
   let s : State := { withJob aJob with tok := { live.tok with streams := [x], onDie := some 1, serving := false } }
   s.tok.streams = x :: rest ∧ s.liveStreams = x :: rest ∧ s.on domTOK = true ∧ s.tok.serving = false ∧
   s.tok.onDie = some x.tenant ∧ x.detok = false) ∧
  (let x : TokStream := { job := 7, tenant := 1, detok := true }
   let rest : List TokStream := []
   let s : State := { withJob aJob with tok := { live.tok with streams := [x], onDie := some 1, serving := false } }
   s.tok.streams = x :: rest ∧ s.liveStreams = x :: rest ∧ s.on domTOK = true ∧ s.tok.serving = false ∧
   s.tok.onDie = some x.tenant ∧ x.detok = true) ∧
  (let x : TokStream := { job := 7, tenant := 1, detok := false }
   let rest : List TokStream := []
   let j : Job := aJob
   let s : State := { withJob aJob with tok := { live.tok with streams := [x], onDie := some 1, serving := true } }
   s.tok.streams = x :: rest ∧ s.liveStreams = x :: rest ∧ s.on domTOK = true ∧ s.tok.serving = true ∧
   x.detok = false ∧ s.job? x.job = some j ∧ s.linkOk j.tenant = true ∧ s.claimedAny j.tenant [s.streamRegion j] = false ∧
   s.mapped j.tenant (s.streamRegion j).1 (s.streamRegion j).2 = true) ∧
  (let x : TokStream := { job := 7, tenant := 1, detok := true }
   let rest : List TokStream := []
   let j : Job := aJob
   let out : List Byte := []
   let s : State := { withJob aJob with tok := { live.tok with streams := [x], onDie := some 1, serving := true } }
   let u : State := s
   s.tok.streams = x :: rest ∧ s.liveStreams = x :: rest ∧ s.on domTOK = true ∧ s.tok.serving = true ∧
   x.detok = true ∧ s.job? x.job = some j ∧ s.linkOk j.tenant = true ∧
   s.claimedIn j.tenant j.man.outRegion j.man.outBytes = false ∧
   readRegions tokBlock x.job j.tenant [(j.man.outRegion, j.man.outBytes)] s = (true, u) ∧
   u.tok.set.detokenize 0 (outputIds j.man.outNonets ((u.readTen j.tenant j.man.outRegion j.man.outBytes).getD [])) = (out, none)) ∧
  (let i : Fin 1024 := 1023
   let t : Fin 64 := 1
   let slot : Fin 1024 := 1023
   let n : Nat := 0
   let x : Xfer := { store := true, dline := 1023, sline := 0, lines := 1, pc := 0, tenant := 1, job := 7 }
   let s : State := (running 0 { xfers := [x] }).setTokTen 1 { slots := 1024 }
   s.on domTOK = true ∧ (
   let d := s.tokTen t
   let line := d.dampReq.toNat + slot
   slot.val < d.slots.toNat ∧ s.tok.damps.length < 256 ∧ s.requestXfer i t line 8 = some (n, x))) ∧
  (let r : DampReq := { job := 7, tenant := 1, slot := 0, words := [] }
   let rest : List DampReq := []
   let s : State := { live with tok := { live.tok with tens := [(1, { gramValid := true })], dampOn := some 1, damps := [r] } }
   s.tok.damps = r :: rest ∧ s.on domTOK = true ∧ (s.tokTen r.tenant).gramValid = true ∧ s.tok.dampOn = some r.tenant) ∧
  (let r : DampReq := { job := 7, tenant := 1, slot := 0, words := [] }
   let rest : List DampReq := []
   let s : State := { live with tok := { live.tok with damps := [r] } }
   s.tok.damps = r :: rest ∧ s.on domTOK = true ∧ (s.tokTen r.tenant).gramValid = false ∧
   (s.tok.dampOn = some r.tenant ∨ s.claimedAny r.tenant (s.damperReads r.tenant) = false)) :=
  by and_intros <;> decide

set_option maxRecDepth 20000 in
theorem test_meets_StreamsAndPictures :
  (let q : Requester := .fn 0
   let n : Fin 8 := 7
   let s : State := (live).setStream 7 { cfg := 0x00100001, width := 8, height := 8, areaLines := 100, req := 1000, rslt := 2000 }
   access q (.blk (baseCYM n)) true s = .go ∧ (s.stream n).enable = false ∧ s.streamErr (s.stream n) = 0) ∧
  (let q : Requester := .fn 0
   let n : Fin 8 := 7
   let s : State := live
   access q (.blk (baseCYM n)) true s = .go ∧ (s.stream n).enable = false ∧ s.streamErr (s.stream n) ≠ 0) ∧
  (let q : Requester := .fn 0
   let n : Fin 8 := 7
   let s : State := (live).setStream 7 { state := 2 }
   access q (.blk (baseCYM n)) true s = .go ∧ (s.stream n).state = 2) ∧
  (let q : Requester := .fn 0
   let n : Fin 8 := 7
   let s : State := live
   access q (.blk (baseCYM n)) true s = .go ∧ (s.stream n).state ≠ 2) ∧
  (let i : Fin 1024 := 1023
   let n : Fin 8 := 7
   let slot : Fin 16 := 15
   let k : Nat := 0
   let t : Xfer := { store := true, dline := 15, sline := 0, lines := 1, pc := 0, tenant := 1, job := 7 }
   let decode : Bool := false
   let s : State := (running 0 { xfers := [t], scr := [] }).setStream 7 { cfg := 1, slots := 16 }
   s.on domCYM = true ∧ (
   let x := s.stream n
   let line := x.req.toNat + slot
   let r : CymReq := { stream := n, slot := slot, job := t.job, decode := decode, words := s.xferWords i t line }
   slot.val < x.slots.toNat ∧ s.cym.reqs.length < 256 ∧ s.requestXfer i x.tenant line n = some (k, t) ∧
   decode = false ∧ r.op ≠ 1)) ∧
  (let i : Fin 1024 := 1023
   let n : Fin 8 := 7
   let slot : Fin 16 := 15
   let k : Nat := 0
   let t : Xfer := { store := true, dline := 15, sline := 0, lines := 1, pc := 0, tenant := 1, job := 7 }
   let decode : Bool := true
   let s : State := (running 0 { xfers := [t], scr := [(3, 32)] }).setStream 7 { cfg := 1, slots := 16 }
   s.on domCYM = true ∧ (
   let x := s.stream n
   let line := x.req.toNat + slot
   let r : CymReq := { stream := n, slot := slot, job := t.job, decode := decode, words := s.xferWords i t line }
   slot.val < x.slots.toNat ∧ s.cym.reqs.length < 256 ∧ s.requestXfer i x.tenant line n = some (k, t) ∧
   decode = true ∧ r.op = 1)) ∧
  (let r : CymReq := { stream := 7, slot := 0, job := 7, decode := false, words := [] }
   let s : State := live
   let x := s.stream r.stream
   x.enable = false) ∧
  (let r : CymReq := { stream := 7, slot := 0, job := 7, decode := true, words := [] }
   let s : State := (live).setStream 7 { enable := true, state := 1 }
   let x := s.stream r.stream
   x.enable = true ∧ x.state ≠ 2 ∧ ((r.bad = true ∨ r.decode ≠ x.dir))) ∧
  (let r : CymReq := { stream := 7, slot := 0, job := 7, decode := false, words := [] }
   let s : State := (live).setStream 7 { enable := true, state := 1 }
   let x := s.stream r.stream
   x.enable = true ∧ x.state ≠ 2 ∧ r.bad = false ∧ r.decode = x.dir ∧
   (s.job? r.job).any (fun j => j.man.outStage != 0) = false) ∧
  (let r : CymReq := { stream := 7, slot := 0, job := 7, decode := true, words := [] }
   let rest : List CymReq := []
   let s : State := { live with cym := { live.cym with reqs := [r] } }
   s.cym.service = none ∧ s.cym.reqs = r :: rest ∧ s.on domCYM = true ∧ r.decode = true) ∧
  (let v : CymService := { req := { stream := 7, slot := 0, job := 7, decode := true, words := [] } }
   let s : State := { live with cym := { live.cym with service := some v } }
   s.cym.service = some v ∧ s.on domCYM = true ∧ v.finish = none ∧
   s.claimedAny (s.stream v.req.stream).tenant [v.req.source] = false ∧ v.req.decode = true) ∧
  (let v : CymService := { req := { stream := 7, slot := 0, job := 7, decode := false, words := [] } }
   let s : State := { live with cym := { live.cym with service := some v, streams := [(7, { cfg := 1 })] } }
   s.cym.service = some v ∧ s.on domCYM = true ∧ v.finish = none ∧
   s.claimedAny (s.stream v.req.stream).tenant [v.req.source] = false ∧ v.req.decode = false ∧
   s.linkOk (s.stream v.req.stream).tenant = true) ∧
  (let v : CymService := { req := { stream := 7, slot := 0, job := 7, decode := false, words := [] } }
   let s : State := withJob aJob
   let u : State := (readPicture v.req [v.req.roiRegion] s).2
   readPicture v.req [v.req.roiRegion] s = (true, u)) ∧
  (let n : Fin 8 := 7
   let p : Pict := { poc := 0, width := 8, height := 8, depth := 8, idr := true, planes := [] }
   let rest : List Pict := []
   let s : State := (live).setStream 7 { enable := true, waiting := [p], cfg := 1 }
   s.on domCYM = true ∧ (s.stream n).waiting = p :: rest ∧ (s.stream n).enable = true ∧ s.cym.service = none ∧
   ((s.stream n).outWr - (s.stream n).outRd).toNat < (s.stream n).outSlots.toNat ∧ (
   let x := s.stream n
   s.claimedIn x.tenant (x.slotAt x.outWr).1 (x.slotAt x.outWr).2 = false ∧
   s.mapped x.tenant (x.slotAt x.outWr).1 (x.slotAt x.outWr).2 = true)) :=
  by and_intros <;> decide

set_option maxRecDepth 20000 in
theorem test_meets_ChainLinks :
  (let x : Fin 2 := 1
   let s : State := live.setLink 1 { cable := .plain }
   (s.link x).cabled = true ∧ (s.link x).up = false ∧ s.on domCHN = true ∧ s.chn.bypassing = false ∧
    (s.link x).returnDue = false) ∧
  (let x : Fin 2 := 1
   let cable : Cable := .none
   let s : State := live.setLink 1 {}
   s.on domAON = true ∧ ((s.link x).up = false ∨ cable ≠ .none)) ∧
  (let x : Fin 2 := 1
   let cable : Cable := .none
   let s : State := live
   s.on domAON = true ∧ (s.link x).up = true ∧ cable = .none) ∧
  (let x : Fin 2 := 1
   let cable : Cable := .feed false
   let s : State := (live.setDom domAON false).setLink 1 { cable := .feed true, up := true }
   let u := powerRetimer (s.setLink x { s.link x with cable := cable })
   s.on domAON = false ∧ u.cableFed = false) ∧
  (let x : Fin 2 := 1
   let a : Bool := false
   let s : State := live
   s.carries x = true ∧ ((s.chn.bypassing = true ∨ a = false ∨ s.chn.route = []))) ∧
  (let x : Fin 2 := 1
   let raw : List Byte := flit 0x16 0 0
   let s : State := live
   raw.length = 80 ∧ s.carries x = true ∧ rawGood (s.link x) raw = false) ∧
  (let x : Fin 2 := 1
   let raw : List Byte := flit 0x11 0 0
   let s : State := live
   raw.length = 80 ∧ s.carries x = true ∧ rawGood (s.link x) raw = true) ∧
  (let x : Fin 2 := 1
   let s : State := live
   s.carries x = true) ∧
  (let x : Nat := 1
   let s : State := (live).setLink 1 { cable := .plain, up := true, fails := 7, replay := [.nak 0] }
   (s.link x).replay ≠ [] ∧ (s.link x).fails < 8) ∧
  (let q : Requester := .fn 0
   let s : State := live
   access q (.blk (baseCHN + 0x30)) false s = .go) ∧
  (let q : Requester := .fn 0
   let s : State := live
   access q (.blk (baseCHN + 8)) false s = .go) ∧
  (let q : Requester := .fn 0
   let x : Fin 2 := 1
   let s : State := live
   access q (.blk (baseCHN + 0x10 + 4 * x)) false s = .go) ∧
  (let q : Requester := .fn 0
   let x : Fin 2 := 1
   let s : State := live
   access q (.blk (baseCHN + 0x18 + 4 * x)) false s = .go) ∧
  (let s : State := { live with chn := { live.chn with bypassing := true } }
   s.chn.bypassing = true) ∧
  (let s : State := live
   s.chn.bypassing = false) := by
  and_intros <;> first
    | (refine rawGood_type _ _ _ _ ?_ <;> decide)
    | (refine rawGood_flit _ _ _ _ ?_ ?_ <;> decide)
    | rfl
    | decide

set_option maxRecDepth 20000 in
theorem test_meets_ChainMessages :
  (let m : Nat := 0
   let x : Msg := { src := 1023, dst := 0, unit := 2, tag := 5, mailbox := 0, lanes := [0], outward := true, bufs := [1], entered := 1 }
   let v : Nat := 1
   let s : State := { live with grd := { live.grd with msgs := [x] }, chn := { live.chn with route := [(2, 2)] } }
   s.grd.msgs[m]? = some x ∧ x.outward = true ∧ x.arrived = true ∧ x.sent = 0 ∧ s.oldest m x = true ∧
   s.chn.absent.contains x.unit = false ∧ s.openLink x = some v ∧ s.atPort (.send x.src) = [] ∧
   s.gongFree (gongPort (.send x.src)) = true) ∧
  (let m : Nat := 0
   let x : Msg := { src := 1023, dst := 0, unit := 2, tag := 5, mailbox := 0, lanes := [0], outward := true, bufs := [1], entered := 1 }
   let s : State := { live with grd := { live.grd with msgs := [x] } }
   s.grd.msgs[m]? = some x ∧ x.outward = true ∧ x.arrived = true ∧ x.sent = 0 ∧ s.oldest m x = true ∧
   (s.chn.absent.contains x.unit = true ∨ s.linkTo x.unit.toNat = none)) ∧
  (let x : Fin 2 := 0
   let raw : List Byte := flit 0x11 0 (2 ^ 24)
   let s : State := live
   raw.length = 80 ∧ s.flitOk x 1 raw = true ∧ (
   let hdr := (rawLanes raw).headD 0
   let u := takeFlit x raw s
   u.ownUnit (hdrUnit hdr) = true ∧ u.chn.bypassing = false)) ∧
  (let x : Fin 2 := 0
   let raw : List Byte := flit 0x11 0 (2 ^ 25)
   let s : State := { live with chn := { live.chn with route := [(2, 2)] } }
   raw.length = 80 ∧ s.flitOk x 1 raw = true ∧ (
   let hdr := (rawLanes raw).headD 0
   let u := takeFlit x raw s
   u.ownUnit (hdrUnit hdr) = false ∧ u.carries (otherLink x) = true ∧ u.chn.bypassing = false ∧
   u.routeTo (hdrUnit hdr) ≠ 0)) ∧
  (let x : Fin 2 := 1
   let raw : List Byte := flit 0x12 0 0
   let ls := [0]
   let s : State := (live).setLink 1 { cable := .plain, up := true, rx := .own [0] }
   raw.length = 80 ∧ s.flitOk x 2 raw = true ∧ (
   let u := takeFlit x raw s
   (u.link x).rx = .own ls)) ∧
  (let x : Fin 2 := 1
   let raw : List Byte := flit 0x12 0 0
   let s : State := live
   raw.length = 80 ∧ s.flitOk x 2 raw = true ∧ (
   let u := takeFlit x raw s
   (u.link x).rx = .idle)) ∧
  (let x : Fin 2 := 1
   let raw : List Byte := flit 0x13 0 0
   let ls := [0]
   let s : State := (live).setLink 1 { cable := .plain, up := true, rx := .own [0] }
   raw.length = 80 ∧ s.flitOk x 3 raw = true ∧ (
   let u := takeFlit x raw s
   (u.link x).rx = .own ls)) ∧
  (let x : Fin 2 := 1
   let raw : List Byte := flit 0x13 0 0
   let hdr := 0
   let s : State := (live).setLink 1 { cable := .plain, up := true, rx := .through 0 }
   raw.length = 80 ∧ s.flitOk x 3 raw = true ∧ (
   let u := takeFlit x raw s
   (u.link x).rx = .through hdr)) ∧
  (let x : Fin 2 := 1
   let raw : List Byte := flit 0x14 1 (2 ^ 46)
   let s : State := live
   raw.length = 80 ∧ s.flitOk x 4 raw = true ∧ (
   let u := takeFlit x raw s
   let hdr := (rawLanes raw).headD 0
   u.ownUnit (hdrSrcUnit hdr) = true ∧ u.chn.bypassing = false)) ∧
  (let x : Fin 2 := 1
   let raw : List Byte := flit 0x14 1 (2 ^ 47)
   let s : State := live
   raw.length = 80 ∧ s.flitOk x 4 raw = true ∧ (
   let u := takeFlit x raw s
   let hdr := (rawLanes raw).headD 0
   u.ownUnit (hdrSrcUnit hdr) = false ∧ u.carries (otherLink x) = true)) ∧
  (let x : Fin 2 := 1
   let ls : List Lane := [0]
   let s : State := (live).setLink 1 { cable := .plain, up := true, rx := .own [0] }
   s.carries x = true ∧ (s.link x).rx = .own ls) := by
  and_intros <;> first
    | (refine flitOk_flit _ _ _ _ _ _ ?_ ?_ ?_ rfl <;> decide)
    | rfl
    | decide

theorem test_meets_ChainUnits :
  (let q : Requester := .fn 0
   let v : BitVec 32 := 0x5A5A0002
   let s : State := live
   access q (.blk (baseCHN + 4)) true s = .go ∧ keyed v = true ∧ bit v 0 = false ∧ bit v 1 = true ∧ bit v 2 = false) ∧
  (let q : Requester := .fn 0
   let v : BitVec 32 := 0x5A5A0004
   let s : State := live
   access q (.blk (baseCHN + 4)) true s = .go ∧ keyed v = true ∧ bit v 0 = false ∧ bit v 1 = false ∧ bit v 2 = true) ∧
  (let q : Requester := .fn 0
   let v : BitVec 32 := 2
   let s : State := live
   access q (.blk (baseCHN + 4)) true s = .go ∧ keyed v = false ∧ bit v 1 = true) ∧
  (let q : Requester := .fn 0
   let v : BitVec 32 := 4
   let s : State := live
   access q (.blk (baseCHN + 4)) true s = .go ∧ keyed v = false ∧ bit v 2 = true) ∧
  (let claimed : List (BitVec 12) := [2]
   let s : State := live
   s.carries 0 = true ∧ s.chn.bypassing = false ∧ s.chn.assigned = true ∧ claimed.contains s.chn.unit = false ∧ (takeCtrl 0 s).isTail = false) ∧
  (let s : State := live
   s.carries 0 = true ∧ s.chn.bypassing = false) ∧
  (let s : State := live
   s.carries 1 = true ∧ s.chn.bypassing = false) ∧
  (let s : State := { live.setLink 0 { cable := .plain } with chn := { ((live.setLink 0 { cable := .plain }).chn) with enumState := 1 } }
   s.isHead = true ∧ s.chn.enumState = 1) ∧
  (let s : State := live.setLink 0 { cable := .plain }
   s.carries 1 = true ∧ (takeCtrl 1 s).isHead = true ∧ s.chn.bypassing = false) ∧
  (let s : State := live
   s.carries 1 = true ∧ (takeCtrl 1 s).isHead = false) ∧
  (let unit : BitVec 12 := 1
   let s : State := live
   s.carries 0 = true ∧ s.chn.bypassing = false ∧ unit = s.chn.unit) ∧
  (let unit : BitVec 12 := 2
   let s : State := live
   s.carries 0 = true ∧ s.chn.bypassing = false ∧ unit ≠ s.chn.unit) ∧
  (let s : State := live
   s.chn.bypassing = false) ∧
  (let s : State := { live with chn := { live.chn with bypassing := true, links := [] } }
   s.chn.bypassing = true ∧ s.chn.bypassReg = false ∧ s.on domCHN = true ∧ (s.link 0).up = false ∧
   (s.link 1).up = false) ∧
  (let x : Fin 2 := 1
   let s : State := live
   s.carries x = true ∧ s.chn.bypassing = false) ∧
  (let x : Fin 2 := 1
   let s : State := live
   s.carries x = true) :=
  by and_intros <;> decide

theorem test_meets_SpanningTags :
  (let key : BitVec 32 := 5
   let g := { key := 5, index := 8191, holders := [1] }
   let s : State := { live with chn := { live.chn with tags := [{ key := 5, index := 8191, holders := [1] }] } }
   s.chn.tags.find? (fun g => g.key == key) = some g) ∧
  (let unit : BitVec 12 := 1
   let key : BitVec 32 := 5
   let i := (List.range 8192).getD (Config.fresh 0 % 8192) 0
   let s : State := live
   s.chn.tags.find? (fun g => g.key == key) = none ∧ (grantSpan unit key s).1 = some i) :=
  ⟨by decide,
   ⟨rfl, by simp [grantSpan, live, State.reset]⟩⟩

theorem test_meets_FaultCommands :
  (let job : Nat := 7
   let j := 7
   let s : State := withJob ({ aJob with sampleDue := true })
   s.on domFRONT = true ∧ s.servedJob 0 job = some j) ∧
  (let job : Nat := 7
   let s : State := live
   s.on domFRONT = true ∧ s.servedJob 0 job = none) ∧
  (let c : Fin 4 := 3
   let s : State := live
   s.firmware c = true ∧ (s.bell c).resets = []) ∧
  (let s : State := live
   s.on domMGT = true ∧ s.boot.stage = .running) ∧
  (let q : Requester := .fn 0
   let v : BitVec 32 := 0x5A5A0001
   let s : State := live
   access q (.blk (baseFLT + 8)) true s = .go ∧ bit v 0 = true ∧ keyed v = true) ∧
  (let q : Requester := .fn 0
   let v : BitVec 32 := 1
   let s : State := live
   access q (.blk (baseFLT + 8)) true s = .go ∧ bit v 0 = true ∧ keyed v = false) ∧
  (let q : Requester := .fn 0
   let s : State := live
   access q (.blk (baseFLT + 0x10)) false s = .go) ∧
  (let q : Requester := .fn 0
   let s : State := live
   access q (.blk (baseFLT + 0x8008)) true s = .go ∧ s.mailbox = true) ∧
  (let q : Requester := .fn 0
   let v : BitVec 32 := 0x5A5A0001
   let s : State := live
   access q (.blk (baseFLT + 0x8000)) true s = .go ∧ keyed v = true ∧ s.mailbox = true ∧ bit v 0 = true ∧
   bit v 1 = false) ∧
  (let q : Requester := .fn 0
   let v : BitVec 32 := 0x5A5A0002
   let s : State := live
   access q (.blk (baseFLT + 0x8000)) true s = .go ∧ keyed v = true ∧ s.mailbox = true ∧ bit v 0 = false ∧
   bit v 1 = true) ∧
  (let s : State := live
   s.boot.stage = .running) ∧
  (let s : State := { live with boot := { live.boot with fwBusy := true, imgB := live.boot.imgA } }
   s.boot.fwBusy = true ∧ s.slotFailure s.stagedSlot = 0) ∧
  (let s : State := { live with boot := { live.boot with fwBusy := true } }
   s.boot.fwBusy = true ∧ s.slotFailure s.stagedSlot ≠ 0) :=
  by and_intros <;> decide

theorem test_meets_FaultRecord :
  (let n := 255
   let s : State := live
   n ≠ s.flt.next.toNat % 256) ∧
  (let d := 0
   let f : Finding := { detector := 31, level := lvlNone }
   d ≠ f.detector) :=
  by and_intros <;> decide

set_option maxRecDepth 20000 in
theorem test_meets_PowerHostAndRingCommandsComplete :
  (let s : State := live
   s.pwr.perst = false ∧ s.boot.stage ≠ .unpowered) ∧
  (let q : Requester := .fn 0
   let v : BitVec 32 := 0x5A5A0001
   let s : State := live
   access q (.blk 0x100030) true s = .go ∧ keyed v = true ∧ bit v 0 = true ∧ s.boot.resetting = false) ∧
  (let s : State := live
   s.hif.linkUp = true) ∧
  (let f : Fin 64 := 63
   let s : State := live
   f.val ≠ 0 ∧ s.hif.linkUp = true ∧ s.tenantExists f = true ∧ (s.func f).flrBusy = false) ∧
  (let s : State := live
   s.hif.linkUp = true ∧ (s.func 0).flrBusy = false) ∧
  (let s : State := live
   s.pwr.dstate = .d0 ∧ s.hif.linkUp = true) ∧
  (let s : State := { live with pwr := { live.pwr with dstate := .d3hot } }
   s.pwr.dstate = .d3hot) ∧
  (let s : State := { live with pwr := { live.pwr with dstate := .d3hot } }
   s.pwr.dstate = .d3hot) ∧
  (let s : State := { live with pwr := { live.pwr with dstate := .d3cold } }
   s.pwr.dstate = .d3cold) ∧
  (let d : Fin 16 := 14
   let s : State := live.setDom domCHN false
   s.mayPower d = true ∧ s.on d = false) ∧
  (let d : Fin 16 := 13
   let s : State := live
   d.val ∈ switched ∧ s.on d = true ∧ s.needed d = false) ∧
  (let s : State := { live with brd := { live.brd with auxPresent := true } }
   s.on domMGT = true) ∧
  (let die : List Int := List.replicate 64 114
   let stackC : List (Option Int) := [some 104, none, some 0, none]
   let s : State := live
   die.length = 64 ∧ stackC.length = 4 ∧ s.on domMGT = true ∧ s.pwr.tripped = false ∧ maxTemp die < 115 ∧
   maxTemp (stackC.filterMap id) < 105) ∧
  (let q : Requester := .fn 0
   let p : Fin 4 := 3
   let v : BitVec 32 := 20000
   let s : State := live
   access q (.blk (0x200010 + 4 * p)) true s = .go ∧ 20000 ≤ v.toNat % 2 ^ 18 ∧ v.toNat % 2 ^ 18 ≤ 250000) ∧
  (let i : Fin 13 := 12
   let s : State := { live with clk := { live.clk with relock := 0x1000 } }
   bit s.clk.relock i = true ∧ (i.val < 9 ∨ (s.port (i - 9)).enable = false)) ∧
  (let i : Fin 13 := 8
   let s : State := { live with clk := { live.clk with relock := 0x100 } }
   bit s.clk.relock i = true) ∧
  (let why : ReadEnd := .timeout
   let t : Fin 64 := 1
   let r : Fin 8 := 0
   let s : State := live
   s.fetchable t r = true ∧ (why ≠ .timeout ∨ (s.func 0).ctoDisable = false)) ∧
  (let s : State := live
   s.hif.linkUp = true ∧ (s.func 0).flrBusy = false) ∧
  (let t : Fin 64 := 1
   let s : State := live
   s.configurable t = true ∧ (s.func t).bme = true) ∧
  (let t : Fin 64 := 2
   let s : State := live
   s.configurable t = true ∧ (s.func t).bme = false) ∧
  (let q : Requester := .fn 0
   let i : Fin 49152 := 49151
   let v : BitVec 32 := 0x0000FFFF
   let s : State := live
   access q (.blk (baseTEN + 0x10000 + 4 * i)) true s = .go ∧ s.locked i = false ∧ (s.mapEntry i).valid = false ∧
   bit v 31 = false) ∧
  (let q : Requester := .fn 0
   let t : Fin 64 := 63
   let s : State := live.setTenant 63 { mapBase := 49151, mapCount := 1 }
   access q (.blk (tenBlock t)) true s = .go ∧ (s.tenant t).enable = false ∧ (s.tenant t).disabling = false ∧
   s.tenantExists t = true ∧ (s.tenant t).mapBase.toNat + (s.tenant t).mapCount.toNat ≤ 49152 ∧ s.overlaps t = false ∧
   s.scrubbing t = false) ∧
  (let q : Requester := .fn 0
   let t : Fin 64 := 1
   let s : State := live
   access q (.blk (tenBlock t)) true s = .go ∧ (s.tenant t).enable = true ∧ (s.tenant t).disabling = false) ∧
  (let t : Fin 64 := 1
   let s : State := live.setTenant 1 { enable := true, disabling := true }
   (s.tenant t).disabling = true ∧ (∀ r ∈ ringsOf, (s.ring t r).inflight = []) ∧ (s.tenant t).hintDue = false) ∧
  (let q : Requester := .fn 0
   let t : Fin 64 := 63
   let s : State := live.setTenant 63 { mapBase := 49151, mapCount := 1 }
   access q (.blk (tenBlock t)) true s = .go ∧ (s.tenant t).enable = false) ∧
  (let s : State := { live with ten := { live.ten with scrubQ := [{ ppn := 36864, owner := none }] } }
   let p : ScrubPage := { ppn := 36864, owner := none }
   let rest : List ScrubPage := []
   s.ten.scrubQ = p :: rest ∧ s.pwr.dstate = .d0 ∧ s.on (domMEM (p.ppn / stackPages)) = true) ∧
  (let q : Requester := .fn 1
   let t : Fin 64 := 1
   let r : Fin 8 := 7
   let k : BitVec 5 := 16
   let s : State := live
   access q (.tpg t (ringCtl r)) true s = .go ∧ (s.ring t r).enable = false ∧ (s.ring t r).inflight = [] ∧
   4 ≤ k.toNat ∧ k.toNat ≤ 16) ∧
  (let q : Requester := .fn 1
   let t : Fin 64 := 1
   let r : Fin 8 := 7
   let s : State := live
   access q (.tpg t (ringCtl r)) true s = .go) ∧
  (let q : Requester := .fn 1
   let t : Fin 64 := 1
   let s : State := live
   access q (.tpg t 0x308) true s = .go) ∧
  (let s : State := cxlLive.setTenant 1 { enable := true, chime := .held }
   s.hif.cxl = true ∧ s.hif.linkUp = true) ∧
  (let t : Fin 64 := 1
   let s : State := live
   s.hif.cxl = false ∧ s.linkOk t = true ∧ (s.tenant t).enable = true ∧ s.boot.ready = true) ∧
  (let t : Fin 64 := 1
   let line : List Byte := List.replicate 64 255
   let s : State := cxlLive.setTenant 1 { enable := true, chime := .reading }
   line.length = 64 ∧ s.hif.cxl = true ∧ (s.tenant t).chime = .reading) ∧
  (let t : Fin 64 := 1
   let r : Fin 8 := 0
   let d : List (List Byte) := [List.replicate 64 0]
   let s : State := live
   1 ≤ d.length ∧ d.length ≤ 8 ∧ (∀ x ∈ d, x.length = 64) ∧ s.fetchable t r = true ∧ d.length ≤ s.fetchLimit t r) ∧
  (let t : Fin 64 := 1
   let s : State := cxlLive.setTenant 1 { enable := true, hintDue := true }
   s.hif.cxl = true ∧ s.hif.linkUp = true ∧ s.hif.l1 = false ∧ s.pwr.dstate = .d0 ∧ (s.func t).bme = true ∧
   (s.tenant t).enable = true ∧ (s.tenant t).hintDue = true) :=
  by and_intros <;> decide

set_option maxRecDepth 20000 in
theorem test_meets_EventGridAndJobCommandsComplete :
  (let t : Fin 64 := 1
   let r : Fin 8 := 0
   let d : Inflight := { seq := 0, desc := [0], st := .decided { status := 2 } }
   let rest : List Inflight := []
   let c : Cpl := { status := 2 }
   let s : State := live.setRing 1 0 { enable := true, inflight := [d] }
   (s.ring t r).inflight = d :: rest ∧ d.st = .decided c ∧ s.decision d = some c ∧ s.linkOk t = true ∧
   s.firmware (coreOf t) = true ∧ (s.ring t r).space = true ∧ (s.ring t r).half = none ∧
   s.atPort (.completion t r) = [] ∧ s.gongFree (gongPort (.completion t r)) = true) ∧
  (let t : Fin 64 := 1
   let r : Fin 8 := 0
   let s : State := live.setRing 1 0 { enable := true, markerDue := true }
   (s.ring t r).enable = true ∧ (s.ring t r).markerDue = true ∧ (s.ring t r).inflight = [] ∧ (s.ring t r).half = none ∧
   (s.ring t r).space = true ∧ s.mayFetch t = true ∧ s.atPort (.marker t r) = [] ∧
   s.gongFree (gongPort (.marker t r)) = true) ∧
  (let n : Nat := 511
   let s : State := { live with gng := { live.gng with held := [.source 511] } }
   s.on domMGT = true ∧ s.grantable (.source n) = true) ∧
  (let q : Requester := .fn 0
   let s : State := live
   access q (.blk 0x500000) false s = .go) ∧
  (let q : Requester := .fn 0
   let s : State := live
   access q (.blk 0x500010) false s = .go) ∧
  (let k : Fin 20 := 19
   let b : Bool := true
   let s : State := live
   s.ckAon = true ∧ s.drivenOther k b = false ∧ (k.val < 16 ∨ b = true)) ∧
  (let n : Fin 512 := 511
   let s : State := live
   s.on domMGT = true ∧ reservedSource n = false ∧ isPin n = false ∧ s.atPort (.source n) = [] ∧
   s.gongFree (gongPort (.source n)) = true) ∧
  (let k : Fin 20 := 19
   let b : Bool := true
   let s : State := { live with pwr := { live.pwr with dstate := .d3cold }, car := { live.car with levels := 0, latches := 0 } }
   s.on domAON = true ∧ s.ckAon = false ∧ bit s.car.latches k = false ∧ senses (s.src (384 + k)).sense b = true ∧
   s.hif.pmeEn = false) ∧
  (let s : State := { live with car := { live.car with levels := 0x10000 } }.setSrc 400 { sense := 1 }
   s.ckAon = true ∧ s.on domMGT = true) ∧
  (let q : Requester := .fn 0
   let n : Fin 512 := 511
   let v : BitVec 32 := 0x000380FF
   let s : State := live
   access q (.blk (baseCAR + 4 * n)) true s = .go ∧ (s.src n).active = false ∧ (s.src n).presented = false ∧
   (s.src n).target = v.extractLsb' 15 3 ∧ (s.src n).vector = v.extractLsb' 18 6 ∧ (s.src n).sense = v.extractLsb' 12 3) ∧
  (let n : Fin 512 := 511
   let s : State := live.setSrc 511 { pending := true, mask := false, target := 3 }
   s.on domMGT = true ∧ s.boot.stage = .running ∧ (s.src n).target.toNat < 4 ∧ s.selected n = true) ∧
  (let c : Fin 4 := 3
   let n : Nat := 40
   let s : State := live.setSrc 40 { pending := true, mask := false, target := 3, presented := true }
   access (.core c) (.blk (baseCAR + 0x4000 + 0x10 * c)) false s = .go ∧ s.presentedTo c = some n ∧
   s.car.holdoff.find 0 (sourceGroup n) = 0) ∧
  (let c : Fin 4 := 3
   let v : BitVec 32 := 40
   let s : State := (live.setSrc 40 { active := true }).setClaimed 3 [(40, 0)]
   access (.core c) (.blk (baseCAR + 0x4004 + 0x10 * c)) true s = .go ∧
   (s.claimed c).any (fun x => x.1 == fld v 0 9) = true) ∧
  (let q : Requester := .fn 0
   let w : Fin 16 := 15
   let s : State := live
   access q (.blk (baseCAR + 0x800 + 4 * w)) true s = .go) ∧
  (let q : Requester := .fn 0
   let n : Fin 512 := 511
   let v : BitVec 32 := 0x80000000
   let s : State := live
   access q (.blk (baseCAR + 0x1000 + 4 * n)) true s = .go ∧ bit v 31 = true) ∧
  (let q : Requester := .fn 0
   let n : Fin 512 := 511
   let s : State := live
   access q (.blk (baseCAR + 0x2000 + 8 * n)) false s = .go) ∧
  (let t : Fin 64 := 1
   let r : Fin 8 := 0
   let s : State := live.setRing 1 0 { uncovered := 1 }
   (s.ring t r).uncovered ≠ 0) ∧
  (let q : Requester := .fn 1
   let t : Fin 64 := 1
   let r : Fin 8 := 7
   let s : State := live
   access q (.tpg t (0x400 + 8 * r)) true s = .go ∧ (s.ring t r).uncovered = 0) ∧
  (let t : Fin 64 := 1
   let e : Fin 64 := 63
   let s : State := live.setFunc 1 { bme := true, mse := true, msixEn := true, pba := 0x8000000000000000, msix := (List.range 64).map (fun k => (4 * k + 3, 0)) }
   s.tenantExists t = true ∧ bit (s.func t).pba e = true ∧ (s.func t).blocked e = false ∧ s.pwr.dstate = .d0 ∧
   s.hif.l1 = false) ∧
  (let s : State := live
   s.hif.linkUp = true ∧ (s.func 0).flrBusy = false ∧ s.car.latches = 0) ∧
  (let s : State := { live with hif := { live.hif with l1 := true } }
   s.hif.l1 = true) ∧
  (let c : Fin 4 := 3
   let v : BitVec 32 := 0x000013FF
   let s : State := live
   access (.core c) (.blk baseGRD) true s = .go ∧ s.grd.chokeBusy = false ∧ fld v 10 3 ≤ 5) ∧
  (let i : Fin 1024 := 1023
   let s : State := live.setTile 1023 { running := true, wdog := 2500 }
   (s.tile i).running = true ∧ (s.tile i).job = none ∧ s.grd.wdogLimit.toNat ≤ (s.tile i).wdog.toNat) ∧
  (let s : State := { live with brd := { live.brd with auxPresent := true } }
   s.on domMGT = true) ∧
  (let q : Requester := .fn 0
   let i : Fin 1024 := 1023
   let s : State := live
   access q (.blk (tileReg i 0x8)) false s = .go ∧ s.on (domGRID (quadrant i)) = true) ∧
  (let q : Requester := .fn 0
   let s : State := live
   access q (.blk (baseGRD + 0x30)) false s = .go) ∧
  (let k : Fin 4 := 3
   let s : State := live
   s.on (domMEM k) = true ∧ s.pwr.dstate = .d0 ∧ s.dramHeld k = false) ∧
  (let q : Requester := .fn 0
   let k : Fin 4 := 3
   let v : BitVec 32 := 0x5A5A0008
   let s : State := live
   access q (.blk (baseMEM + 0x80)) true s = .go ∧ keyed v = true ∧ fld v 0 4 = 2 ^ k.val) ∧
  (let q : Requester := .fn 0
   let k : Fin 4 := 3
   let s : State := live
   access q (.blk (baseMEM + 0x50 + 4 * k)) false s = .go) ∧
  (let q : Requester := .fn 0
   let k : Fin 4 := 3
   let s : State := live
   access q (.blk (baseMEM + 0x60 + 4 * k)) false s = .go) ∧
  (let k : Fin 4 := 3
   let s : State := live.setStack 3 { trained := true, hot := true, cool := 100 }
   (s.stack k).hot = true ∧ 100 ≤ (s.stack k).cool) ∧
  (let t : Fin 64 := 1
   let r : Fin 8 := 0
   let d : Inflight := { seq := 0, desc := List.replicate 64 0, st := .fetched }
   let s : State := live.setRing 1 0 { enable := true, inflight := [d] }
   (s.ring t r).unchecked = some d ∧ le d.desc 0 1 = 0 ∧ s.firmware (coreOf t) = true ∧ badByte d.seq d.desc = none) ∧
  (let t : Fin 64 := 1
   let r : Fin 8 := 0
   let hdr : List Byte := []
   let d : Inflight := { seq := 0, desc := [1] ++ List.replicate 63 0, st := .fetched }
   let m : Option Dims := none
   let s : State := withManifest.setRing 1 0 { enable := true, inflight := [d] }
   let b : State := (readChecks schBlock t r d aManifest.reads s).2
   let v : State := b
   (s.ring t r).unchecked = some d ∧ le d.desc 0 1 ≠ 0 ∧ fenced d.desc = false ∧
   (s.ring t r).clearBefore d.seq = true ∧ s.checking t = true ∧ s.checkWaits t d.desc = false ∧
   s.Passes t r d hdr m aManifest b v) ∧
  (let t : Fin 64 := 1
   let r : Fin 8 := 0
   let hdr : List Byte := []
   let rest : List Inflight := []
   let d : Inflight := { seq := 0, desc := [1, 4] ++ List.replicate 62 0, st := .fetched }
   let m : Option Dims := none
   let s : State := withManifest.setRing 1 0 { enable := true, inflight := [d] }
   let b : State := (readChecks schBlock t r d aManifest.reads s).2
   let v : State := b
   (s.ring t r).inflight = d :: rest ∧ d.st = .fetched ∧ le d.desc 0 1 ≠ 0 ∧ fenced d.desc = true ∧
   s.checking t = true ∧ s.checkWaits t d.desc = false ∧ s.Passes t r d hdr m aManifest b v) ∧
  (let id : Nat := 7
   let o : Nat := 0
   let j : Job := { aJob with phase := .waiting }
   let s : State := withJob j
   let v : State := (readRegions schBlock id j.tenant j.programs (powerQuadrants (rect o j.man.width j.man.height) s)).2
   s.order = [id] ∧ s.job? id = some j ∧ j.queued = true ∧ s.placing j.tenant = true ∧ s.heldBack j = false ∧
   j.kept = none ∧ j.phase = .waiting ∧ j.find (s.tileFree id) = some o ∧ s.claimedAny j.tenant j.programs = false ∧
   readRegions schBlock id j.tenant j.programs (powerQuadrants (rect o j.man.width j.man.height) s) = (true, v)) ∧
  (let id : Nat := 7
   let p : Nat := 0
   let j : Job := { aJob with phase := .waiting, passedAt := some 0 }
   let s : State := { withJob j with now := 2500000 }
   s.job? id = some j ∧ j.queued = true ∧ j.passedAt = some p ∧ p + 2500000 ≤ s.now) ∧
  (let k : Nat := 1
   let id : Nat := 7
   let o : Nat := 0
   let j : Job := { aJob with id := 1, tenant := 2, origin := 0, ran := 250000 }
   let s : State := ({ live with sch := { live.sch with slice := 1, tens := [(1, { limit := 1024 }), (2, { limit := 1024, used := 1 })], jobs := [j, { aJob with phase := .waiting, passedAt := some 0 }] } }).setTile 0 { running := true, tag := 5, job := some 1 }
   s.job? k = some j ∧ s.sliceClaim j = some (id, o)) ∧
  (let id : Nat := 7
   let j : Job := { aJob with phase := .preempting }
   let s : State := (withJob j).setTile 1023 { tag := 5, job := some 7, atBar := true }
   s.job? id = some j ∧ j.phase = .preempting ∧ s.quiet j = true ∧ j.tiles.any (fun i => (s.tile i).atBar) = true) ∧
  (let id : Nat := 7
   let j : Job := { aJob with phase := .spilling }
   let s : State := withJob j
   s.job? id = some j ∧ j.phase = .spilling ∧
   s.claimedIn j.tenant (s.spillAddr j.tenant j.spillFirst) (72 * j.spillLines) = false ∧
   (∀ i ∈ j.tiles, (s.tile i).spillParity j.man.decls = none)) ∧
  (let id : Nat := 7
   let j : Job := { aJob with phase := .spilled, kept := some 1023 }
   let s : State := { live with sch := { live.sch with tens := [(1, { limit := 1024, spillLines := 8 })], jobs := [j] } }
   let v : State := (readRegions schBlock id j.tenant (j.programs ++ s.slotRegions j) (powerQuadrants j.tiles s)).2
   s.job? id = some j ∧ j.phase = .spilled ∧ j.kept = some j.origin ∧ j.tiles.all (s.tileFree id) = true ∧
   s.placing j.tenant = true ∧ s.claimedAny j.tenant (j.programs ++ s.slotRegions j) = false ∧
   readRegions schBlock id j.tenant (j.programs ++ s.slotRegions j) (powerQuadrants j.tiles s) = (true, v)) ∧
  (let i : Fin 1024 := 1023
   let id : Nat := 7
   let j : Job := aJob
   let s : State := running 0 { interval := 10, barTime := 5000 }
   (s.tile i).job = some id ∧ (s.tile i).running = true ∧ 500 * (s.tile i).interval ≤ (s.tile i).barTime ∧
   s.job? id = some j) ∧
  (let id : Nat := 7
   let j : Job := { aJob with phase := .output, stageDue := true, desc := [1] ++ List.replicate 28 0 ++ [3] ++ List.replicate 34 0, man := { outStage := 1, outCardFmt := 3 } }
   let s : State := withJob j
   let v : State := s
   let c : Fmt := .n9
   let h : Fmt := .n9
   s.job? id = some j ∧ j.phase = .output ∧ j.man.outStage = 1 ∧ j.stageDue = true ∧ s.linkOk j.tenant = true ∧
   s.claimedIn j.tenant j.man.outRegion j.man.outBytes = false ∧
   readRegions schBlock id j.tenant [(j.man.outRegion, j.man.outBytes)] s = (true, v) ∧
   Fmt.ofCode j.man.outCardFmt = some c ∧ Fmt.ofCode (dOutFmt j.desc) = some h) ∧
  (let id : Nat := 7
   let j : Job := { aJob with phase := .output }
   let s : State := withJob j
   s.job? id = some j ∧ j.phase = .output ∧ j.stageDue = false ∧ j.pictures = 0) ∧
  (let j : Job := aJob
   let s : State := withJob aJob
   s.on domMGT = true ∧ s.sch.jobs = [j]) ∧
  (let q : Requester := .fn 0
   let t : Fin 64 := 63
   let s : State := live
   access q (.blk (baseSCH t + 0x18)) false s = .go) := by
  and_intros <;> first
    | exact grantable_one _ _ rfl rfl
    | exact find_one _ _ (by decide) rfl rfl (by decide)
    | exact { fields := by decide, tags := rfl, source := rfl, aux := rfl, manifest := rfl, read := rfl, legal := rfl
              output := rfl, alone := rfl, domains := rfl, tiles := tileCheck_one _ rfl (by decide), channels := rfl
              outliers := by decide, spill := by decide, bandwidth := by decide }
    | decide

set_option maxRecDepth 20000 in
theorem test_meets_TimerLineAndTableCommandsComplete :
  (let s : State := { live with wbk := { live.wbk with time := BitVec.allOnes 40 } }
   s.on domMGT = true ∧ s.wbk.time = BitVec.allOnes 40) ∧
  (let q : Requester := .fn 0
   let s : State := live
   access q (.blk 0x700000) false s = .go) ∧
  (let q : Requester := .fn 0
   let p : Fin 4 := 3
   let s : State := live
   access q (.blk (basePOS p + 0xC)) false s = .go) ∧
  (let q : Requester := .fn 0
   let p : Fin 4 := 3
   let s : State := live
   access q (.blk (basePOS p + 4)) true s = .go) ∧
  (let q : Requester := .fn 0
   let k : Fin 16 := 15
   let v : BitVec 32 := 0x4b60
   let s : State := live
   access q (.blk (baseCH k)) true s = .go ∧ (q = .fn 0 → s.owned k = false) ∧ (s.chan k).armed = false ∧
   bit v 31 = false ∧ fld v 12 3 ≤ 4 ∧ fld v 10 2 ≠ 3 ∧ fld v 5 5 ≤ 27) ∧
  (let q : Requester := .fn 0
   let k : Fin 16 := 15
   let s : State := live
   access q (.blk (baseCH k + 4)) true s = .go ∧ (q = .fn 0 → s.owned k = false)) ∧
  (let k : Fin 16 := 15
   let s : State := live.setChan 15 { armed := true, mode := 1 }
   s.on domMGT = true ∧ (s.chan k).armed = true ∧ (s.chan k).mode = 1 ∧ (s.chan k).base = 0 ∧
   (s.chan k).cmp = s.wbk.time ∧ (s.chan k).matched = false) ∧
  (let i : Fin 28 := 27
   let e : Bool := true
   let s : State := live.setChan 15 { armed := true, mode := 2, capSrc := 27, edgeDir := 1 }
   s.drivenOther i e = false) ∧
  (let q : Requester := .fn 0
   let k : Fin 16 := 15
   let s : State := live
   access q (.blk (baseCH k + 0x18)) false s = .go) ∧
  (let k : Fin 16 := 15
   let s : State := live.setChan 15 { pulse := 1 }
   (s.chan k).pulse = 1) ∧
  (let q : Requester := .fn 0
   let p : Fin 4 := 3
   let v : BitVec 32 := 0x80000000
   let s : State := (live.setPort 3 { fmt := 0x00C00007, tenant := 1, runup := 2 }).setChan 0 { step := 1 }
   let x : Port := { s.port p with motion := bit v 30, hostRead := bit v 28 }
   access q (.blk (baseROL p)) true s = .go ∧ (s.port p).enable = false ∧ bit v 31 = true ∧
   (s.setPort p x).enableErr p x = 0) ∧
  (let q : Requester := .fn 0
   let p : Fin 4 := 3
   let s : State := live.setPort 3 { enable := true, state := .run }
   access q (.blk (baseROL p)) true s = .go ∧ (s.port p).enable = true) ∧
  (let p : Fin 4 := 3
   let s : State := live.setPort 3 { enable := true, state := .train }
   let pairs : List (List (BitVec 16)) := List.replicate (s.port p).lanes (List.replicate 64 0x0F35)
   (s.port p).enable = true ∧ s.on domFRONT = true ∧ s.suppressed p = false ∧ (s.port p).aligned pairs = true ∧
   (s.port p).state = .train) ∧
  (let p : Fin 4 := 3
   let s : State := live.setPort 3 { enable := true, state := .train }
   (s.port p).enable = true ∧ (s.port p).state = .train) ∧
  (let p : Fin 4 := 3
   let received : Bool := true
   let pos : BitVec 32 := 5
   let rest : List (BitVec 32) := []
   let s : State := live.setPort 3 { enable := true, state := .run, requests := [5] }
   (s.port p).requests = pos :: rest ∧ (s.port p).enable = true ∧ (s.port p).state = .run ∧ s.on domFRONT = true ∧
   (s.port p).q = none ∧ (s.setPort p { s.port p with requests := rest }).issues p received = true) ∧
  (let p : Fin 4 := 3
   let l : Issued := { pos := 0, time := 0, seam := false }
   let s : State := live.setPort 3 { enable := true, state := .run, issued := [l] }
   (s.port p).issued.getLast? = some l) ∧
  (let p : Fin 4 := 3
   let received : Bool := false
   let s : State := live.setPort 3 { enable := true, state := .run }
   (s.port p).enable = true ∧ s.on domFRONT = true ∧ (s.port p).state ≠ .train ∧
   (received = true ∨ (s.port p).issued = [])) ∧
  (let p : Fin 4 := 3
   let l : Issued := { pos := 0, time := 0, seam := true }
   let rest : List Issued := []
   let s : State := live.setPort 3 { enable := true, state := .run, issued := [l] }
   let pairs : List (List Bool) := List.replicate (s.port p).lanes
     (syncWord ++ List.replicate ((s.port p).lineBits - 16) true)
   (s.port p).issued = l :: rest ∧ (s.port p).framed pairs = true ∧ s.on domFRONT = true) ∧
  (let p : Fin 4 := 3
   let s : State := live.setPort 3 { enable := true, state := .stopping }
   (s.port p).enable = true ∧ s.on domFRONT = true ∧ (s.port p).state = .stopping ∧ (s.port p).mfltStop = false) ∧
  (let p : Fin 4 := 3
   let s : State := live.setPort 3 { enable := true, state := .waitLow }
   (s.port p).enable = true ∧ s.on domFRONT = true ∧ (s.port p).kind ≠ 2 ∧ s.group p = [p.val] ∧
   (s.port p).state = .waitLow ∧ (s.port p).fill ≤ (s.port p).lw.toNat ∧ s.mfltHigh p = true ∧
   atOrBelow (s.pos (s.posOf p)).val (s.groupB [p.val]) = true) ∧
  (let p : Fin 4 := 3
   let s : State := live.setPort 3 { enable := true, state := .fault }
   access (.fn 0) (.blk (baseROL p)) true s = .go ∧ (s.port p).state = .fault ∧ s.mfltHigh p = true) ∧
  (let q : Requester := .fn 0
   let p : Fin 4 := 3
   let s : State := (live.setPort 3 { fmt := 0x00C00007, tenant := 1, runup := 2 }).setChan 0 { step := 1 }
   access q (.blk (baseROL p)) true s = .go) ∧
  (let q : Requester := .fn 0
   let p : Fin 4 := 3
   let s : State := live
   access q (.blk (baseROL p + 0x40)) true s = .go) ∧
  (let q : Requester := .fn 0
   let p : Fin 4 := 3
   let s : State := live
   access q (.blk (baseROL p + 0x38)) false s = .go) ∧
  (let q : Requester := .fn 0
   let p : Fin 4 := 3
   let s : State := live
   access q (.blk (baseROL p + 0x54)) false s = .go) ∧
  (let q : Requester := .fn 0
   let n : Fin 16 := 15
   let v : BitVec 32 := 0x82000001
   let s : State := live
   access q (.blk (baseINK n)) true s = .go ∧ (s.queue n).enable = false ∧ bit v 31 = true ∧
   s.queueErr { s.queue n with cfg := v &&& 0x6FE0003F, tags := if bit v 28 then [] else (s.queue n).tags } = 0) ∧
  (let q : Requester := .fn 0
   let n : Fin 16 := 15
   let s : State := live
   access q (.blk (baseINK n)) true s = .go) ∧
  (let q : Requester := .fn 0
   let n : Fin 16 := 15
   let s : State := live
   access q (.blk (baseINK n + 0x2C)) false s = .go) ∧
  (let n : Fin 16 := 15
   let y : Sample := { ring := 0, seq := 0, job := some 7, lines := 1, z := 1 }
   let j : Job := aJob
   let s : State := (withJob j).setQueue 15 { cfg := 0x82000001, samples := [y] }
   s.cutting n = some (y, j) ∧ s.inkServes n = true ∧ 4 ≤ (s.queue n).kind ∧ y.cut = false ∧ y.budget = 0) ∧
  (let n : Fin 16 := 15
   let y : Sample := { ring := 0, seq := 0, job := some 7, lines := 1, z := 1, cut := true }
   let j : Job := aJob
   let s : State := ((withJob j).setQueue 15 { cfg := 0x82000001, samples := [y] }).setPort 0 { enable := true, wr := 1 }
   let p := s.port (s.queue n).port
   let v : State := (readRegions inkBlock j.id p.tenant.toNat [(p.slotAddr p.rd, p.slotBytes)] s).2
   s.cutting n = some (y, j) ∧ s.inkServes n = true ∧ (s.queue n).kind = 4 ∧ y.cut = true ∧ y.taken < y.lines ∧
   0 < (s.port (s.queue n).port).fill ∧ (s.port (s.queue n).port).hostRead = false ∧
   s.claimedAny p.tenant.toNat [(p.slotAddr p.rd, p.slotBytes)] = false ∧
   readRegions inkBlock j.id p.tenant.toNat [(p.slotAddr p.rd, p.slotBytes)] s = (true, v)) ∧
  (let n : Fin 16 := 15
   let y : Sample := { ring := 0, seq := 0, job := some 7, lines := 1, z := 1, cut := true }
   let j : Job := aJob
   let k : Nat := 0
   let s : State := ((withJob j).setQueue 15 { cfg := 0x82800001, samples := [y] }).setStream 0
     { enable := true, cfg := 0x9F000001, outWr := 1 }
   let c := s.stream k
   let v : State := (readRegions inkBlock j.id c.tenant [c.slotAt c.outRd] s).2
   s.cutting n = some (y, j) ∧ s.feeder n = some k ∧ s.inkServes n = true ∧ (s.queue n).kind = 5 ∧ y.cut = true ∧
   y.taken = 0 ∧ c.outWr ≠ c.outRd ∧ s.claimedAny c.tenant [c.slotAt c.outRd] = false ∧
   readRegions inkBlock j.id c.tenant [c.slotAt c.outRd] s = (true, v)) ∧
  (let n : Fin 16 := 15
   let id : Nat := 7
   let input : List Byte := []
   let y : Sample := { ring := 0, seq := 0, job := some 7, z := 1 }
   let j : Job := { aJob with srcDims := (1, 1, 1), desc := List.replicate 24 0 ++ [17] ++ List.replicate 39 0 }
   let s : State := (withJob j).setQueue 15 { cfg := 0x81800001, samples := [y] }
   let f : DecodeFault := (0, 0)
   s.sampleFor n id = some y ∧ s.job? id = some j ∧ s.decodes n y j = true ∧
   decodePlanes (s.queue n).kind j.srcDims (input.take (dInLen j.desc)) = .error f) ∧
  (let n : Fin 16 := 15
   let id : Nat := 7
   let input : List Byte := List.replicate 17 255
   let y : Sample := { ring := 0, seq := 0, job := some 7, z := 1 }
   let j : Job := { aJob with srcDims := (1, 1, 1), desc := List.replicate 24 0 ++ [17] ++ List.replicate 39 0 }
   let s : State := (withJob j).setQueue 15 { cfg := 0x81800001, samples := [y] }
   let ps : List (List Byte) := [[255]]
   let used : Nat := 17
   s.sampleFor n id = some y ∧ s.job? id = some j ∧ s.decodes n y j = true ∧
   decodePlanes (s.queue n).kind j.srcDims (input.take (dInLen j.desc)) = .ok (ps, used) ∧
   s.claimedAny j.tenant (s.sampleWrites n j y) = false ∧
   (∀ r ∈ s.sampleWrites n j y, s.mapped j.tenant r.1 r.2 = true)) ∧
  (let n : Fin 16 := 15
   let y : Sample := { ring := 0, seq := 0, job := some 7, complete := true }
   let rest : List Sample := []
   let s : State := (withJob aJob).setQueue 15 { samples := [y] }
   (s.queue n).samples = y :: rest ∧ s.sampleDone n y = true) ∧
  (let id : Nat := 7
   let input : List Byte := [0]
   let j : Job := { aJob with loadDue := true, desc := List.replicate 24 0 ++ [1, 0, 0, 0, 2] ++ List.replicate 35 0 }
   let f : Fmt := .s8
   let s : State := withJob j
   s.job? id = some j ∧ j.loadDue = true ∧ j.result = none ∧ s.on domFRONT = true ∧ s.linkOk j.tenant = true ∧
   Fmt.ofCode (dInFmt j.desc) = some f ∧
   s.claimedAny j.tenant [(72 * dParam j.desc, 72 * ceilDiv (loadNonets f (dInWide j.desc) (dZero j.desc) (input.take (dInLen j.desc))).length 64)] = false ∧
   s.mapped j.tenant (72 * dParam j.desc) (72 * ceilDiv (loadNonets f (dInWide j.desc) (dZero j.desc) (input.take (dInLen j.desc))).length 64) = true) ∧
  (let q : Requester := .fn 0
   let t : Fin 64 := 63
   let s : State := live.setTokTen 63 { tokValid := true }
   access q (.blk (baseTOK t)) true s = .go ∧ s.tokLocked t = false ∧ (s.tokTen t).tokValid = true) ∧
  (let t : Fin 64 := 1
   let s : State := live.setTokTen 1 { checking := .set }
   (s.tokTen t).checking = .set ∧ s.on domTOK = true ∧ s.claimedAny t (s.setReads t) = false) ∧
  (let t : Fin 64 := 1
   let s : State := live.setTokTen 1 { checking := .grammar }
   (s.tokTen t).checking = .grammar ∧ s.on domTOK = true ∧ s.claimedAny t (s.gramReads t) = false) ∧
  (let q : Requester := .fn 0
   let s : State := live
   access q (.blk 0xE00010) false s = .go) ∧
  (let x : TokStream := { job := 7, tenant := 1, detok := false }
   let rest : List TokStream := []
   let s : State := { withJob aJob with tok := { live.tok with streams := [x], onDie := some 1, serving := false } }
   s.tok.streams = x :: rest ∧ s.liveStreams = x :: rest ∧ s.on domTOK = true ∧ s.tok.serving = false ∧
   s.tok.onDie = some x.tenant ∧ x.detok = false) ∧
  (let x : TokStream := { job := 7, tenant := 1, detok := true }
   let rest : List TokStream := []
   let s : State := { withJob aJob with tok := { live.tok with streams := [x], onDie := some 1, serving := false } }
   s.tok.streams = x :: rest ∧ s.liveStreams = x :: rest ∧ s.on domTOK = true ∧ s.tok.serving = false ∧
   s.tok.onDie = some x.tenant ∧ x.detok = true) ∧
  (let x : TokStream := { job := 7, tenant := 1, detok := false }
   let rest : List TokStream := []
   let j : Job := aJob
   let s : State := { withJob aJob with tok := { live.tok with streams := [x], onDie := some 1, serving := true } }
   s.tok.streams = x :: rest ∧ s.liveStreams = x :: rest ∧ s.on domTOK = true ∧ s.tok.serving = true ∧
   x.detok = false ∧ s.job? x.job = some j ∧ s.linkOk j.tenant = true ∧
   s.claimedAny j.tenant [s.streamRegion j] = false ∧
   s.mapped j.tenant (s.streamRegion j).1 (s.streamRegion j).2 = true) ∧
  (let x : TokStream := { job := 7, tenant := 1, detok := true }
   let rest : List TokStream := []
   let j : Job := aJob
   let s : State := { withJob aJob with tok := { live.tok with streams := [x], onDie := some 1, serving := true } }
   s.tok.streams = x :: rest ∧ s.liveStreams = x :: rest ∧ s.on domTOK = true ∧ s.tok.serving = true ∧ x.detok = true ∧
   s.job? x.job = some j ∧ s.linkOk j.tenant = true ∧ s.claimedIn j.tenant j.man.outRegion j.man.outBytes = false) ∧
  (let i : Fin 1024 := 1023
   let t : Fin 64 := 1
   let slot : Fin 1024 := 1023
   let n : Nat := 0
   let x : Xfer := { store := true, dline := 1023, sline := 0, lines := 1, pc := 0, tenant := 1, job := 7 }
   let s : State := (running 0 { xfers := [x] }).setTokTen 1 { slots := 1024 }
   s.on domTOK = true ∧ slot.val < (s.tokTen t).slots.toNat ∧ s.tok.damps.length < 256 ∧
   s.requestXfer i t ((s.tokTen t).dampReq.toNat + slot) 8 = some (n, x)) ∧
  (let r : DampReq := { job := 7, tenant := 1, slot := 0, words := [] }
   let rest : List DampReq := []
   let s : State := { live with tok := { live.tok with tens := [(1, { gramValid := true })], dampOn := some 1, damps := [r] } }
   s.tok.damps = r :: rest ∧ s.on domTOK = true ∧ (s.tokTen r.tenant).gramValid = true ∧ s.tok.dampOn = some r.tenant) :=
  by and_intros <;> decide

/-! ## Ill-formed commands

One ill-formed term for each check of WellFormed. Its meaning answers the fault of malformed data, or, where the data
fails no test of the meaning itself, does nothing. -/

theorem test_wf_access_without_bytes :
    (Instr.registerWrite (.fn 0) .bar 0x100000 0 15 0).wf = false ∧ (Instr.registerRead (.fn 0) .bar 0x100000 0 15).wf = false ∧
    exec (.registerWrite (.fn 0) .bar 0x100000 0 15 0) live = .fault .malformed ∧
    exec (.registerRead (.fn 0) .bar 0x100000 0 15) live = .fault .malformed := ⟨by decide, by decide, rfl, rfl⟩

theorem test_wf_temperatures :
    (Instr.tempSample (List.replicate 63 20) [none, none, none, none]).wf = false ∧
    (Instr.tempSample (List.replicate 64 20) [none, none, none]).wf = false := by decide

theorem test_wf_link_width_and_speed : (Instr.linkTrain 3 5 false).wf = false ∧ (Instr.linkTrain 16 6 false).wf = false := by
  decide

theorem test_wf_chime_line : (Instr.chimeLineData 0 (List.replicate 63 0)).wf = false := by decide

theorem test_wf_descriptors :
    (Instr.descriptorFetch 0 0 []).wf = false ∧ (Instr.descriptorFetch 0 0 [List.replicate 63 0]).wf = false ∧
    (Instr.descriptorFetch 0 0 (List.replicate 9 (List.replicate 64 0))).wf = false := by decide

theorem test_wf_flits :
    (Instr.flitDiscard 0 []).wf = false ∧ (Instr.firstFlit 0 []).wf = false ∧ (Instr.contFlit 0 []).wf = false ∧
    (Instr.abortFlit 0 []).wf = false ∧ (Instr.answerFlit 0 []).wf = false ∧
    exec (.firstFlit 0 []) live = .fault .malformed := by
  and_intros <;> first | decide | rfl

/-! ## The spec's worked cases

Expected results are the figures of the section that each test names. -/

/-- The state a command answers. -/
def after (c : Instr) (s : State) : State :=
  match exec c s with
  | .next t => t
  | _ => State.reset

/-- 00, "The bytes of a lane": nonets 0x1FF and 0x001. -/
theorem test_lane_of_nonets :
    laneOf [0x1FF, 1, 0, 0, 0, 0, 0, 0] = 0x3FF ∧ wordOf [0x1FF, 1, 0, 0] = 0x3FF ∧
    packNonets [0x1FF, 1, 0, 0, 0, 0, 0, 0] = [0xFF, 3, 0, 0, 0, 0, 0, 0, 0] := by decide

/-- 02: 13 packed nonets fill 15 bytes. -/
theorem test_packed_length : (packNonets (List.replicate 13 0x1FF)).length = 15 := by decide

/-- 02: U8 3 less a zero point of 128, and S8 0x83, are both 0x183. -/
theorem test_direct_load : loadNonets .u8 false 128 [3] = [0x183] ∧ loadNonets .s8 false 0 [0x83] = [0x183] := by decide

/-- 02: F36 17.0 to E4M3 and F36 -2.5 to N9, with ties to even and away from zero. -/
theorem test_halves :
    convertCode .f36 .e4m3 false false 0x418800000 = (0x58, false) ∧
    convertCode .f36 .e4m3 true false 0x418800000 = (0x59, false) ∧
    convertCode .f36 .n9 false false 0xC02000000 = (0x1FE, false) ∧
    convertCode .f36 .n9 true false 0xC02000000 = (0x1FD, false) := by decide

/-- 02: 440 and 450 to E4M3; 65,520 and 65,510 to FP16. -/
theorem test_largest_codes :
    convertCode .f36 .e4m3 false false 0x43DC00000 = (0x7E, false) ∧
    convertCode .f36 .e4m3 false false 0x43E100000 = (0x7E, true) ∧
    convertCode .f36 .fp16 false false 0x477FF0000 = (0x7BFF, true) ∧
    convertCode .f36 .fp16 false true 0x477FF0000 = (0x7C00, true) ∧
    convertCode .f36 .fp16 false true 0x477FE6000 = (0x7BFF, true) := by decide

/-- 03: a 300 W cable gives 375 W. -/
theorem test_available_power :
    (after (.auxInputPresent false true) live).effectiveCap = 375 ∧
    availW (after (.auxInputPresent true false) live).brd = 525 := by decide

/-- 04 and 21: PWR_VGRID_ACT reads 0x0001_0280. -/
theorem test_vgrid_act :
    (after (.registerRead (.fn 0) .bar 0x100008 4 15)
      { live with pwr := { live.pwr with vact := 640, capLimited := true } }).rdata = 0x10280 := by decide

/-- 05: TEN_MAP_4241 and tenant 5's addresses. -/
theorem test_translation :
    let s := (after (.tenMapWrite (.fn 0) 4241 0x800032C8) live).setTenant 5 { enable := true, mapBase := 4096, mapCount := 2048 }
    s.translate 5 0x12345678 = some 0x659145678 ∧ s.translate 5 0x100000000 = none := by decide

/-- 08: sources 400 (priority 0x21) and 97 (0x25) while core 1 is active on source 40 (0x60). -/
theorem test_priorities :
    let s := (((live.setSrc 40 { active := true, priority := 0x60, target := 1, mask := false }).setClaimed 1 [(40, 0x60)]).setSrc 400
      { pending := true, priority := 0x21, target := 1, mask := false }).setSrc 97
      { pending := true, priority := 0x25, target := 1, mask := false }
    s.selected 400 = true ∧ s.presentable 97 = true ∧ s.selected 97 = false := by decide

/-- The same, once core 1 has claimed source 400: source 97 waits. -/
theorem test_running_group :
    let s := ((live.setSrc 400 { active := true, priority := 0x21, target := 1, mask := false }).setClaimed 1
      [(400, 0x21), (40, 0x60)]).setSrc 97 { pending := true, priority := 0x25, target := 1, mask := false }
    s.presentable 97 = false := by decide

/-- 08: TPG_COAL2 = 0x01EA_1F00. -/
theorem test_coalescing_register :
    ((after (.coalWrite (.fn 1) 1 2 0x01EA1F00 false) live).ring 1 2).coal = { timeUs := 490, countM1 := 31, wake := false } := by
  decide

/-- 09: the header word of a message to mailbox 2 of tile 564 of unit 7. -/
theorem test_header_word :
    let l : Lane := 0x0078D0840
    hdrUnit l = 7 ∧ hdrTile l = 564 ∧ hdrMailbox l = 2 ∧ hdrLength l = 64 := by decide

/-- 10: the header lane as accepted, and the fields of the SEND word. -/
theorem test_header_lane :
    headerLane 7 163 0x123 0x007290480 = 0x048C01CA3007290480 ∧ wOp 0xD88338000 = 0x36 ∧ wRd 0xD88338000 = 4 ∧
    wRs1 0xD88338000 = 3 ∧ wRs2 0xD88338000 = 7 ∧ wFn 0xD88338000 = 0 := by decide

/-- 10: LUI g2, 0x520. -/
theorem test_lui : ((after (.lui 1023) (running 0x4C4000520 {})).tile 1023).reg 2 = 0x000290000 := by decide

/-- 10: SLLI g1, g1, 24. -/
theorem test_slli : ((after (.slli 1023) (running 0x402100018 { g := [(1, 7)] })).tile 1023).reg 1 = 0x007000000 := by decide

/-- 10: ORI g2, g2, 0x480. -/
theorem test_ori : ((after (.ori 1023) (running 0x384200480 { g := [(2, 0x000290000)] })).tile 1023).reg 2 = 0x000290480 := by
  decide

/-- 11: MMA with zpen = 1 and rz = 5: (3 - 128) times -7 is 875. -/
theorem test_mma :
    ((after (.mma 1023) (running 0xB40825000 { g := [(5, 128)], scr := [(0, 3)], w := [(0, 0x1F9)] })).tile 1023).acc.find 0 0
      = 875 := by decide

/-- 11: the float rescale, with chan 0x080, S2 2^-10 and bias -2. -/
theorem test_float_rescale :
    let v (a : Word) := rescaleFloat a 0x080 0x3A8000000 0xC00000000
    Fmt.n9.convert false false (v 1613824) = (0x060, false) ∧ Fmt.n9.convert true false (v 1613824) = (0x061, false) ∧
    Fmt.n9.convert false false (v 4206592) = (0x0FF, false) ∧ Fmt.n9.convert false false (v 4300000) = (0x0FF, true) := by decide

/-- 11: the folded rescale, with a shift of 4; an outlier's flag changes nothing. -/
theorem test_folded_rescale :
    Fmt.n9.convert false false (rescaleFolded 1000 0x004 0) = (0x03E, false) ∧
    Fmt.n9.convert true false (rescaleFolded 1000 0x004 0) = (0x03F, false) ∧
    Fmt.n9.convert false false (rescaleFolded (-1000) 0x004 0) = (0x1C2, false) ∧
    Fmt.n9.convert true false (rescaleFolded (-1000) 0x104 0) = (0x1C1, false) := by decide

/-- 11: GRD_TILEi_SATCFG3 = 0x03E8_0064. -/
theorem test_saturation_window : satCfgOf 0x03E80064 = { windowUs := 1000, threshold := 100 } := by decide

/-- 12: a reservation of 200,000 MB/s over 1,536 pages of stack 1 and 512 of stack 2, in the same proportion. -/
theorem test_placed : placed 200000 [12288, 12289, 12290, 24576] = [0, 150000, 50000, 0] := by decide

/-- 12: MEM_STACK1_SCALE of a hot stack. -/
theorem test_stack_scale :
    let s := ({ (live.setStack 1 { trained := true, hot := true }) with
      sch := { live.sch with jobs := [{ aJob with parts := [0, 548000, 0, 0] }] } }).setPort 0 { enable := true, parts := [0, 2000, 0, 0] }
    s.scaleOf 1 = 54772 := by decide

/-- 13: tenant 9, with the lower U / w, is served before tenant 5. -/
theorem test_shares :
    let s : State := { live with sch := { live.sch with
      tens := [(5, { share := 300, cls := 2, used := 900000 }), (9, { share := 100, cls := 2, used := 250000 })]
      jobs := [{ aJob with id := 1, tenant := 5, phase := .waiting }, { aJob with id := 2, tenant := 9, phase := .waiting }] } }
    s.order = [2, 1] := by decide

/-- 14: WBK_CH2_CTL = 0x8040_9400 arms channel 2 to compare with POS0. -/
theorem test_channel_control :
    let s := (live.setPos 0 { val := 1000002, enable := true }).setChan 2 { cmp := 1000004, step := 4 }
    let x := (after (.channelCtlWrite (.fn 0) 2 0x80409400) s).chan 2
    x.armed = true ∧ x.lport = 1 ∧ x.action = 0 ∧ x.edgeDir = 1 ∧ x.base = 1 ∧ x.mode = 1 := by decide

/-- 15: ROL_P0_FMT = 0x02C6_03FF at 4,000 lines/s. -/
theorem test_line_port :
    let x : Port := { fmt := 0x02C603FF, rate := 4000 }
    x.ser = 4 ∧ x.lanes = 8 ∧ x.h = 1 ∧ x.rows = 3 ∧ x.depth = 12 ∧ x.w = 1024 ∧ x.slotBytes = 6264 ∧ x.mbs = 26 := by decide

/-- 16: draw 0 of sample 1 under seed 0, with J = 8. -/
theorem test_shaker :
    shaker 0 1 0 0 = (0x11F725AE, 0x8A49517F) ∧ drawn 0x11F725AE 8 = 8 ∧ drawn 0x8A49517F 8 = 3 := by decide

/-- 16: T.6 codes of two rows of four pixels, worked by hand: horizontal with white 1 and black 2, then vertical codes of
0 to the end. White is 255. -/
theorem test_t6 : (t6Decode 4 2 16 [0x23, 0xFE]).toOption = some ([255, 0, 0, 255, 255, 0, 0, 255], 18) := by decide

/-- 17: the word "aaab" under three merges, and its stream's first words. -/
theorem test_merges :
    let x : TokSet := { merges := [(97, 97, 300), (300, 98, 301), (97, 300, 302)], byteTok := List.range 256 }
    x.word [97, 97, 97, 98] = [300, 97, 98] ∧ idWords [300, 97, 98] = [0x00184012C, 0x62] := by decide

/-- 18: the lines of a Main stream of 12,000 by 1,024 with four layers. -/
theorem test_stream_lines :
    let x : Stream := { cfg := 0x00F00000, width := 12000, height := 1024 }
    x.p = 256001 ∧ x.pa = 170667 ∧ x.needLines = 3840021 := by decide

set_option maxRecDepth 20000 in
/-- 19: 130 lanes take 17 flits. -/
theorem test_flits : (flitsOf (List.replicate 130 0)).length = 17 := by decide

/-- 19: the check value of the CRC-32 of IEEE 802.3, over the digits 1 to 9. -/
theorem test_crc : crc32 [0x31, 0x32, 0x33, 0x34, 0x35, 0x36, 0x37, 0x38, 0x39] = 0xCBF43926 := by decide +kernel

/-- 20: tile 600 runs tenant 5's job 0x1F44 from ring 2, and its watchdog fires. -/
def watchdogCase : State :=
  { live with
    gng := { live.gng with next := 0x00318A400C11, era := 3 }
    flt := { live.flt with next := 76295 }
    sch := { live.sch with jobs := [{ aJob with tenant := 5, ring := 2, jobId := 0x1F44, origin := 600 }] } }.setTile 600
    { running := true, tag := 5, job := some 7, pc := 0x412, wdog := 2500 }

/-- 20: its record, at index 7. -/
theorem test_watchdog_record :
    (after (.tileWatchdogExpire 600) watchdogCase).flt.recs.find [] 7
      = [0x00012A07, 0x8A400C11, 0x01100031, 0x02588205, 0x00001F44, 0x00000001, 0x00000412, 0x00000003] := by decide

/-- 20: its counts, its tile's fault, its job's completion and source 1. -/
theorem test_watchdog_counts :
    let s := after (.tileWatchdogExpire 600) watchdogCase
    s.flt.cnt.find 0 1 = 1 ∧ s.flt.tileHw.find 0 600 = 1 ∧ (s.tile 600).fault = 1 ∧
    ((s.job? 7).bind (·.result)).map (fun c => (c.status, c.detail)) = some (stFault, 0x2A07) ∧ (s.src 1).pending = true := by decide

/-! ## Steps -/

/-- A step takes the front command and leaves the rest; an empty queue is a tick. -/
theorem test_step_queue :
    (match step { State.reset with pending := [.coldPowerOn, .memsStable] } with
      | .next t => t.pending == [.memsStable] && t.boot.stage == .aon
      | _ => false) = true ∧
    (match step State.reset with
      | .next t => t.pending == [] && t.now == 1
      | _ => false) = true := by decide

end Sys2Proof.Tests
end

section
/-!
PROOFS. Register accesses: how an access of 4 or 8 aligned bytes and a misaligned one reach a register (R18, R19), what
a write of each access code does to the registers of PWR and to BRD_DBG_CTL (R16, R100), and the settling of O10.
-/
namespace Sys2Proof.Machine

variable {q : Requester} {a : RegAddr} {addr size be : Nat} {v : BitVec 32} {d : BitVec 64} {s : State}

/-! ## Alignment and size (R18) -/

theorem not_misaligned_four (h : addr % 4 = 0) : misaligned addr 4 = false := by
  have same : addr / 4 = (addr + 3) / 4 := by omega
  simp [misaligned, h, ← same]

theorem not_misaligned_eight (h : addr % 8 = 0) : misaligned addr 8 = false := by
  simp [misaligned, h]

/-- An address on a register's boundary is that register's. -/
theorem regAddr_aligned (h : addr % 4 = 0) : regAddr q (addr / 4 * 4) = regAddr q addr := by
  rw [Nat.div_mul_cancel (Nat.dvd_of_mod_eq_zero h)]

theorem barWrite_four (ha : regAddr q addr = some a) (h : addr % 4 = 0) :
    barWrite q addr 4 be d s = regWrite32 q a be (loHalf d) s := by
  simp [barWrite, regAddr_aligned h, ha, not_misaligned_four h, enables]

theorem barWrite_eight (ha : regAddr q addr = some a) (h : addr % 8 = 0) :
    barWrite q addr 8 be d s = regWrite32 q a.next (be / 16) (hiHalf d) (regWrite32 q a be (loHalf d) s) := by
  have h4 : addr % 4 = 0 := by omega
  simp [barWrite, regAddr_aligned h4, ha, not_misaligned_eight h]

theorem barRead_four (ha : regAddr q addr = some a) (h : addr % 4 = 0) :
    barRead q addr 4 s = regRead q a (read32 q a) s := by
  simp [barRead, regAddr_aligned h, ha, not_misaligned_four h]

/-- An error in a write counts as one wherever the register answers, and before PWR_BOOT.ready too. -/
theorem regWriteOr_regError {off : Nat} (h : access q a true s = .go ∨ access q a true s = .notReady) :
    regWriteOr (some off) q a (regError q off) s = regError q off s :=
  h.elim regWriteOr_go regWriteOr_notReady

theorem barWrite_misaligned {off : Nat} (ha : regAddr q (addr / 4 * 4) = some (.blk off))
    (hm : misaligned addr size = true) :
    barWrite q addr size be d s = regWriteOr (some addr) q (.blk off) (regError q addr) s := by
  simp [barWrite, ha, hm]

theorem barRead_misaligned {off : Nat} (ha : regAddr q (addr / 4 * 4) = some (.blk off))
    (hm : misaligned addr size = true) :
    barRead q addr size s = regRead q (.blk off) (fun s => (0, regError q addr s)) s := by
  simp [barRead, ha, hm]

/-! ## Byte enables and keys within one register (R19, R593) -/

theorem regWrite32_full_go (h : access q a true s = .go) : regWrite32 q a 15 v s = write32 q a v s := by
  rw [regWrite32, regWriteOr_go h]; rfl

theorem regWrite32_full_notReady (h : access q a true s = .notReady) :
    regWrite32 q a 15 v s = if keyless a v then regError q a.bar0 s else s := by
  cases hk : keyless a v <;> simp [regWrite32, regWriteOr, h, hk, fullEnables]

theorem regWrite32_partial (hb : be % 16 ≠ 15)
    (h : access q a true s = .go ∨ access q a true s = .notReady) :
    regWrite32 q a be v s = regError q a.bar0 s := by
  have part : fullEnables be = false := by simpa [fullEnables] using hb
  simpa [regWrite32, part] using regWriteOr_regError h

/-! ## Access codes (R16): the limited, RW and W1C registers of PWR, and BRD_DBG_CTL -/

/-- A field at the bottom of a register. -/
theorem fld_zero {n : Nat} (x : BitVec n) (w : Nat) : fld x 0 w = x.toNat % 2 ^ w := by simp [fld]

/-- A write that its block takes is that block's. -/
theorem write32_of_addrWrite {t : State} (h : addrWrite q a v s = some t) : write32 q a v s = t := by
  simp [write32, h]

theorem write32_pwrCap (q : Requester) (v : BitVec 32) (s : State) : write32 q (.blk 0x100000) v s =
    { s with pwr := { s.pwr with capW := BitVec.ofNat 9 (max 40 (min 420 (v.toNat % 512))) } } := by
  have field : fld v 0 9 = v.toNat % 512 := fld_zero v 9
  rw [← field]
  exact write32_of_addrWrite rfl

/-- R100: rounded down to a step of 10 mV and kept within the range. -/
theorem write32_pwrVgridSet (q : Requester) (v : BitVec 32) (s : State) : write32 q (.blk 0x100004) v s =
    { s with pwr := { s.pwr with vset := BitVec.ofNat 10 (max 550 (min 900 (v.toNat % 1024 / 10 * 10))) } } := by
  have field : fld v 0 10 = v.toNat % 1024 := fld_zero v 10
  rw [← field]
  exact write32_of_addrWrite rfl

theorem write32_pwrDomHold (q : Requester) (v : BitVec 32) (s : State) : write32 q (.blk 0x100014) v s =
    { s with pwr := { s.pwr with domHold := v.extractLsb' 0 16 } } :=
  write32_of_addrWrite rfl

theorem write32_pwrResetCause (q : Requester) (v : BitVec 32) (s : State) : write32 q (.blk 0x100034) v s =
    { s with pwr := { s.pwr with cause := s.pwr.cause &&& ~~~ (v.extractLsb' 0 6) } } :=
  write32_of_addrWrite rfl

theorem write32_brdDbgCtl_pf0 (v : BitVec 32) (s : State) : write32 (.fn 0) (.blk 0x30) v s =
    { s with brd := { s.brd with dbgEnable := bit v 0 } } :=
  write32_of_addrWrite rfl

theorem read32_of_addrRead {x : Reg × State} (h : addrRead q a s = some x) : read32 q a s = x := by
  simp [read32, h]

theorem read32_pwrCap (q : Requester) (s : State) :
    read32 q (.blk 0x100000) s = (BitVec.ofNat 32 s.pwr.capW.toNat, s) := read32_of_addrRead rfl

theorem read32_pwrVgridSet (q : Requester) (s : State) :
    read32 q (.blk 0x100004) s = (BitVec.ofNat 32 s.pwr.vset.toNat, s) := read32_of_addrRead rfl

theorem read32_pwrResetCause (q : Requester) (s : State) :
    read32 q (.blk 0x100034) s = (BitVec.ofNat 32 s.pwr.cause.toNat, s) := read32_of_addrRead rfl

/-! ## REGISTER_WRITE and REGISTER_READ to a BAR -/

theorem exec_registerWrite_bar (h : 0 < size) :
    exec (.registerWrite q .bar addr size be d) s = .next (barWrite q addr size be d s) := if_pos h

theorem exec_registerRead_bar (h : 0 < size) :
    exec (.registerRead q .bar addr size be) s = .next (barRead q addr size s) := if_pos h

theorem exec_registerWrite_go (ha : regAddr q addr = some a) (h4 : addr % 4 = 0) (h : access q a true s = .go) :
    exec (.registerWrite q .bar addr 4 15 d) s = .next (write32 q a (loHalf d) s) := by
  rw [exec_registerWrite_bar (by decide), barWrite_four ha h4, regWrite32_full_go h]

theorem exec_registerRead_go (ha : regAddr q addr = some a) (h4 : addr % 4 = 0) (h : access q a false s = .go) :
    exec (.registerRead q .bar addr 4 be) s
      = .next { (read32 q a s).2 with rdata := (read32 q a s).1.zeroExtend 64 } := by
  rw [exec_registerRead_bar (by decide), barRead_four ha h4, regRead_go h]

theorem exec_registerWrite_misaligned {off : Nat} (hs : 0 < size)
    (ha : regAddr q (addr / 4 * 4) = some (.blk off)) (hm : misaligned addr size = true)
    (h : access q (.blk off) true s = .go ∨ access q (.blk off) true s = .notReady) :
    exec (.registerWrite q .bar addr size be d) s = .next (regError q addr s) := by
  rw [exec_registerWrite_bar hs, barWrite_misaligned ha hm, regWriteOr_regError h]

theorem exec_registerRead_misaligned {off : Nat} (hs : 0 < size)
    (ha : regAddr q (addr / 4 * 4) = some (.blk off)) (hm : misaligned addr size = true)
    (h : access q (.blk off) false s = .go) :
    exec (.registerRead q .bar addr size be) s = .next { regError q addr s with rdata := 0 } := by
  rw [exec_registerRead_bar hs, barRead_misaligned ha hm, regRead_go h]; rfl

theorem exec_registerWrite_partial (ha : regAddr q addr = some a) (h4 : addr % 4 = 0) (hb : be % 16 ≠ 15)
    (h : access q a true s = .go ∨ access q a true s = .notReady) :
    exec (.registerWrite q .bar addr 4 be d) s = .next (regError q a.bar0 s) := by
  rw [exec_registerWrite_bar (by decide), barWrite_four ha h4, regWrite32_partial hb h]

theorem exec_registerWrite_notReady (ha : regAddr q addr = some a) (h4 : addr % 4 = 0)
    (h : access q a true s = .notReady) :
    exec (.registerWrite q .bar addr 4 15 d) s
      = .next (if keyless a (loHalf d) then regError q a.bar0 s else s) := by
  rw [exec_registerWrite_bar (by decide), barWrite_four ha h4, regWrite32_full_notReady h]

/-- All 8 byte enables are all 4 of each half. -/
theorem exec_registerWrite_eight (ha : regAddr q addr = some a) (h8 : addr % 8 = 0) :
    exec (.registerWrite q .bar addr 8 255 d) s
      = .next (regWrite32 q a.next 15 (hiHalf d) (regWrite32 q a 15 (loHalf d) s)) := by
  rw [exec_registerWrite_bar (by decide), barWrite_eight ha h8]; rfl

/-- Settles O10, clause by clause: 32-bit writes, the registers written, 32-bit reads, the registers read, then the
misaligned, the partial, the early and the 64-bit access. -/
theorem registerAccesses : Obligations.RegisterAccesses := by
  refine ⟨⟨?write, ?writes⟩, ⟨?read, ?reads⟩, ?misaligned, ?partialEnables, ?notReady, ?eight⟩
  case write => exact fun _ _ _ _ _ => exec_registerWrite_go
  case writes => exact fun q v s => ⟨write32_pwrCap q v s, write32_pwrVgridSet q v s, write32_pwrDomHold q v s,
    write32_pwrResetCause q v s, write32_brdDbgCtl_pf0 v s⟩
  case read => exact fun _ _ _ _ _ => exec_registerRead_go
  case reads => exact fun q s => ⟨read32_pwrCap q s, read32_pwrVgridSet q s, read32_pwrResetCause q s⟩
  case misaligned => exact fun _ _ _ _ _ _ _ hs ha hm =>
    ⟨exec_registerWrite_misaligned hs ha hm, exec_registerRead_misaligned hs ha hm⟩
  case partialEnables => exact fun _ _ _ _ _ _ => exec_registerWrite_partial
  case notReady => exact fun _ _ _ _ _ => exec_registerWrite_notReady
  case eight => exact fun _ _ _ _ _ => exec_registerWrite_eight

end Sys2Proof.Machine
end

section
/-!
PROOFS. The board (03): the SMBus block commands (R86), the auxiliary input and the caps (R75 to R77), the overload of
a cage feed (R88), and the settling of O11.
-/
namespace Sys2Proof.Machine

variable {p : Fin 2} {c : Fin 64} {v : BitVec 32} {fitMv : Nat} {s t : State}

/-! ## SMBus (R86) -/

theorem smbusRead_go {code : Nat} (h : access (.smbus p) (.blk (4 * code)) false s = .go) :
    smbusRead p code s = { s with rdata := ((brdRead (4 * code) s).getD 0).zeroExtend 64 } := regRead_go h

theorem smbusWrite_go {code : Nat} (h : access (.smbus p) (.blk (4 * code)) true s = .go)
    (hw : brdWrite (.smbus p) (4 * code) v s = some t) : smbusWrite p code v s = t := by
  rw [smbusWrite, regWrite_go h, hw]

/-! ## Auxiliary power and the caps (R75, R76, R77) -/

theorem auxLimit_absent {b : Brd} (h : b.auxPresent = false) : auxLimit b = 0 := by simp [auxLimit, h]

/-- Table 3-2. -/
theorem auxLimit_present {b : Brd} (h : b.auxPresent = true) : auxLimit b =
    if b.sense0Open then (if b.sense1Open then 150 else 450) else (if b.sense1Open then 300 else 600) := by
  cases h0 : b.sense0Open <;> cases h1 : b.sense1Open <;> simp [auxLimit, h, h0, h1]

theorem availW_absent {b : Brd} (h : b.auxPresent = false) : availW b = 75 := by
  rw [availW, auxLimit_absent h]

theorem availW_eq (b : Brd) : availW b = 75 + if b.auxPresent then
    (if b.sense0Open then (if b.sense1Open then 150 else 450) else (if b.sense1Open then 300 else 600)) else 0 := by
  cases h : b.auxPresent with
  | false => exact availW_absent h
  | true => rw [availW, auxLimit_present h]; rfl

theorem effectiveCap_eq (s : State) : s.effectiveCap = min s.pwr.capW.toNat (min (75 + if s.brd.auxPresent then
    (if s.brd.sense0Open then (if s.brd.sense1Open then 150 else 450) else (if s.brd.sense1Open then 300 else 600))
    else 0) 420) := by
  rw [State.effectiveCap, availW_eq]

/-- Without the auxiliary input, the state in which it is lost is the same. -/
theorem auxAbsent_eq_self (h : s.brd.auxPresent = false) :
    { s with brd := { s.brd with auxPresent := false } } = s := by rw [← h]

/-- R77: the voltage falls to what fits, and never rises. -/
theorem auxPowerLoss_running (ha : s.brd.auxPresent = true) (hd : s.pwr.dstate = .d0) (hm : s.on domMGT = true) :
    let fit := max 550 (fitMv / 10 * 10)
    let v := min (min s.pwr.vset.toNat s.pwr.vact.toNat) fit
    auxPowerLoss fitMv s = fire { detector := 0x10, level := lvlNone, info0 := v, info1 := 75 }
      { s with brd := { s.brd with auxPresent := false }
               pwr := { s.pwr with vact := BitVec.ofNat 10 v, capLimited := decide (fit < s.pwr.vset.toNat) } } := by
  have left75 : availW { s.brd with auxPresent := false } = 75 := availW_absent rfl
  rw [auxPowerLoss, if_neg (by simp [ha]), ← left75]
  exact if_pos ⟨hd, hm⟩

theorem auxPowerLoss_idle (h : s.pwr.dstate ≠ .d0 ∨ s.on domMGT = false) :
    auxPowerLoss fitMv s = { s with brd := { s.brd with auxPresent := false } } := by
  cases ha : s.brd.auxPresent with
  | false => rw [auxAbsent_eq_self ha]; simp [auxPowerLoss, ha]
  | true =>
    have idle : ¬ (s.pwr.dstate = .d0 ∧ s.on domMGT) := by simpa [imp_iff_not_or] using h
    rw [auxPowerLoss, if_neg (by simp [ha])]
    exact if_neg idle

/-! ## The cage feeds (R88) -/

/-- An overload of CHAIN IN is recorded, or waits for MGT (log 118). -/
theorem feedOverload_in (ha : s.on domAON = true) (hf : s.brd.feedIn = true) : feedOverload 0 s =
    if s.on domMGT then recordOverload 0 { s with brd := { s.brd with feedIn := false, faultIn := true } }
    else { s with brd := { s.brd with feedIn := false, faultIn := true, feedDue := s.brd.feedDue ++ [0] } } := by
  rw [feedOverload, if_neg (by simp [ha, hf])]; rfl

/-- An overload of CHAIN OUT is recorded, or waits for MGT (log 118). -/
theorem feedOverload_out (ha : s.on domAON = true) (hf : s.brd.feedOut = true) : feedOverload 1 s =
    if s.on domMGT then recordOverload 1 { s with brd := { s.brd with feedOut := false, faultOut := true } }
    else { s with brd := { s.brd with feedOut := false, faultOut := true, feedDue := s.brd.feedDue ++ [1] } } := by
  rw [feedOverload, if_neg (by simp [ha, hf])]; rfl

/-! ## The commands -/

theorem exec_smbusBlockRead : exec (.smbusBlockRead p c) s = .next (smbusRead p c s) := rfl

theorem exec_smbusBlockWrite : exec (.smbusBlockWrite p c v) s = .next (smbusWrite p c v s) := rfl

theorem exec_auxPowerLoss : exec (.auxPowerLoss fitMv) s = .next (auxPowerLoss fitMv s) := rfl

theorem exec_cableFeedOverload {cage : Fin 2} : exec (.cableFeedOverload cage) s = .next (feedOverload cage s) := rfl

/-- Settles O11, clause by clause: the SMBus read and write, the loss of the auxiliary input with MGT on in D0 and
otherwise, its return, the overload of each feed with MGT on and with MGT off, and the effective cap. -/
theorem boardCommands : Obligations.BoardCommands := by
  refine ⟨⟨?read, ?write, ?lossRunning, ?lossIdle, ?present, ?overloadIn, ?overloadOut, ?overloadOff⟩, ?cap⟩
  case read => exact fun _ _ _ h => by rw [exec_smbusBlockRead, smbusRead_go h]
  case write => exact fun _ _ _ _ _ h hw => by rw [exec_smbusBlockWrite, smbusWrite_go h hw]
  case lossRunning => exact fun _ _ ha hd hm => by rw [exec_auxPowerLoss, auxPowerLoss_running ha hd hm]
  case lossIdle => exact fun _ _ h => by rw [exec_auxPowerLoss, auxPowerLoss_idle h]
  case present => exact fun _ _ _ => rfl
  case overloadIn =>
    intro s ha hm hf
    rw [exec_cableFeedOverload, Fin.val_zero, feedOverload_in ha hf, if_pos hm, recordOverload]
  case overloadOut =>
    intro s ha hm hf
    rw [exec_cableFeedOverload, Fin.val_one, feedOverload_out ha hf, if_pos hm, recordOverload]
  case overloadOff =>
    intro s ha hm
    have off : ¬ s.on domMGT = true := by simp [hm]
    exact ⟨fun hf => by rw [exec_cableFeedOverload, Fin.val_zero, feedOverload_in ha hf, if_neg off],
      fun hf => by rw [exec_cableFeedOverload, Fin.val_one, feedOverload_out ha hf, if_neg off]⟩
  case cap => exact effectiveCap_eq

end Sys2Proof.Machine
end

section
/-!
PROOFS. The invariant at a step: every command keeps it, each by its own lemma of Laws/, and so does a tick; with the
settling of O4.
-/
namespace Sys2Proof.Machine

variable {s : State}

/-- Each command's own lemma, one arm per command. -/
theorem exec_inv (h : s.Inv) (c : Instr) : RInv (exec c s) :=
  match c with
  | .registerWrite .. => execRegisterWrite_inv h
  | .smbusBlockRead .. => execSmbusBlockRead_inv h
  | .smbusBlockWrite .. => execSmbusBlockWrite_inv h
  | .auxPowerLoss .. => execAuxPowerLoss_inv h
  | .cableFeedOverload .. => execCableFeedOverload_inv h
  | .domainPowerOn .. => execDomainPowerOn_inv h
  | .domainIdleOff .. => execDomainIdleOff_inv h
  | .vgridEvaluate .. => execVgridEvaluate_inv h
  | .tempSample .. => execTempSample_inv h
  | .stackCool .. => execStackCool_inv h
  | .lineFreqWrite .. => execLineFreqWrite_inv h
  | .pllLock .. => execPllLock_inv h
  | .pllLockTimeout .. => execPllLockTimeout_inv h
  | .linkTrain .. => execLinkTrain_inv h
  | .memTrained .. => execMemTrained_inv h
  | .cardReset .. => execCardReset_inv h
  | .flr .. => execFlr_inv h
  | .flrComplete .. => execFlrComplete_inv h
  | .hostReadFail .. => execHostReadFail_inv h
  | .numvfsWrite .. => execNumvfsWrite_inv h
  | .bmeClear .. => execBmeClear_inv h
  | .bmeSet .. => execBmeSet_inv h
  | .tenMapWrite .. => execTenMapWrite_inv h
  | .tenantEnable .. => execTenantEnable_inv h
  | .tenantDisable .. => execTenantDisable_inv h
  | .tenantDisableDone .. => execTenantDisableDone_inv h
  | .tenantScrub .. => execTenantScrub_inv h
  | .ringEnable .. => execRingEnable_inv h
  | .ringDisable .. => execRingDisable_inv h
  | .pollPeriodWrite .. => execPollPeriodWrite_inv h
  | .chimeSnoop .. => execChimeSnoop_inv h
  | .chimePoll .. => execChimePoll_inv h
  | .chimeLineData .. => execChimeLineData_inv h
  | .descriptorFetch .. => execDescriptorFetch_inv h
  | .nopDescriptor .. => execNopDescriptor_inv h
  | .job .. => execJob_inv h
  | .fencedAdmit .. => execFencedAdmit_inv h
  | .completionWrite .. => execCompletionWrite_inv h
  | .epochMarker .. => execEpochMarker_inv h
  | .tailHintWrite .. => execTailHintWrite_inv h
  | .gongGrant .. => execGongGrant_inv h
  | .gngNextRead .. => execGngNextRead_inv h
  | .gngHoldRead .. => execGngHoldRead_inv h
  | .glitchFilterOutput .. => execGlitchFilterOutput_inv h
  | .sourceEvent .. => execSourceEvent_inv h
  | .carSrcWrite .. => execCarSrcWrite_inv h
  | .sourceCommit .. => execSourceCommit_inv h
  | .carClaim .. => execCarClaim_inv h
  | .carDone .. => execCarDone_inv h
  | .carSwset .. => execCarSwset_inv h
  | .carLostClear .. => execCarLostClear_inv h
  | .carStampRead .. => execCarStampRead_inv h
  | .holdoffExpire .. => execHoldoffExpire_inv h
  | .pinLatchCatch .. => execPinLatchCatch_inv h
  | .coalesceTimerExpire .. => execCoalesceTimerExpire_inv h
  | .coalWrite .. => execCoalWrite_inv h
  | .msixUnblock .. => execMsixUnblock_inv h
  | .pmeConfigWrite .. => execPmeConfigWrite_inv h
  | .messageAccept .. => execMessageAccept_inv h
  | .grdChokeWrite .. => execGrdChokeWrite_inv h
  | .tileWatchdogExpire .. => execTileWatchdogExpire_inv h
  | .qrateUpdate .. => execQrateUpdate_inv h
  | .paceRead .. => execPaceRead_inv h
  | .fenceStatRead .. => execFenceStatRead_inv h
  | .illegalOpcode .. => execIllegalOpcode_inv h
  | .add .. => execAdd_inv h
  | .sub .. => execSub_inv h
  | .and .. => execAnd_inv h
  | .or .. => execOr_inv h
  | .xor .. => execXor_inv h
  | .sll .. => execSll_inv h
  | .srl .. => execSrl_inv h
  | .sra .. => execSra_inv h
  | .mul .. => execMul_inv h
  | .slt .. => execSlt_inv h
  | .sltu .. => execSltu_inv h
  | .addi .. => execAddi_inv h
  | .andi .. => execAndi_inv h
  | .ori .. => execOri_inv h
  | .xori .. => execXori_inv h
  | .slli .. => execSlli_inv h
  | .srli .. => execSrli_inv h
  | .srai .. => execSrai_inv h
  | .lui .. => execLui_inv h
  | .ldn .. => execLdn_inv h
  | .ldnu .. => execLdnu_inv h
  | .ldw .. => execLdw_inv h
  | .stn .. => execStn_inv h
  | .stw .. => execStw_inv h
  | .beq .. => execBeq_inv h
  | .bne .. => execBne_inv h
  | .blt .. => execBlt_inv h
  | .bge .. => execBge_inv h
  | .bltu .. => execBltu_inv h
  | .bgeu .. => execBgeu_inv h
  | .jal .. => execJal_inv h
  | .jr .. => execJr_inv h
  | .vld .. => execVld_inv h
  | .vst .. => execVst_inv h
  | .vadd .. => execVadd_inv h
  | .vsub .. => execVsub_inv h
  | .vmul .. => execVmul_inv h
  | .vmax .. => execVmax_inv h
  | .vmin .. => execVmin_inv h
  | .vbc .. => execVbc_inv h
  | .vred .. => execVred_inv h
  | .vmsk .. => execVmsk_inv h
  | .vcvt .. => execVcvt_inv h
  | .wld .. => execWld_inv h
  | .mma .. => execMma_inv h
  | .oma .. => execOma_inv h
  | .azr .. => execAzr_inv h
  | .ald .. => execAld_inv h
  | .ast .. => execAst_inv h
  | .qnt .. => execQnt_inv h
  | .dld .. => execDld_inv h
  | .dst .. => execDst_inv h
  | .transferComplete .. => execTransferComplete_inv h
  | .dwt .. => execDwt_inv h
  | .send .. => execSend_inv h
  | .sendDone .. => execSendDone_inv h
  | .recv .. => execRecv_inv h
  | .mbpop .. => execMbpop_inv h
  | .mbcfg .. => execMbcfg_inv h
  | .mbstat .. => execMbstat_inv h
  | .bar .. => execBar_inv h
  | .stamp .. => execStamp_inv h
  | .sys .. => execSys_inv h
  | .endTile .. => execEndTile_inv h
  | .nopTile .. => execNopTile_inv h
  | .patrolRead .. => execPatrolRead_inv h
  | .memFenceCmd .. => execMemFenceCmd_inv h
  | .memCeRead .. => execMemCeRead_inv h
  | .memUeRead .. => execMemUeRead_inv h
  | .starveTimeout .. => execStarveTimeout_inv h
  | .sliceExpire .. => execSliceExpire_inv h
  | .spillStart .. => execSpillStart_inv h
  | .spillComplete .. => execSpillComplete_inv h
  | .jobRestore .. => execJobRestore_inv h
  | .barTimeout .. => execBarTimeout_inv h
  | .outputStageCopy .. => execOutputStageCopy_inv h
  | .jobComplete .. => execJobComplete_inv h
  | .usedRead .. => execUsedRead_inv h
  | .wbkTimeRead .. => execWbkTimeRead_inv h
  | .posCount .. => execPosCount_inv h
  | .posErrRead .. => execPosErrRead_inv h
  | .posSet .. => execPosSet_inv h
  | .channelCtlWrite .. => execChannelCtlWrite_inv h
  | .cmpWrite .. => execCmpWrite_inv h
  | .timeMatch .. => execTimeMatch_inv h
  | .capture .. => execCapture_inv h
  | .capRead .. => execCapRead_inv h
  | .pulseEnd .. => execPulseEnd_inv h
  | .portEnable .. => execPortEnable_inv h
  | .portDisable .. => execPortDisable_inv h
  | .trainingDone .. => execTrainingDone_inv h
  | .trainingTimeout .. => execTrainingTimeout_inv h
  | .triggerRequest .. => execTriggerRequest_inv h
  | .solTimeout .. => execSolTimeout_inv h
  | .syncWithoutTrigger .. => execSyncWithoutTrigger_inv h
  | .lineStored .. => execLineStored_inv h
  | .settleExpire .. => execSettleExpire_inv h
  | .lowWaterReached .. => execLowWaterReached_inv h
  | .portResume .. => execPortResume_inv h
  | .motionWrite .. => execMotionWrite_inv h
  | .rdWrite .. => execRdWrite_inv h
  | .wrRead .. => execWrRead_inv h
  | .errcntRead .. => execErrcntRead_inv h
  | .queueEnable .. => execQueueEnable_inv h
  | .cacheFlush .. => execCacheFlush_inv h
  | .sampleCutStart .. => execSampleCutStart_inv h
  | .ringLineConsume .. => execRingLineConsume_inv h
  | .pictureTake .. => execPictureTake_inv h
  | .decodeFail .. => execDecodeFail_inv h
  | .sampleComplete .. => execSampleComplete_inv h
  | .sampleForward .. => execSampleForward_inv h
  | .directLoadDone .. => execDirectLoadDone_inv h
  | .inkHitsRead .. => execInkHitsRead_inv h
  | .tokLoad .. => execTokLoad_inv h
  | .tokCheckDone .. => execTokCheckDone_inv h
  | .gramLoad .. => execGramLoad_inv h
  | .gramCheckDone .. => execGramCheckDone_inv h
  | .tokClear .. => execTokClear_inv h
  | .gramClear .. => execGramClear_inv h
  | .tokenStreamComplete .. => execTokenStreamComplete_inv h
  | .detokenizeStart .. => execDetokenizeStart_inv h
  | .detokenizeDone .. => execDetokenizeDone_inv h
  | .tokLoadsRead .. => execTokLoadsRead_inv h
  | .damperRequest .. => execDamperRequest_inv h
  | .streamEnable .. => execStreamEnable_inv h
  | .streamRestart .. => execStreamRestart_inv h
  | .keyReq .. => execKeyReq_inv h
  | .cymbalEncode .. => execCymbalEncode_inv h
  | .cymbalDecode .. => execCymbalDecode_inv h
  | .pictureOutput .. => execPictureOutput_inv h
  | .chainLinkUp .. => execChainLinkUp_inv h
  | .linkTrainRetry .. => execLinkTrainRetry_inv h
  | .linkup .. => execLinkup_inv h
  | .flitDiscard .. => execFlitDiscard_inv h
  | .nakReplay .. => execNakReplay_inv h
  | .replayTimeout .. => execReplayTimeout_inv h
  | .chainSend .. => execChainSend_inv h
  | .firstFlit .. => execFirstFlit_inv h
  | .contFlit .. => execContFlit_inv h
  | .abortFlit .. => execAbortFlit_inv h
  | .answerFlit .. => execAnswerFlit_inv h
  | .flitGapTimeout .. => execFlitGapTimeout_inv h
  | .chnArrRead .. => execChnArrRead_inv h
  | .enumerate .. => execEnumerate_inv h
  | .survey .. => execSurvey_inv h
  | .assign .. => execAssign_inv h
  | .doneFlit .. => execDoneFlit_inv h
  | .spanReq .. => execSpanReq_inv h
  | .spanFree .. => execSpanFree_inv h
  | .spanTimeout .. => execSpanTimeout_inv h
  | .chainReset .. => execChainReset_inv h
  | .resetFlit .. => execResetFlit_inv h
  | .chnBypass .. => execChnBypass_inv h
  | .returnFlit .. => execReturnFlit_inv h
  | .chnStatRead .. => execChnStatRead_inv h
  | .chnLinkStatRead .. => execChnLinkStatRead_inv h
  | .chnCrcRead .. => execChnCrcRead_inv h
  | .storeParityError .. => execStoreParityError_inv h
  | .bellWatchdogExpire .. => execBellWatchdogExpire_inv h
  | .bellCoreRestart .. => execBellCoreRestart_inv h
  | .clearCounts .. => execClearCounts_inv h
  | .regerrRead .. => execRegerrRead_inv h
  | .fwDataWrite .. => execFwDataWrite_inv h
  | .fwCommit .. => execFwCommit_inv h
  | .raiseArb .. => execRaiseArb_inv h
  | .registerRead _ _ _ _ be => execRegisterRead_inv (be0 := be) h
  | .auxInputPresent .. => execAuxInputPresent_inv h
  | .coldPowerOn => execColdPowerOn_inv h
  | .memsStable => execMemsStable_inv h
  | .mainPowerGood => execMainPowerGood_inv h
  | .bootVerifyDone => execBootVerifyDone_inv h
  | .perstDeassert => execPerstDeassert_inv h
  | .dramScrubDone => execDramScrubDone_inv h
  | .aonSupplyLoss => execAonSupplyLoss_inv h
  | .fundamentalReset => execFundamentalReset_inv h
  | .hotReset => execHotReset_inv h
  | .pf0Flr => execPf0Flr_inv h
  | .d3hotEnter => execD3hotEnter_inv h
  | .d0Enter => execD0Enter_inv h
  | .d3coldEnter => execD3coldEnter_inv h
  | .d3coldExit => execD3coldExit_inv h
  | .pageZeroed => execPageZeroed_inv h
  | .pinLatchReplay => execPinLatchReplay_inv h
  | .l1ExitSend => execL1ExitSend_inv h
  | .chokeComplete => execChokeComplete_inv h
  | .jobPlace => execJobPlace_inv h
  | .usedUpdate => execUsedUpdate_inv h
  | .timeWrap => execTimeWrap_inv h
  | .tokenStreamStart => execTokenStreamStart_inv h
  | .damperService => execDamperService_inv h
  | .pictureServiceStart => execPictureServiceStart_inv h
  | .pictureDone => execPictureDone_inv h
  | .enumTimeout => execEnumTimeout_inv h
  | .bypassEnter => execBypassEnter_inv h
  | .bypassExit => execBypassExit_inv h
  | .fwCheckDone => execFwCheckDone_inv h

/-- An empty queue ticks; otherwise the front command runs on the queue's rest, which the invariant does not see. -/
theorem step_inv (h : s.Inv) : RInv (step s) := by
  unfold step
  split
  · exact rinv_next (tick_inv h)
  · next c rest _ => exact exec_inv (inv_keep h) c

/-- Settles O4: what a step answers is one tick, or one command's result. -/
theorem stepKeepsInvariant : Obligations.StepKeepsInvariant :=
  fun _ t h e => (step_inv h).get t e

end Sys2Proof.Machine
end

section
/-!
PROOFS. Accesses to a window whose domain is off (R97), the register access error they count (R571, R578), and the
settling of O9.
-/
namespace Sys2Proof.Machine

variable {q : Requester} {off : Nat} {w : Bool} {s : State}

/-- A block window of AON answers while AON is on. -/
theorem access_pf0_board (hf : s.fnAnswers 0 = true) (hr : s.boot.stage ≠ .recovery) (h : off < 0x100000) :
    access (.fn 0) (.blk off) w s = if s.on domAON then .go else .off := by
  simp [access, hf, hr, h]

/-- A block window above AON's answers while MGT is on, and takes a write only if it need not wait for
PWR_BOOT.ready (R119). -/
theorem access_pf0_above (hf : s.fnAnswers 0 = true) (hr : s.boot.stage ≠ .recovery) (h : 0x100000 ≤ off) :
    access (.fn 0) (.blk off) w s = if !s.on domMGT then .off
      else if w && !s.boot.ready && !openWindow off then .notReady else .go := by
  simp [access, hf, hr, Nat.not_lt.2 h]

theorem access_pf0_board_off_iff (hf : s.fnAnswers 0 = true) (hr : s.boot.stage ≠ .recovery) (h : off < 0x100000) :
    access (.fn 0) (.blk off) w s = .off ↔ s.on domAON = false := by
  rw [access_pf0_board hf hr h]
  cases s.on domAON <;> simp

theorem access_pf0_above_off_iff (hf : s.fnAnswers 0 = true) (hr : s.boot.stage ≠ .recovery) (h : 0x100000 ≤ off) :
    access (.fn 0) (.blk off) w s = .off ↔ s.on domMGT = false := by
  rw [access_pf0_above hf hr h]
  cases s.on domMGT with
  | false => simp
  | true => rw [Bool.not_true, if_neg Bool.false_ne_true]; split <;> simp

/-- The counter of register access errors is that of detector 31 (R578). -/
theorem regError_count : (regError q off s).flt.cnt.find 0 31 = satInc (s.flt.cnt.find 0 31) := by
  simp [regError, countFlt]

/-- The error's event takes the next stamp, whether the source was idle or not (R206, R226). -/
theorem regError_stamp : ((regError q off s).src 31).stamp = s.gng.next := by
  rw [regError, raise_src]
  split <;> rfl

/-- Settles O9, clause by clause: what an access to a window that is off does, when PF0's access to a block window is
one, and what a register access error counts. -/
theorem offWindowAccess : Obligations.OffWindowAccess := by
  refine ⟨fun _ _ _ _ _ => ⟨regWrite_off, regRead_off⟩, ?whichWindows, ?counts⟩
  case whichWindows => exact fun _ _ _ hf hr => ⟨access_pf0_board_off_iff hf hr, access_pf0_above_off_iff hf hr⟩
  case counts => exact fun _ _ _ => ⟨regError_regerr .., regError_count, regError_stamp, regError_mem ..⟩

end Sys2Proof.Machine
end

section
/-!
PROOFS. Start-up (04, Table 4-4): each step from the stage before it, what the boot ROM accepts of a slot (R121, R122),
and the settling of O12.
-/
namespace Sys2Proof.Machine

variable {s : State} {k : Nat}

/-! ## Supplies, resonator and MGT (steps 1 to 3) -/

theorem coldPowerOn_unpowered (h : s.boot.stage = .unpowered) : coldPowerOn s =
    powerRetimer (domainOn domAON { s with
      boot := { s.boot with stage := .aon }, chn := { s.chn with copy := none } }) := by
  rw [coldPowerOn, if_pos h]

theorem memsStable_aon (h : s.boot.stage = .aon) :
    memsStable s = { s with boot := { s.boot with stage := .mems } } := by
  rw [memsStable, if_pos h]

theorem mainPowerGood_mems (h : s.boot.stage = .mems) (hp : s.pwr.perst = true) (hd : s.pwr.dstate ≠ .d3cold) :
    mainPowerGood s
      = replayOverloads (settleVgrid (domainOn domMGT { s with boot := { s.boot with stage := .mgt } })) := by
  rw [mainPowerGood, if_pos ⟨h, hp, hd⟩]

/-! ## The boot ROM's choice (steps 4 and 5, R121 to R123) -/

theorem bootVerifyDone_active (h : s.boot.stage = .mgt) (ha : s.slotFailure s.boot.activeB = 0) :
    bootVerifyDone s = bootSlot s.boot.activeB s := by
  rw [bootVerifyDone, if_pos h, if_pos ha]

theorem bootVerifyDone_other (h : s.boot.stage = .mgt) (ha : s.slotFailure s.boot.activeB ≠ 0)
    (ho : s.slotFailure (!s.boot.activeB) = 0) : bootVerifyDone s = bootSlot (!s.boot.activeB) s := by
  rw [bootVerifyDone, if_pos h, if_neg ha, if_pos ho]

theorem bootVerifyDone_neither (h : s.boot.stage = .mgt) (ha : s.slotFailure s.boot.activeB ≠ 0)
    (ho : s.slotFailure (!s.boot.activeB) ≠ 0) :
    bootVerifyDone s = enterRecovery (s.slotFailure (!s.boot.activeB)) s := by
  rw [bootVerifyDone, if_pos h, if_neg ha, if_neg ho]

section
variable {f : ImageFacts} {m : Nat}

theorem ImageFacts.failure_unreadable (hr : f.readable = false) : f.failure m = 4 := by
  simp [ImageFacts.failure, hr]

theorem ImageFacts.failure_digest (hr : f.readable = true) (hd : f.digestOk = false) : f.failure m = 1 := by
  simp [ImageFacts.failure, hr, hd]

theorem ImageFacts.failure_signature (hr : f.readable = true) (hd : f.digestOk = true) (hs : f.sigOk = false) :
    f.failure m = 2 := by
  simp [ImageFacts.failure, hr, hd, hs]

theorem ImageFacts.failure_genuine (hr : f.readable = true) (hd : f.digestOk = true) (hs : f.sigOk = true) :
    f.failure m = if f.arb < m then 3 else 0 := by
  simp [ImageFacts.failure, hr, hd, hs]

theorem ImageFacts.failure_rollback (hr : f.readable = true) (hd : f.digestOk = true) (hs : f.sigOk = true)
    (ha : f.arb < m) : f.failure m = 3 := by
  rw [failure_genuine hr hd hs, if_pos ha]

theorem ImageFacts.failure_eq_zero_iff :
    f.failure m = 0 ↔ f.readable = true ∧ f.digestOk = true ∧ f.sigOk = true ∧ m ≤ f.arb := by
  cases hr : f.readable with
  | false => simp [failure_unreadable hr]
  | true =>
    cases hd : f.digestOk with
    | false => simp [failure_digest hr hd]
    | true =>
      cases hs : f.sigOk with
      | false => simp [failure_signature hr hd hs]
      | true => simp [failure_genuine hr hd hs]

end

/-! ## PERST# and the link (steps 6 and 7) -/

/-- R120: PLL_PCIE locks on REFCLK where HIF is on. -/
theorem perstDeassert_powered (h : s.boot.stage ≠ .unpowered) : perstDeassert s = { s with
    pwr := { s.pwr with perst := false }
    clk := { s.clk with locked := if s.on domHIF then setBit s.clk.locked 3 true else s.clk.locked } } := by
  have on : ({ s with pwr := { s.pwr with perst := false } } : State).on domHIF = s.on domHIF := rfl
  cases hif : s.on domHIF <;> simp [perstDeassert, h, pcieLock, on, hif]

theorem linkTrain_down {w : BitVec 5} {g : BitVec 3} {cxl : Bool} (hl : s.hif.linkUp = false)
    (hp : s.pwr.perst = false) (hh : s.on domHIF = true) (hd : s.pwr.dstate = .d0) :
    linkTrain w g cxl s = replayFires (checkReady (forEach tenants holdChime
      { s with hif := { s.hif with linkUp := true, width := w, speed := g, cxl := cxl } })) := by
  rw [linkTrain, if_pos (by simp [hl, hp, hh, hd])]

/-! ## A stack's training and the scrub (steps 8 to 10) -/

section
variable (hr : s.boot.stage = .running) (ht : (s.stack k).trained = false) (hf : (s.stack k).fenced = false)
include hr ht hf

theorem memTrained_pass (hh : s.dramHeld k = false) : memTrained k true s =
    rescaleStack k (domainOn (domMEM k) (s.setStack k { s.stack k with trained := true, patrol := 0 })) := by
  simp [memTrained, hr, ht, hf, hh]

/-- A stack whose PLL is disconnected takes no command, and so is not trained (R114). -/
theorem memTrained_held (hh : s.dramHeld k = true) : memTrained k true s = s := by
  simp [memTrained, hr, ht, hf, hh]

theorem memTrained_fail : memTrained k false s = fence k causeTraining s := by
  simp [memTrained, hr, ht, hf]

end

/-- Ready needs the link; with it down only the scrub is noted. -/
theorem dramScrubDone_trained (hr : s.boot.stage = .running) (hs : s.boot.scrubbed = false)
    (hk : ∀ k ∈ [0, 1, 2, 3], ((s.stack k).trained || (s.stack k).fenced) = true) : dramScrubDone s = { s with
      mem := { s.mem with cells := [], ecc := [] }
      boot := { s.boot with scrubbed := true, ready := s.hif.linkUp || s.boot.ready
                            resetting := !s.hif.linkUp && s.boot.resetting } } := by
  rw [dramScrubDone, if_pos ⟨hr, by simp [hs], List.all_eq_true.2 hk⟩, checkReady]
  cases s.hif.linkUp with
  | true => rw [if_pos ⟨hr, rfl, rfl⟩]; rfl
  | false => rw [if_neg (by simp)]; rfl

/-! ## The commands -/

theorem exec_linkTrain {w : BitVec 5} {g : BitVec 3} {cxl : Bool} (hw : [1, 2, 4, 8, 16].contains w.toNat = true)
    (h1 : 1 ≤ g.toNat) (h5 : g.toNat ≤ 5) : exec (.linkTrain w g cxl) s = .next (linkTrain w g cxl s) :=
  if_pos ⟨hw, h1, h5⟩

/-- Settles O12: the steps of Table 4-4 in their order, then the boot ROM's check of a slot. -/
theorem startUp : Obligations.StartUp := by
  refine ⟨⟨?cold, ?mems, ?main, ?active, ?other, ?neither, ?perst, ?link, ?train, ?scrub⟩, ?check⟩
  case cold => exact fun _ h => congrArg _ (coldPowerOn_unpowered h)
  case mems => exact fun _ h => congrArg _ (memsStable_aon h)
  case main => exact fun _ h hp hd => congrArg _ (mainPowerGood_mems h hp hd)
  case active => exact fun _ h ha => congrArg _ (bootVerifyDone_active h ha)
  case other => exact fun _ h ha ho => congrArg _ (bootVerifyDone_other h ha ho)
  case neither => exact fun _ h ha ho => congrArg _ (bootVerifyDone_neither h ha ho)
  case perst => exact fun _ h => congrArg _ (perstDeassert_powered h)
  case link => exact fun _ _ _ _ hw h1 h5 hl hp hh hd =>
    (exec_linkTrain hw h1 h5).trans (congrArg _ (linkTrain_down hl hp hh hd))
  case train => exact fun _ _ hr ht hf => ⟨fun hh => congrArg _ (memTrained_pass hr ht hf hh),
    fun hh => congrArg _ (memTrained_held hr ht hf hh), congrArg _ (memTrained_fail hr ht hf)⟩
  case scrub => exact fun _ hr hs hk => congrArg _ (dramScrubDone_trained hr hs hk)
  case check => exact fun _ _ => ⟨ImageFacts.failure_eq_zero_iff, ImageFacts.failure_unreadable,
    ImageFacts.failure_digest, ImageFacts.failure_signature, ImageFacts.failure_rollback⟩

end Sys2Proof.Machine
end

section
/-!
PROOFS. The bits of a register after one is written.
-/
namespace Sys2Proof.Machine

variable {n i j : Nat}

theorem getLsbD_ofNat_two_pow (hj : j < n) : (BitVec.ofNat n (2 ^ i)).getLsbD j = decide (i = j) := by
  simp only [BitVec.getLsbD_ofNat, Nat.testBit_two_pow, hj, decide_true, Bool.true_and]

theorem bit_of_ge (v : BitVec n) (hj : n ≤ j) : bit v j = false := BitVec.getLsbD_of_ge v j hj

/-- The bit that is written takes its value, and every other bit keeps its own. -/
theorem bit_setBit (v : BitVec n) (b : Bool) (hi : i < n) :
    bit (setBit v i b) j = if j = i then b else bit v j := by
  rcases lt_or_ge j n with hj | hj
  · have written := getLsbD_ofNat_two_pow (i := i) hj
    cases b with
    | false =>
      simp only [bit, setBit, Bool.false_eq_true, if_false, BitVec.getLsbD_and, BitVec.getLsbD_not, written, hj]
      rcases eq_or_ne j i with rfl | h
      · simp
      · simp [h, h.symm]
    | true =>
      simp only [bit, setBit, if_true, BitVec.getLsbD_or, written]
      rcases eq_or_ne j i with rfl | h
      · simp
      · simp [h, h.symm]
  · have : j ≠ i := by omega
    rw [if_neg this, bit_of_ge v hj, bit_of_ge _ hj]

@[simp] theorem bit_setBit_same (v : BitVec n) (b : Bool) (hi : i < n) : bit (setBit v i b) i = b := by
  rw [bit_setBit v b hi, if_pos rfl]

end Sys2Proof.Machine
end

section
/-!
PROOFS. VGRID and the temperatures (R99 to R109, R366, R369), the PLLs and the sensor clocks (R111 to R117), and the
settling of O14.
-/
namespace Sys2Proof.Machine

variable {s : State} {q : Requester} {v : BitVec 32} {dw : BitVec 16} {fitMv fit act target k p i : Nat} {t : Int}

/-! ## VGRID (R99 to R103) -/

theorem le_moveVgrid : act ≤ moveVgrid act target + 100 := by unfold moveVgrid; split <;> omega

theorem moveVgrid_le : moveVgrid act target ≤ act + 100 := by unfold moveVgrid; split <;> omega

/-- A move that rises stays at or below its target. -/
theorem moveVgrid_le_max : moveVgrid act target ≤ max act target := by unfold moveVgrid; split <;> omega

theorem moveVgrid_lt (h : target < act) : moveVgrid act target < act := by rw [moveVgrid, if_pos h]; omega

theorem nextVgrid_le (s : State) (fit : Nat) : s.nextVgrid fit ≤ s.pwr.vact.toNat + 100 := by
  unfold State.nextVgrid
  split
  · exact (min_le_right ..).trans moveVgrid_le
  · split <;> exact moveVgrid_le

theorem nextVgrid_cool (hd : s.pwr.dieHot = false) (ht : s.pwr.thermalLimited = false) :
    s.nextVgrid fit = moveVgrid s.pwr.vact.toNat (min s.pwr.vset.toNat fit) := by
  simp [State.nextVgrid, hd, ht]

theorem capFit_le (s : State) (fitMv : Nat) (dw : BitVec 16) : s.capFit fitMv dw ≤ max 550 (fitMv / 10 * 10) := by
  unfold State.capFit fitStep; split <;> omega

/-- Above the cap the voltage fits only below the applied one, while that is not at its lowest (R101). -/
theorem capFit_lt (ho : 10 * s.effectiveCap < dw.toNat) (h : 560 ≤ s.pwr.vact.toNat) :
    s.capFit fitMv dw < s.pwr.vact.toNat := by
  have exceeds : s.overCap dw = true := decide_eq_true ho
  rw [State.capFit, if_pos exceeds]; omega

section
variable (hd : s.pwr.dieHot = false) (ht : s.pwr.thermalLimited = false)
include hd ht

theorem nextVgrid_cool_ge : s.pwr.vact.toNat ≤ s.nextVgrid fit + 100 := by
  rw [nextVgrid_cool hd ht]; exact le_moveVgrid

theorem nextVgrid_cool_rises : s.nextVgrid (s.capFit fitMv dw) ≤ s.pwr.vact.toNat ∨
    s.nextVgrid (s.capFit fitMv dw) ≤ min s.pwr.vset.toNat (max 550 (fitMv / 10 * 10)) := by
  have fits := capFit_le s fitMv dw
  have move := moveVgrid_le_max (act := s.pwr.vact.toNat) (target := min s.pwr.vset.toNat (s.capFit fitMv dw))
  rw [nextVgrid_cool hd ht]
  omega

theorem nextVgrid_cool_falls (ho : 10 * s.effectiveCap < dw.toNat) (h : 560 ≤ s.pwr.vact.toNat) :
    s.nextVgrid (s.capFit fitMv dw) < s.pwr.vact.toNat := by
  rw [nextVgrid_cool hd ht]
  exact moveVgrid_lt ((min_le_right ..).trans_lt (capFit_lt ho h))

end

/-- PWR_ after an evaluation. -/
def State.evaluated (s : State) (fitMv : Nat) (dw : BitVec 16) : Pwr :=
  { s.pwr with
    vact := BitVec.ofNat 10 (s.nextVgrid (s.capFit fitMv dw)), inputDw := dw
    capLimited := decide (s.capFit fitMv dw < s.pwr.vset.toNat)
    thermalLimited := s.pwr.thermalLimited || s.pwr.dieHot
    holdActive := decide (s.nextVgrid (s.capFit fitMv dw) = 550) && s.overCap dw }

theorem vgridEvaluate_on (h : s.on domMGT = true) :
    vgridEvaluate fitMv dw s = { s with pwr := s.evaluated fitMv dw } := by
  rw [vgridEvaluate, if_pos h]; rfl

/-- The next voltage fits the field, so it is the one that is applied. -/
theorem evaluated_vact (h : s.pwr.vact.toNat ≤ 900) :
    (s.evaluated fitMv dw).vact.toNat = s.nextVgrid (s.capFit fitMv dw) := by
  have := nextVgrid_le s (s.capFit fitMv dw)
  exact (BitVec.toNat_ofNat ..).trans (Nat.mod_eq_of_lt (by omega))

theorem evaluated_holdActive_iff (h : s.pwr.vact.toNat ≤ 900) : (s.evaluated fitMv dw).holdActive = true ↔
    (s.evaluated fitMv dw).vact.toNat = 550 ∧ 10 * s.effectiveCap < dw.toNat := by
  rw [evaluated_vact h]
  simp [State.evaluated, State.overCap]

/-! ## Temperatures (R107 to R109, R366, R369, R370) -/

/-- Below 115 °C on the die and 105 °C in the stacks nothing trips. -/
theorem tempSample_below {die : List Int} {stackC : List (Option Int)} (h : s.on domMGT = true)
    (hd : maxTemp die < 115) (hm : maxTemp (stackC.filterMap id) < 105) :
    tempSample die stackC s = forEach [0, 1, 2, 3] (fun k s => stackSample k (stackC.getD k none) s)
      { s with pwr := { (s.pwr.followDie (maxTemp die)) with
        dieC := BitVec.ofInt 8 (maxTemp die), dramC := BitVec.ofInt 8 (maxTemp (stackC.filterMap id)) } } := by
  have die_cool : ¬ 115 ≤ maxTemp die := by omega
  have stack_cool : ¬ (105 ≤ maxTemp (stackC.filterMap id) ∧ stackC.any Option.isSome = true) := by omega
  rw [tempSample, if_neg (by simp [h])]
  simp only [die_cool, stack_cool, if_false, ite_self]

section
variable (hon : s.on (domMEM k) = true) (hf : (s.stack k).fenced = false)
include hon hf

theorem stackSample_heats (ht : 85 < t) (hh : (s.stack k).hot = false) : stackSample k (some t) s =
    rescaleStack k (raise (292 + k) (s.setStack k { s.stack k with hot := true, cool := 0 })) := by
  simp [stackSample, hon, hf, ht, hh]

theorem stackSample_cools (ht : t ≤ 82) :
    stackSample k (some t) s = s.setStack k { s.stack k with cool := (s.stack k).cool + 1 } := by
  have : ¬ 85 < t := by omega
  simp [stackSample, hon, hf, ht, this]

theorem stackSample_silent : stackSample k none s = fence k causeSensor s := by
  simp [stackSample, hon, hf]

end

/-! ## Sensor clocks (R111 to R117) -/

section
variable (h1 : 20000 ≤ v.toNat % 2 ^ 18) (h2 : v.toNat % 2 ^ 18 ≤ 250000)
include h1 h2

theorem lineFreq_allowed : lineFreq p v s = { linesLow p s with clk := { s.clk with
    lineKhz := Tbl.put 50000 s.clk.lineKhz p (BitVec.ofNat 18 (v.toNat % 2 ^ 18))
    relock := setBit s.clk.relock (9 + p) (s.on domFRONT)
    disconnected := setBit s.clk.disconnected (9 + p) (s.on domFRONT)
    locked := if s.on domFRONT then setBit s.clk.locked (9 + p) false else s.clk.locked } } := by
  rw [lineFreq, fld_zero, if_neg (by omega)]

theorem lineFreq_front_on (h : s.on domFRONT = true) : lineFreq p v s = { linesLow p s with clk := { s.clk with
    lineKhz := Tbl.put 50000 s.clk.lineKhz p (BitVec.ofNat 18 (v.toNat % 2 ^ 18))
    relock := setBit s.clk.relock (9 + p) true
    disconnected := setBit s.clk.disconnected (9 + p) true
    locked := setBit s.clk.locked (9 + p) false } } := by
  rw [lineFreq_allowed h1 h2, h, if_pos rfl]

theorem lineFreq_front_off (hp : p < 4) (h : s.on domFRONT = false) :
    (lineFreq p v s).clk.lineKhz = Tbl.put 50000 s.clk.lineKhz p (BitVec.ofNat 18 (v.toNat % 2 ^ 18)) ∧
    (lineFreq p v s).clk.locked = s.clk.locked ∧ bit (lineFreq p v s).clk.relock (9 + p) = false := by
  rw [lineFreq_allowed h1 h2, h]
  exact ⟨rfl, rfl, bit_setBit_same _ _ (by omega)⟩

end

theorem lineFreq_refused (h : v.toNat % 2 ^ 18 < 20000 ∨ 250000 < v.toNat % 2 ^ 18) :
    lineFreq p v s = { s with clk := { s.clk with cfgErr := true } } := by
  rw [lineFreq, fld_zero, if_pos h]

/-- The clocks once PLL i has locked. -/
def Clk.relocked (c : Clk) (i : Nat) : Clk :=
  { c with relock := setBit c.relock i false, disconnected := setBit c.disconnected i false
           locked := setBit c.locked i true }

section
variable (h : bit s.clk.relock i = true)
include h

theorem pllLock_idle (hp : i < 9 ∨ (s.port (i - 9)).enable = false) :
    pllLock i s = { s with clk := s.clk.relocked i } := by
  have idle : ¬ (9 ≤ i ∧ (s.port (i - 9)).enable = true) := by
    rintro ⟨h9, he⟩
    exact hp.elim (by omega) (by simp [he])
  rw [pllLock, if_pos h]
  exact if_neg idle

theorem pllLock_retrains (h9 : 9 ≤ i) (he : (s.port (i - 9)).enable = true)
    (hr : (s.port (i - 9)).rateOk (s.lineKhz (i - 9)).toNat = true) :
    pllLock i s = { s with clk := s.clk.relocked i }.setPort (i - 9)
      { s.port (i - 9) with retrain := true, terminated := true } := by
  rw [pllLock, if_pos h]
  exact (if_pos ⟨h9, he⟩).trans (if_pos hr)

theorem pllLock_stops (h9 : 9 ≤ i) (he : (s.port (i - 9)).enable = true)
    (hr : (s.port (i - 9)).rateOk (s.lineKhz (i - 9)).toNat = false) :
    pllLock i s = portStopGroup (i - 9) 1 { s with clk := s.clk.relocked i } := by
  rw [pllLock, if_pos h]
  exact (if_pos ⟨h9, he⟩).trans (if_neg (Bool.eq_false_iff.1 hr))

theorem pllLockTimeout_relocking : pllLockTimeout i s = fire
    { detector := 0x0F, level := if 5 ≤ i ∧ i ≤ 8 then lvlStack else lvlUnit, location := i }
    { s with clk := { s.clk with
      relock := setBit s.clk.relock i false, lockFail := setBit s.clk.lockFail i true } } := by
  rw [pllLockTimeout, if_pos h]

end

/-! ## The commands -/

theorem exec_tempSample {die : List Int} {stackC : List (Option Int)} (hd : die.length = 64)
    (hc : stackC.length = 4) : exec (.tempSample die stackC) s = .next (tempSample die stackC s) :=
  if_pos ⟨hd, hc⟩

theorem exec_lineFreqWrite_go {p : Fin 4} (h : access q (.blk (0x200010 + 4 * p)) true s = .go) :
    exec (.lineFreqWrite q p v) s = .next (lineFreq p v s) :=
  congrArg _ (regWrite_go h)

/-- Settles O14: VGRID, the temperatures, a stack's sensor, the frequencies allowed and refused, the lock and its
timeout. -/
theorem voltageAndClocks : Obligations.VoltageAndClocks := by
  refine ⟨?vgrid, ?temps, ?sensor, ?allowed, ?refused, ?lock, ?timeout⟩
  case vgrid =>
    intro fitMv dw s hm hv
    have applied := evaluated_vact (fitMv := fitMv) (dw := dw) hv
    refine ⟨s.evaluated fitMv dw, congrArg _ (vgridEvaluate_on hm), rfl, rfl, rfl, ?_,
      evaluated_holdActive_iff hv, ?_⟩
    · exact applied ▸ nextVgrid_le ..
    · intro _ ht hd
      rw [applied]
      exact ⟨nextVgrid_cool_ge hd ht, nextVgrid_cool_rises hd ht, nextVgrid_cool_falls hd ht⟩
  case temps => exact fun _ _ _ hd hc hm _ hdie hstack =>
    (exec_tempSample hd hc).trans (congrArg _ (tempSample_below hm hdie hstack))
  case sensor => exact fun _ _ _ hon hf =>
    ⟨stackSample_heats hon hf, stackSample_cools hon hf, stackSample_silent hon hf⟩
  case allowed => exact fun _ p _ _ ha h1 h2 =>
    ⟨fun h => (exec_lineFreqWrite_go ha).trans (congrArg _ (lineFreq_front_on h1 h2 h)),
      fun h => ⟨_, exec_lineFreqWrite_go ha, lineFreq_front_off h1 h2 p.isLt h⟩⟩
  case refused => exact fun _ _ _ _ ha h => (exec_lineFreqWrite_go ha).trans (congrArg _ (lineFreq_refused h))
  case lock => exact fun _ _ h => ⟨fun hp => congrArg _ (pllLock_idle h hp), fun h9 he =>
    ⟨fun hr => congrArg _ (pllLock_retrains h h9 he hr), fun hr => congrArg _ (pllLock_stops h h9 he hr)⟩⟩
  case timeout => exact fun _ _ h => congrArg _ (pllLockTimeout_relocking h)

end Sys2Proof.Machine
end

section
/-!
PROOFS. What loss of the AON supply leaves of the links (R125), and the refutation of O13. Its clause on the cables
speaks of every state, also of one whose table of links lists a link twice: a read finds the first entry, and the
rebuilding of the table keeps the last. A write keeps a table canonical (`Tbl.wf_put`), and where it is canonical each
cable is kept.
-/
namespace Sys2Proof.Machine

/-- A table whose keys rise, rebuilt with every entry changed. -/
theorem find_foldl_put {α : Type} [DecidableEq α] {d : α} {f : α → α} {l : Tbl α}
    (hl : (l.map (·.1)).Pairwise (· < ·)) (acc : Tbl α) (n : Nat) :
    Tbl.find d (l.foldl (fun t e => Tbl.put d t e.1 (f e.2)) acc) n =
      if n ∈ l.map (·.1) then f (Tbl.find d l n) else Tbl.find d acc n := by
  induction l generalizing acc with
  | nil => simp
  | cons e l ih =>
    obtain ⟨k, v⟩ := e
    obtain ⟨above, rising⟩ := List.pairwise_cons.1 hl
    rw [List.foldl_cons, ih rising]
    rcases eq_or_ne n k with rfl | hn
    · have fresh : n ∉ l.map (·.1) := fun h => lt_irrefl _ (above n h)
      simp [fresh, Tbl.find]
    · simp only [List.map_cons, List.mem_cons, hn, false_or, Tbl.find_put_other d acc (f v) hn, Tbl.find, hn.symm,
        if_false]

theorem find_of_not_mem {α : Type} {d : α} {l : Tbl α} {n : Nat} (h : n ∉ l.map (·.1)) : Tbl.find d l n = d := by
  induction l with
  | nil => rfl
  | cons e l ih =>
    rw [List.map_cons, List.mem_cons, not_or] at h
    exact (if_neg (Ne.symm h.1)).trans (ih h.2)

/-- In a canonical table of links each cable outlives the supply, and the links of a card that no cable feeds are
down. -/
theorem aonSupplyLoss_link {s : State} (hw : Tbl.wf {} s.chn.links = true) (hf : s.cableFed = false) (x : Nat) :
    (aonSupplyLoss s).link x = { cable := (s.link x).cable } := by
  have rebuilt := find_foldl_put (d := {}) (f := fun l : Link => { cable := l.cable })
    ((Tbl.wf_iff _ _).1 hw).1 [] x
  have loss : (aonSupplyLoss s).link x = Tbl.find {} (s.chn.links.foldl
      (fun t e => Tbl.put {} t e.1 ({ cable := e.2.cable } : Link)) []) x := by
    simp [aonSupplyLoss, hf, Chn.afterLoss, State.link]
  rw [loss, rebuilt]
  split
  · rfl
  · next h => rw [State.link, find_of_not_mem h]; rfl

/-- Refutes O13: with link 0 listed twice, with a cable and then without one, the cable that the card sees before the
loss of the AON supply is gone after it. A canonical table lists no link twice, and of one the clause holds
(`aonSupplyLoss_link`). -/
theorem not_resetsAndPowerStates : ¬ Obligations.ResetsAndPowerStates := by
  intro h
  obtain ⟨⟨loss, -⟩, -⟩ := h
  obtain ⟨t, ht, -, -, -, -, -, -, links, -⟩ := loss { State.reset with
    chn := { State.reset.chn with links := [(0, { cable := .plain }), (0, {})] } }
  cases ht
  obtain ⟨-, kept⟩ := links (by decide)
  exact absurd (kept 0).2 (by decide)

end Sys2Proof.Machine
end

section
/-!
PROOFS. Which tenants exist (R143), how a tenant's address is translated (R155, R156), what a write through it reaches,
and the settling of O16, O17 and O7.
-/
namespace Sys2Proof.Machine

variable {s : State} {t a p : Nat}

/-- The number of VFs in effect is a minimum: a bound by it is a bound by each (R136). -/
theorem le_vfs_iff : t ≤ s.vfs ↔ t ≤ s.hif.numVfs.toNat ∧ t ≤ 63 ∧ (s.hif.ari = false → t ≤ 7) := by
  cases ari : s.hif.ari with
  | false => simp [State.vfs, ari]; omega
  | true => simp [State.vfs, ari]

theorem tenantExists_iff : s.tenantExists t = true ↔
    t = 0 ∨ (s.hif.vfEnable = true ∧ t ≤ s.hif.numVfs.toNat ∧ t ≤ 63 ∧
      (s.hif.ari = false → t ≤ 7)) := by
  simp only [State.tenantExists, Bool.or_eq_true, Bool.and_eq_true, decide_eq_true_eq, le_vfs_iff]

/-- Settles O16. -/
theorem tenantsThatExist : Obligations.TenantsThatExist := fun _ _ => tenantExists_iff

/-- An address is translated where it lies in the tenant's range and the entry of its page is valid. -/
theorem translate_eq_some_iff : s.translate t a = some p ↔
    a < 2 ^ 40 ∧ a / pageBytes < (s.tenant t).mapCount.toNat ∧
    (s.mapEntry ((s.tenant t).mapBase.toNat + a / pageBytes)).valid = true ∧
    p = (s.mapEntry ((s.tenant t).mapBase.toNat + a / pageBytes)).ppn.toNat * pageBytes + a % pageBytes := by
  by_cases range : a < 2 ^ 40 ∧ a / pageBytes < (s.tenant t).mapCount.toNat
  · rw [State.translate, if_pos range]
    by_cases valid : (s.mapEntry ((s.tenant t).mapBase.toNat + a / pageBytes)).valid = true
    · simp only [valid, if_true, Option.some.injEq, range, true_and, eq_comm]
    · simp [valid]
  · rw [State.translate, if_neg range]
    exact ⟨(nomatch ·), fun ⟨below, inRange, _⟩ => absurd ⟨below, inRange⟩ range⟩

/-- Settles O17. -/
theorem translation : Obligations.Translation := fun _ _ _ _ => translate_eq_some_iff

/-- A byte that no written address is translated to reads as before: each write of device memory leaves the
translations of the bytes after it alone. -/
theorem byte_writeTen_of_unreached {bs : List Byte} (h : ∀ i < bs.length, s.translate t (a + i) ≠ some p) :
    (s.writeTen t a bs).byte p = s.byte p := by
  have unreached : ∀ x ∈ bs.zipIdx, s.translate t (a + x.2) ≠ some p :=
    fun x hx => h x.2 (List.snd_lt_of_mem_zipIdx hx)
  unfold State.writeTen
  generalize bs.zipIdx = xs at unreached
  clear h
  induction xs generalizing s with
  | nil => rfl
  | cons x xs ih =>
    obtain ⟨first, rest⟩ := List.forall_mem_cons.1 unreached
    rw [List.foldl_cons]
    split
    · next b hb =>
      have other : p ≠ b := fun e => first (e ▸ hb)
      exact (ih (s := s.setByte b x.1) rest).trans ((s.byte_setByte b p x.1).trans (if_neg other))
    · exact ih rest

/-- Settles O7, by induction on the bytes written. -/
theorem tenantWritesReachOwnPages : Obligations.TenantWritesReachOwnPages :=
  fun _ _ _ _ _ => byte_writeTen_of_unreached

end Sys2Proof.Machine
end

section
/-!
PROOFS. A virtual function and the block windows (R149), and the refutation of O8. Its clause on a VF's writes asks that
all of MEM_ stay as it was, with the scale of every stack. A write of 1 to Bus Master Enable writes a completion entry
that was cut off (R147), the completion releases its job's reservation (R375), and the card recomputes the scale (R378).
-/
namespace Sys2Proof.Machine

variable {t : Fin 64} {off : Nat}

/-- No part of a block window answers a VF. -/
theorem access_vf_block (ht : t.val ≠ 0) (w : Bool) (s : State) : access (.fn t) (.blk off) w s = .silent := by
  simp [access, ht]

/-- The clause of O8 on block windows: a VF's write there changes nothing. -/
theorem regWrite_vf_block (ht : t.val ≠ 0) (f : State → State) (s : State) :
    regWrite (.fn t) (.blk off) f s = s := by
  rw [regWrite, regWriteOr, access_vf_block ht]

/-- The clause of O8 on block windows: a VF's read there gives all ones. -/
theorem regRead_vf_block (ht : t.val ≠ 0) (g : State → Reg × State) (s : State) :
    regRead (.fn t) (.blk off) g s = { s with rdata := 0xFFFFFFFF } := by
  rw [regRead, access_vf_block ht]

/-- A job of tenant 1 whose completion is decided and not yet written: it holds 560,000 MB/s of stack 0. -/
def finishedJob : Job :=
  { id := 0, tenant := 1, ring := 0, seq := 0, jobId := 0, man := { bw := 560000 }, phase := .finished
    parts := [560000, 0, 0, 0], result := some (cpl stOk 0) }

/-- A running card with VF 1, that job at the head of its ring 0, and stack 0 grown hot: at 500,000 MB/s its scale is
below 1 (R377). -/
def hotCard : State := rescale { State.reset with
  pwr := { State.reset.pwr with dom := 0xFFFF, perst := false }
  boot := { State.reset.boot with stage := .running, ready := true, scrubbed := true }
  hif := { State.reset.hif with
    linkUp := true, width := 16, speed := 5, numVfs := 1, vfEnable := true
    funcs := [(1, { bme := true, mse := true })] }
  ten := { State.reset.ten with tenants := [(1, { enable := true })] }
  rings := [(8, { enable := true, sqHead := 1, inflight := [{ seq := 0, desc := [], st := .admitted 0 }] })]
  mem := { State.reset.mem with stk := [(0, { hot := true, trained := true })] }
  sch := { State.reset.sch with nextJob := 1, jobs := [finishedJob] }
  flt := { State.reset.flt with cores := [(1, { running := true })] } }

/-- That card, once Bus Master Enable of VF 1 has gone to 0 between the two writes of the job's completion. -/
def cutOffCard : State := bmeClear 1 (some 0) hotCard

/-- Refutes O8: VF 1 of that card sets Bus Master Enable, and the scale of stack 0 goes from 53,833 to 65,536. Its
clause on block windows holds (`regWrite_vf_block`, `regRead_vf_block`). -/
theorem not_virtualFunctionIsolation : ¬ Obligations.VirtualFunctionIsolation := by
  intro h
  obtain ⟨writes, -⟩ := h
  obtain ⟨kept, -⟩ := writes 1 (.config .bme) 0 4 15 1 cutOffCard _ (by decide) rfl
  have before : (cutOffCard.stack 0).scale = 53833 := by decide
  have after : ((anyWrite (.fn 1) (.config .bme) 0 4 15 1 cutOffCard).stack 0).scale = 65536 := by decide
  rw [State.stack, kept] at after
  exact absurd (before.symm.trans after) (by decide)

end Sys2Proof.Machine
end

section
/-!
PROOFS. The host link's failed reads (R135, R193), configuration space (R136, R147), the commands of the tenants (R158
to R165), and the settling of O15.
-/
namespace Sys2Proof.Machine

variable {s : State} {q : Requester} {t i : Nat} {v : BitVec 32} {why : ReadEnd} {a : BitVec 64}

/-! ## A read of the card that fails (R135, R193) -/

theorem mayEnd_of (h : why ≠ .timeout ∨ (s.func 0).ctoDisable = false) : s.mayEnd why = true := by
  rcases h with h | h <;> simp [State.mayEnd, h]

theorem mayEnd_timeout_disabled (h : (s.func 0).ctoDisable = true) : s.mayEnd .timeout = false := by
  simp [State.mayEnd, h]

/-- The record holds the low half of the address. -/
theorem hostFinding_eq {level err : Nat} : hostFinding level t err a =
    { detector := 0x09, level := level, location := t, info0 := err, info1 := a.toNat % 2 ^ 32 } := by
  rw [hostFinding, fld_zero]

theorem hostReadFail_disabled {what : HostRead} (h : (s.func 0).ctoDisable = true) :
    hostReadFail what .timeout a s = s :=
  if_pos (by simp [mayEnd_timeout_disabled h])

section
variable (hw : why ≠ .timeout ∨ (s.func 0).ctoDisable = false)
include hw

theorem hostReadFail_descriptor {t : Fin 64} {r : Fin 8} (h : s.fetchable t r = true) :
    hostReadFail (.descriptor t r) why a s = stopRing t r 1 (fire
      { detector := 0x09, level := lvlRing, location := t, info0 := 1, info1 := a.toNat % 2 ^ 32 }
      (logAer t why s)) := by
  simp [hostReadFail, mayEnd_of hw, h, hostFinding_eq]

theorem hostReadFail_chime {t : Fin 64} (h : s.lineRead t = true) :
    hostReadFail (.chime t) why a s = forEach ringsOf (fun r s => stopRing t r 2 s) (endLineRead t false (fire
      { detector := 0x09, level := lvlRing, location := t, info0 := 2, info1 := a.toNat % 2 ^ 32 }
      (logAer t why s))) := by
  simp [hostReadFail, mayEnd_of hw, h, hostFinding_eq, stopRings]

theorem hostReadFail_buffer {j : Nat} {x : Job} (h : s.job? j = some x) :
    hostReadFail (.buffer j) why a s = fireJob
      { detector := 0x09, level := lvlJob, location := x.tenant, info0 := 0, info1 := a.toNat % 2 ^ 32 } j
      (logAer x.tenant why s) := by
  simp [hostReadFail, mayEnd_of hw, h, hostFinding_eq]

end

/-! ## Configuration space (R136, R147) -/

theorem numvfsWrite_up {n : BitVec 16} {e ari : Bool} (hl : s.hif.linkUp = true) (hf : (s.func 0).flrBusy = false) :
    let u : State := { s with hif := { s.hif with
      numVfs := n, vfEnable := e && (s.hif.vfEnable || decide (s.boot.stage ≠ .recovery)), ari := ari } }
    numvfsWrite n e ari s = forEach (s.existing.filter (fun t => !u.tenantExists t))
      (fun t s => (tenantGone t (flrTenant t s)).setFunc t {}) u :=
  if_neg (by simp [hl, hf])

section
variable (hc : s.configurable t = true)
include hc

theorem bmeClear_set (hb : (s.func t).bme = true) : bmeClear t none s =
    tenantReset t (abortTenant t 3 (s.setFunc t { s.func t with bme := false })) :=
  if_pos ⟨hc, hb⟩

theorem bmeSet_clear (hb : (s.func t).bme = false) : bmeSet t s =
    forEach ringsOf (flushHalf t) (s.setFunc t { s.func t with bme := true }) :=
  if_pos ⟨hc, by simp [hb]⟩

end

/-! ## The translation pool (R158, R159) -/

/-- An entry that was not valid gives up no page. -/
theorem mapWrite_invalid (hl : s.locked i = false) (hv : (s.mapEntry i).valid = false)
    (h : bit v 31 = true → s.pageConflict i (fldv v 0 16 : BitVec 16).toNat = false ∧
      s.pageReserved (fldv v 0 16 : BitVec 16).toNat = false) :
    mapWrite i v s = s.setMap i { valid := bit v 31, ppn := fldv v 0 16 } := by
  cases valid : bit v 31 with
  | false => simp [mapWrite, hl, hv, valid]
  | true =>
    obtain ⟨unused, free⟩ := h valid
    simp [mapWrite, hl, hv, valid, unused, free]

theorem mapWrite_locked (hl : s.locked i = true) (hv : bit v 31 = false) :
    mapWrite i v s = { s with ten := { s.ten with mapStat := s.ten.mapStat ||| 4 } } := by
  have bits : BitVec.extractLsb' 0 4 (pack [(2, 1), (1, 0), (0, 0)]) = 4 := by decide
  simp [mapWrite, hl, hv, bits]

theorem pageZeroed_on {p : ScrubPage} {rest : List ScrubPage} (hq : s.ten.scrubQ = p :: rest)
    (hd : s.pwr.dstate = .d0) (hm : s.on (domMEM (p.ppn / stackPages)) = true) : pageZeroed s =
      zeroBytes (p.ppn * pageBytes) pageBytes { s with ten := { s.ten with scrubQ := rest } } := by
  simp [pageZeroed, hq, hd, hm]

/-! ## Enable, disable and scrub (R160, R161, R165) -/

theorem enableTenant_off (he : (s.tenant t).enable = false) (hd : (s.tenant t).disabling = false)
    (hx : s.tenantExists t = true) (hr : (s.tenant t).mapBase.toNat + (s.tenant t).mapCount.toNat ≤ 49152)
    (ho : s.overlaps t = false) (hs : s.scrubbing t = false) :
    enableTenant q t s = holdChime t (s.setTenant t { s.tenant t with enable := true }) := by
  simp [enableTenant, he, hd, hx, ho, hs, Nat.not_lt.2 hr]

theorem disableTenant_on (he : (s.tenant t).enable = true) (hd : (s.tenant t).disabling = false) :
    disableTenant t s = tenantLost t (tenantReset t
      (abortTenant t 4 (s.setTenant t { s.tenant t with disabling := true }))) :=
  if_pos ⟨he, by simp [hd]⟩

theorem scrubTenant_off (he : (s.tenant t).enable = false) :
    scrubTenant q t s = queueScrub (some t) ((s.pages t).map (·.2)) s :=
  if_neg (by simp [he])

/-- A tail-hint line that is not due is not written. -/
theorem tailHint_idle (h : (s.tenant t).hintDue = false) : tailHint t s = s :=
  if_neg (by simp [h])

/-- With every completion written, the disable ends once the tail-hint line reports them. -/
theorem disableDone_reported (hd : (s.tenant t).disabling = true) (hr : ∀ r ∈ ringsOf, (s.ring t r).inflight = [])
    (hh : ((tailHint t s).tenant t).hintDue = false) : disableDone t s = tenantGone t (tailHint t s) := by
  have written : ringsOf.all (fun r => (s.ring t r).inflight.isEmpty) = true :=
    List.all_eq_true.2 fun r h => by rw [hr r h]; rfl
  rw [disableDone, if_pos ⟨hd, written⟩]
  exact if_neg (by simp [hh])

theorem disableDone_idle (hd : (s.tenant t).disabling = true) (hr : ∀ r ∈ ringsOf, (s.ring t r).inflight = [])
    (hh : (s.tenant t).hintDue = false) : disableDone t s = tenantGone t s := by
  have idle := tailHint_idle hh
  rw [disableDone_reported hd hr (by rw [idle, hh]), idle]

/-- Giving up the lines of the device cache sends messages and nothing else. -/
@[simp] theorem evictLines_tenant (t m : Nat) (s : State) : (evictLines t s).tenant m = s.tenant m := by
  rw [evictLines]; split <;> split <;> rfl

theorem tenantGone_tenant (t : Nat) (s : State) : (tenantGone t s).tenant t = { s.tenant t with
    enable := false, disabling := false, chime := .absent, polls := 0, hintDue := false, hintHeld := false } := by
  simp [tenantGone]

/-! ## The commands -/

theorem exec_hostReadFail {what : HostRead} :
    exec (.hostReadFail what why a) s = .next (hostReadFail what why a s) := rfl

theorem exec_numvfsWrite {n : BitVec 16} {e ari : Bool} :
    exec (.numvfsWrite n e ari) s = .next (numvfsWrite n e ari s) := rfl

theorem exec_bmeClear {t : Fin 64} : exec (.bmeClear t none) s = .next (bmeClear t none s) := rfl

theorem exec_bmeSet {t : Fin 64} : exec (.bmeSet t) s = .next (bmeSet t s) := rfl

theorem exec_tenMapWrite_go {i : Fin 49152} (h : access q (.blk (baseTEN + 0x10000 + 4 * i)) true s = .go) :
    exec (.tenMapWrite q i v) s = .next (mapWrite i v s) := congrArg _ (regWrite_go h)

section
variable {t : Fin 64} (h : access q (.blk (tenBlock t)) true s = .go)
include h

theorem exec_tenantEnable_go : exec (.tenantEnable q t) s = .next (enableTenant q t s) := congrArg _ (regWrite_go h)

theorem exec_tenantDisable_go : exec (.tenantDisable q t) s = .next (disableTenant t s) := congrArg _ (regWrite_go h)

theorem exec_tenantScrub_go : exec (.tenantScrub q t) s = .next (scrubTenant q t s) := congrArg _ (regWrite_go h)

end

/-- Settles O15: the failed reads of a descriptor, a chime line and a buffer, the disabled timeout and configuration
space; then the pool, enable, disable, its end and scrub. -/
theorem hostAndTenants : Obligations.HostAndTenants := by
  refine ⟨⟨?fails, ?disabled, ?numVfs, ?clear, ?set⟩,
    ?map, ?mapLocked, ?zeroed, ?enable, ?disable, ?done, ?scrub⟩
  case fails => exact fun _ _ _ hw =>
    ⟨fun _ _ h => exec_hostReadFail.trans (congrArg _ (hostReadFail_descriptor hw h)),
      fun _ h => exec_hostReadFail.trans (congrArg _ (hostReadFail_chime hw h)),
      fun _ _ h => exec_hostReadFail.trans (congrArg _ (hostReadFail_buffer hw h))⟩
  case disabled => exact fun _ _ _ h => exec_hostReadFail.trans (congrArg _ (hostReadFail_disabled h))
  case numVfs => exact fun _ _ _ _ hl hf => exec_numvfsWrite.trans (congrArg _ (numvfsWrite_up hl hf))
  case clear => exact fun _ _ hc hb => exec_bmeClear.trans (congrArg _ (bmeClear_set hc hb))
  case set => exact fun _ _ hc hb => exec_bmeSet.trans (congrArg _ (bmeSet_clear hc hb))
  case map => exact fun _ _ _ _ ha hl hv h => (exec_tenMapWrite_go ha).trans (congrArg _ (mapWrite_invalid hl hv h))
  case mapLocked => exact fun _ _ _ _ ha hl hv =>
    (exec_tenMapWrite_go ha).trans (congrArg _ (mapWrite_locked hl hv))
  case zeroed => exact fun _ _ _ hq hd hm => congrArg _ (pageZeroed_on hq hd hm)
  case enable => exact fun _ _ _ ha he hd hx hr ho hs =>
    (exec_tenantEnable_go ha).trans (congrArg _ (enableTenant_off he hd hx hr ho hs))
  case disable => exact fun _ _ _ ha he hd =>
    (exec_tenantDisable_go ha).trans (congrArg _ (disableTenant_on he hd))
  case done => exact fun t s hd hr => ⟨fun hh => congrArg _ (disableDone_idle hd hr hh),
    fun _ hh => congrArg _ (disableDone_reported hd hr hh), tenantGone_tenant t s⟩
  case scrub => exact fun _ _ _ ha he => (exec_tenantScrub_go ha).trans (congrArg _ (scrubTenant_off he))

end Sys2Proof.Machine
end

section
/-!
PROOFS. The ring registers (R172 to R174, R191), what a ring sees of its chime line (R185, R193), the chime and
tail-hint lines (R187 to R192), the fetch of descriptors (R180, R181), and the settling of O18.
-/
namespace Sys2Proof.Machine

variable {s : State} {q : Requester} {t r : Nat} {k : BitVec 5} {p c : BitVec 32} {line : List Byte}

/-! ## Ring registers (R172 to R174, R191) -/

theorem enableRing_off (he : (s.ring t r).enable = false) (hi : (s.ring t r).inflight = []) (hlo : 4 ≤ k.toNat)
    (hhi : k.toNat ≤ 16) : enableRing q t r k s = holdChime t (s.setRing t r { s.ring t r with
      k := k, enable := true, stopped := false, err := 0, sqHead := 0, cqTail := 0, sqProd := 0, cqCons := 0,
      markerDue := true, half := none }) := by
  simp [enableRing, he, hi, Nat.not_lt.2 hlo, Nat.not_lt.2 hhi]

theorem enableRing_badSize (he : (s.ring t r).enable = false) (hk : k.toNat < 4 ∨ 16 < k.toNat) :
    enableRing q t r k s = regError q (RegAddr.tpg t (ringCtl r)).bar0 s := by
  simp [enableRing, he, hk]

theorem enableRing_again (he : (s.ring t r).enable = true) (hi : (s.ring t r).inflight = []) :
    enableRing q t r (s.ring t r).k s = s.setRing t r { s.ring t r with
      sqHead := 0, cqTail := 0, sqProd := 0, cqCons := 0, markerDue := true, half := none } := by
  simp [enableRing, he, hi]

theorem writePoll_eq (t : Nat) (v : BitVec 32) (s : State) : writePoll t v s = s.setTenant t { s.tenant t with
    pollUs := BitVec.ofNat 10 (max 1 (min 1000 (v.toNat % 1024))) } := by
  have field : fld v 0 10 = v.toNat % 1024 := fld_zero v 10
  rw [writePoll, clamp, field]

/-! ## The indices of a chime line (R185, R193) -/

theorem seeIndices_overrun (h : 2 ^ (s.ring t r).k.toNat < (p - (s.ring t r).sqHead).toNat)
    (he : (s.ring t r).enable = true) (hs : (s.ring t r).stopped = false) :
    seeIndices t r p c s = stopRing t r 3 (s.setRing t r { s.ring t r with sqProd := p, cqCons := c }) :=
  if_pos ⟨he, by simp [hs], decide_eq_true h⟩

theorem seeIndices_room (h : (p - (s.ring t r).sqHead).toNat ≤ 2 ^ (s.ring t r).k.toNat) :
    seeIndices t r p c s = s.setRing t r { s.ring t r with sqProd := p, cqCons := c } :=
  if_neg fun ⟨_, _, more⟩ => Nat.not_lt.2 h (of_decide_eq_true more)

/-! ## The stop of a ring leaves the mode of the link as it was -/

theorem forEach_cxl {α : Type} {l : List α} {f : α → State → State} (hf : ∀ a s, (f a s).hif.cxl = s.hif.cxl) :
    (forEach l f s).hif.cxl = s.hif.cxl := by
  unfold forEach
  induction l generalizing s with
  | nil => rfl
  | cons a l ih => exact ih.trans (hf a s)

@[simp] theorem sendMsix_cxl (t e : Nat) (s : State) : (sendMsix t e s).hif.cxl = s.hif.cxl := by
  unfold sendMsix; split <;> rfl

@[simp] theorem fireMsix_cxl (t e : Nat) (s : State) : (fireMsix t e s).hif.cxl = s.hif.cxl := by
  unfold fireMsix
  split
  · rfl
  · exact sendMsix_cxl t e s

@[simp] theorem fireCq_cxl (t r : Nat) (s : State) : (fireCq t r s).hif.cxl = s.hif.cxl := by
  simp only [fireCq]
  split
  · simp
  · split <;> rfl

@[simp] theorem stopRing_cxl (t r err : Nat) (s : State) : (stopRing t r err s).hif.cxl = s.hif.cxl := by
  simp [stopRing]

@[simp] theorem seeIndices_cxl (t r : Nat) (p c : BitVec 32) (s : State) :
    (seeIndices t r p c s).hif.cxl = s.hif.cxl := by
  rw [seeIndices]; split <;> simp

@[simp] theorem seeLine_cxl (t : Nat) (line : List Byte) (s : State) : (seeLine t line s).hif.cxl = s.hif.cxl :=
  forEach_cxl fun _ _ => seeIndices_cxl ..

/-! ## The chime line and the tail-hint line (R187 to R192) -/

section
variable (hc : s.hif.cxl = true) (hl : s.hif.linkUp = true)
include hc hl

theorem chimeSnoop_held (h : (s.tenant t).chime = .held) :
    chimeSnoop t false s = readChime t (s.emit (.snoopAnswer (s.tenant t).chimeHpa)) := by
  simp [chimeSnoop, hc, hl, h]

theorem chimeSnoop_absent (h : (s.tenant t).chime = .absent) :
    chimeSnoop t false s = s.emit (.snoopAnswer (s.tenant t).chimeHpa) := by
  simp [chimeSnoop, hc, hl, h]

theorem chimeSnoop_hint : chimeSnoop t true s =
    (s.setTenant t { s.tenant t with hintHeld := false }).emit (.snoopAnswer (s.tenant t).hintHpa) := by
  simp [chimeSnoop, hc, hl]

theorem tailHint_due (h1 : s.hif.l1 = false) (hd : s.pwr.dstate = .d0) (hb : (s.func t).bme = true)
    (he : (s.tenant t).enable = true) (hh : (s.tenant t).hintDue = true) : tailHint t s =
      (s.setTenant t { s.tenant t with hintDue := false, hintHeld := true }).emit
        (.itoMWr (s.tenant t).hintHpa (s.hintBytes t)) :=
  if_pos ⟨hc, hl, by simp [h1], hd, hb, he, hh⟩

end

theorem chimePoll_pcie (hc : s.hif.cxl = false) (hl : s.linkOk t = true) (he : (s.tenant t).enable = true)
    (hb : s.boot.ready = true) : chimePoll t s =
      (s.setTenant t { s.tenant t with polls := (s.tenant t).polls + 1 }).emit
        (.readLine t (s.tenant t).chimeAddr) :=
  if_pos ⟨by simp [hc], hl, he, hb⟩

/-- A line that no read is out for is discarded. -/
theorem chimeLineData_unread (h : s.lineRead t = false) : chimeLineData t line s = s := by
  simp [chimeLineData, h]

/-- The line of a read that no snoop overtook is seen, and ends the read. -/
theorem chimeLineData_read (h : s.lineRead t = true) (ha : (s.tenant t).chime ≠ .readingAgain) :
    chimeLineData t line s = endLineRead t true (seeLine t line s) := by
  simp [chimeLineData, h, ha]

theorem chimeLineData_polled (hc : s.hif.cxl = false) (hp : 0 < (s.tenant t).polls)
    (ha : (s.tenant t).chime = .absent) : chimeLineData t line s =
      (seeLine t line s).setTenant t { (seeLine t line s).tenant t with
        polls := ((seeLine t line s).tenant t).polls - 1 } := by
  have out : s.lineRead t = true := by simp [State.lineRead, hc, hp]
  rw [chimeLineData_read out (by simp [ha]), endLineRead, seeLine_cxl, hc, if_neg Bool.false_ne_true]

theorem chimeLineData_cached (hc : s.hif.cxl = true) (hr : (s.tenant t).chime = .reading) :
    chimeLineData t line s =
      (seeLine t line s).setTenant t { (seeLine t line s).tenant t with chime := .held } := by
  have out : s.lineRead t = true := by simp [State.lineRead, hr]
  rw [chimeLineData_read out (by simp [hr]), endLineRead, seeLine_cxl, if_pos hc, if_pos rfl]

/-- A snoop has taken the line away while it was read: it is seen and read again. -/
theorem chimeLineData_again (ha : (s.tenant t).chime = .readingAgain) :
    chimeLineData t line s = readChime t (seeLine t line s) := by
  simp [chimeLineData, State.lineRead, ha]

/-! ## The commands -/

theorem exec_chimeLineData {t : Fin 64} (h : line.length = 64) :
    exec (.chimeLineData t line) s = .next (chimeLineData t line s) := if_pos h

theorem exec_descriptorFetch_fetchable {t : Fin 64} {r : Fin 8} {d : List (List Byte)} (h1 : 1 ≤ d.length)
    (h8 : d.length ≤ 8) (hd : ∀ x ∈ d, x.length = 64) (hf : s.fetchable t r = true) (hl : d.length ≤ s.fetchLimit t r) :
    let x := s.ring t r
    exec (.descriptorFetch t r d) s = .next ((s.emit
        (.readDesc t (x.sqBase + BitVec.ofNat 64 (64 * (x.sqHead.toNat % 2 ^ x.k.toNat))) d.length)).setRing t r
      { x with
        inflight := x.inflight ++ d.mapIdx (fun i y => { seq := x.sqHead + BitVec.ofNat 32 i, desc := y, st := .fetched })
        sqHead := x.sqHead + BitVec.ofNat 32 d.length }) := by
  have whole : d.all (fun x => x.length == 64) = true := List.all_eq_true.2 fun x hx => beq_iff_eq.2 (hd x hx)
  have formed : exec (.descriptorFetch t r d) s = .next (fetch t r d s) := if_pos ⟨h1, h8, whole⟩
  rw [formed, fetch, if_pos ⟨hf, hl⟩]

section
variable {t : Fin 64} {r : Fin 8} (h : access q (.tpg t (ringCtl r)) true s = .go)
include h

theorem exec_ringEnable_go : exec (.ringEnable q t r k) s = .next (enableRing q t r k s) := congrArg _ (regWrite_go h)

theorem exec_ringDisable_go : exec (.ringDisable q t r) s = .next (disableRing t r s) := congrArg _ (regWrite_go h)

end

theorem exec_pollPeriodWrite_go {t : Fin 64} {v : BitVec 32} (h : access q (.tpg t 0x308) true s = .go) :
    exec (.pollPeriodWrite q t v) s = .next (writePoll t v s) := congrArg _ (regWrite_go h)

/-- Settles O18: the ring registers, the poll period, the snoop, the poll and the data of a chime line and the
tail-hint line; then what a ring sees of its line, and the fetch. -/
theorem ringsAndChimes : Obligations.RingsAndChimes := by
  refine ⟨⟨?enable, ?badSize, ?again, ?disable, ?period, ?snoop, ?poll, ?data, ?hint⟩, ?indices, ?fetch⟩
  case enable => exact fun _ _ _ _ _ ha he hi hlo hhi =>
    (exec_ringEnable_go ha).trans (congrArg _ (enableRing_off he hi hlo hhi))
  case badSize => exact fun _ _ _ _ _ ha he hk =>
    (exec_ringEnable_go ha).trans (congrArg _ (enableRing_badSize he hk))
  case again => exact fun _ _ _ _ ha he hi => (exec_ringEnable_go ha).trans (congrArg _ (enableRing_again he hi))
  case disable => exact fun _ _ _ _ ha => exec_ringDisable_go ha
  case period => exact fun _ t v s ha => (exec_pollPeriodWrite_go ha).trans (congrArg _ (writePoll_eq t v s))
  case snoop => exact fun _ _ hc hl => ⟨fun h => congrArg _ (chimeSnoop_held hc hl h),
    fun h => congrArg _ (chimeSnoop_absent hc hl h), congrArg _ (chimeSnoop_hint hc hl)⟩
  case poll => exact fun _ _ hc hl he hb => congrArg _ (chimePoll_pcie hc hl he hb)
  case data => exact fun _ _ _ h64 =>
    ⟨fun hc hp ha => (exec_chimeLineData h64).trans (congrArg _ (chimeLineData_polled hc hp ha)),
      fun hc hr => (exec_chimeLineData h64).trans (congrArg _ (chimeLineData_cached hc hr)),
      fun _ ha => (exec_chimeLineData h64).trans (congrArg _ (chimeLineData_again ha)),
      fun h => (exec_chimeLineData h64).trans (congrArg _ (chimeLineData_unread h))⟩
  case hint => exact fun _ _ hc hl h1 hd hb he hh => congrArg _ (tailHint_due hc hl h1 hd hb he hh)
  case indices => exact fun _ _ _ _ _ => ⟨seeIndices_overrun, seeIndices_room⟩
  case fetch => exact fun _ _ _ _ => exec_descriptorFetch_fetchable

end Sys2Proof.Machine
end

section
/-!
PROOFS. The Gong: the next stamp and its wrap (R207, R217), a request that reaches its port (R215, R216), the grant of
one that waits (R215), and the settling of O21.
-/
namespace Sys2Proof.Machine

variable {e : GongRequest} {act : State → State} {held : Bool} {p n : Nat} {s : State}

/-! ## The next stamp (R207, R217) -/

theorem takeStamp_next_toNat (s : State) : (takeStamp s).gng.next.toNat = (s.gng.next.toNat + 1) % 2 ^ 48 := by
  rw [takeStamp_next, BitVec.toNat_add]; rfl

theorem takeStamp_wrap (s : State) : (takeStamp s).gng.wrap =
    if s.gng.next.toNat = 2 ^ 48 - 1 then s.gng.wrap + 1 else s.gng.wrap := by
  have last : s.gng.next = BitVec.allOnes 48 ↔ s.gng.next.toNat = 2 ^ 48 - 1 := by
    rw [← BitVec.toNat_inj, BitVec.toNat_allOnes]
  simp only [takeStamp, last]

/-- Settles O21: the stamp that follows, the count of wraps, and the frame. -/
theorem stampIncrement : Obligations.StampIncrement :=
  fun s => ⟨takeStamp_next_toNat s, takeStamp_wrap s, rfl⟩

/-! ## A request that reaches its port (R215, R216) -/

theorem held_contains_of_atPort_nil (h : s.atPort e = []) : s.gng.held.contains e = false := by
  rw [List.contains_eq_mem, decide_eq_false_iff_not]
  exact fun waits => List.filter_eq_nil_iff.1 h e waits (beq_self_eq_true _)

theorem askGong_held : askGong e true act s = gongWait e s := by simp [askGong]

theorem askGong_queued (h : s.atPort e ≠ []) : askGong e held act s = gongWait e s := by simp [askGong, h]

theorem askGong_passed (h : s.gongFree (gongPort e) = false) : askGong e held act s = gongWait e s := by
  simp [askGong, h]

theorem askGong_free (hq : s.atPort e = []) (hf : s.gongFree (gongPort e) = true) :
    askGong e false act s = act (gongPassed (gongPort e) s) := by
  simp [askGong, hq, hf]

/-! ## The event of a source (R226, log 48) -/

theorem askEvent_waits (h : held = true ∨ s.on domMGT = false) : askEvent n held s = gongWait (.source n) s := by
  have wait : (held || !s.on domMGT) = true := by simpa using h
  rw [askEvent, wait, askGong_held]

theorem askEvent_queued (h : s.atPort (.source n) ≠ []) : askEvent n held s = gongWait (.source n) s :=
  askGong_queued h

theorem askEvent_free (hm : s.on domMGT = true) (hq : s.atPort (.source n) = [])
    (hf : s.gongFree (gongPort (.source n)) = true) :
    askEvent n false s = raise n (gongPassed (gongPort (.source n)) s) := by
  rw [askEvent, hm]; exact askGong_free hq hf

theorem sourceEvent_asks (hm : s.on domMGT = true) (hr : reservedSource n = false) (hp : isPin n = false) :
    sourceEvent n held s = askEvent n held s := by
  simp [sourceEvent, hm, hr, hp]

/-! ## The grant (R215) -/

theorem gongFree_iff : s.gongFree p = true ↔ ∀ w ∈ s.gng.passed, w.1 = p ∨ p ∉ w.2 := by
  simp [State.gongFree]

theorem grantable_iff : s.grantable e = true ↔
    (s.atPort e).head? = some e ∧ ∀ w ∈ s.gng.passed, w.1 = gongPort e ∨ gongPort e ∉ w.2 := by
  rw [State.grantable, Bool.and_eq_true, beq_iff_eq, gongFree_iff]

theorem gongGrant_grantable (hm : s.on domMGT = true) (h : s.grantable e = true) : gongGrant e s =
    granted e (gongPassed (gongPort e) { s with gng := { s.gng with held := s.gng.held.erase e } }) :=
  if_pos ⟨hm, h⟩

theorem gongGrant_stays (h : s.grantable e ≠ true) : gongGrant e s = s := if_neg fun ready => h ready.2

theorem not_grantable_of (h : (s.atPort e).head? ≠ some e ∨ ∃ w ∈ s.gng.passed, w.1 ≠ gongPort e ∧ gongPort e ∈ w.2) :
    s.grantable e ≠ true := by
  rw [Ne, grantable_iff]
  rintro ⟨oldest, free⟩
  rcases h with younger | ⟨w, hw, other, seen⟩
  · exact younger oldest
  · exact (free w hw).elim other (absurd seen)

end Sys2Proof.Machine
end

section
/-!
PROOFS. What one entry of a CQ changes (R200, R251), the completion of the oldest descriptor (R186, R199), the marker of
an epoch (R204), and the settling of O19.
-/
namespace Sys2Proof.Machine

variable {t r : Nat} {d : Inflight} {rest : List Inflight} {c : Cpl} {j : Nat} {s : State}

/-! ## One entry (R200, R251) -/

@[simp] theorem ring_setRing_same (t r : Nat) (x : Ring) (s : State) : (s.setRing t r x).ring t r = x :=
  Tbl.find_put_same ..

theorem fireMsix_only (t e : Nat) (s : State) : ∃ h o, fireMsix t e s = { s with hif := h, out := o } := by
  unfold fireMsix sendMsix
  split
  · exact ⟨_, s.out, rfl⟩
  · split
    · exact ⟨_, s.out, rfl⟩
    · exact ⟨s.hif, _, rfl⟩

theorem fireCq_only (t r : Nat) (s : State) : ∃ p h o, fireCq t r s = { s.setRing t r { s.ring t r with
    uncovered := 0, firstAt := none, firePending := p } with hif := h, out := o } := by
  simp only [fireCq]
  split
  · obtain ⟨h, o, eq⟩ := fireMsix_only t r (s.setRing t r { s.ring t r with uncovered := 0, firstAt := none })
    exact ⟨(s.ring t r).firePending, h, o, eq⟩
  · split
    · exact ⟨true, _, s.out, rfl⟩
    · exact ⟨true, s.hif, s.out, rfl⟩

theorem countCompletion_only (t r : Nat) (s : State) : ∃ u f p h o, countCompletion t r s =
    { s.setRing t r { s.ring t r with uncovered := u, firstAt := f, firePending := p } with hif := h, out := o } := by
  simp only [countCompletion]
  split
  · obtain ⟨p, h, o, eq⟩ := fireCq_only t r (s.setRing t r { s.ring t r with
      uncovered := (s.ring t r).uncovered + 1
      firstAt := if (s.ring t r).uncovered = 0 then some s.now else (s.ring t r).firstAt })
    rw [State.setRing_setRing, ring_setRing_same] at eq
    exact ⟨0, none, p, h, o, eq⟩
  · exact ⟨_, _, (s.ring t r).firePending, s.hif, s.out, rfl⟩

/-- An entry takes a stamp and an index, issues its two writes, and may make the tail-hint line due; then it counts. -/
theorem writeEntry_counts (t r : Nat) (j i : BitVec 32) (c : Cpl) (s : State) : ∃ o ten,
    writeEntry t r j i c s = countCompletion t r { (takeStamp s).setRing t r { s.ring t r with
      cqTail := (s.ring t r).cqTail + 1 } with out := o, ten := ten } := by
  unfold writeEntry
  extract_lets _ _ _ u _ v
  cases cxl : v.hif.cxl with
  | false => exact ⟨u.out, s.ten, congrArg _ (if_neg (Bool.eq_false_iff.1 cxl))⟩
  | true => exact ⟨u.out, _, congrArg _ (if_pos cxl)⟩

/-- What an entry changes. -/
theorem writeEntry_only (t r : Nat) (j i : BitVec 32) (c : Cpl) (s : State) : ∃ u f p h o ten,
    writeEntry t r j i c s = { (takeStamp s).setRing t r { s.ring t r with
      cqTail := (s.ring t r).cqTail + 1, uncovered := u, firstAt := f, firePending := p } with
        hif := h, out := o, ten := ten } := by
  obtain ⟨o, ten, entry⟩ := writeEntry_counts t r j i c s
  obtain ⟨u, f, p, h, o, count⟩ := countCompletion_only t r { (takeStamp s).setRing t r { s.ring t r with
      cqTail := (s.ring t r).cqTail + 1 } with out := o, ten := ten }
  refine ⟨u, f, p, h, o, ten, entry.trans (count.trans ?_)⟩
  simp only [State.setRing, State.ring, Tbl.find_put_same, Tbl.put_put, takeStamp_rings]

theorem writeEntry_gng (t r : Nat) (j i : BitVec 32) (c : Cpl) (s : State) :
    (writeEntry t r j i c s).gng = (takeStamp s).gng := by
  obtain ⟨_, _, _, _, _, _, eq⟩ := writeEntry_only t r j i c s; rw [eq]; rfl

theorem writeEntry_mem (t r : Nat) (j i : BitVec 32) (c : Cpl) (s : State) : (writeEntry t r j i c s).mem = s.mem := by
  obtain ⟨_, _, _, _, _, _, eq⟩ := writeEntry_only t r j i c s; rw [eq]; rfl

theorem writeEntry_cqTail (t r : Nat) (j i : BitVec 32) (c : Cpl) (s : State) :
    ((writeEntry t r j i c s).ring t r).cqTail = (s.ring t r).cqTail + 1 := by
  obtain ⟨_, _, _, _, _, _, eq⟩ := writeEntry_only t r j i c s
  rw [eq]; exact congrArg Ring.cqTail (ring_setRing_same ..)

/-! ## The completion of the oldest descriptor (R186, R199) -/

theorem mayComplete_of {x : Ring} (hl : s.linkOk t = true) (hf : s.firmware (coreOf t) = true)
    (hs : x.space = true) (hh : x.half = none) : s.mayComplete t x = true := by
  simp [State.mayComplete, hl, hf, hs, hh]

section
variable (hi : (s.ring t r).inflight = d :: rest) (hd : s.decision d = some c)
  (hm : s.mayComplete t (s.ring t r) = true)
include hi hd hm

theorem completeHead_other (hj : ∀ j, d.st ≠ .admitted j) : completeHead t r s =
    writeEntry t r d.jobId d.seq c (s.setRing t r { s.ring t r with inflight := rest }) := by
  simp only [completeHead, hi, hd, hm, if_true]

theorem completeHead_job (hj : d.st = .admitted j) : completeHead t r s =
    removeJob j (writeEntry t r d.jobId d.seq c (s.setRing t r { s.ring t r with inflight := rest })) := by
  simp only [completeHead, hi, hd, hm, if_true, hj]

theorem completionWrite_asks (hq : s.atPort (.completion t r) = []) (held : Bool) :
    completionWrite t r held s = askGong (.completion t r) held (completeHead t r) s := by
  have done : s.headDone t r = true := by simp [State.headDone, hi, hd, hm]
  exact if_pos ⟨done, by rw [held_contains_of_atPort_nil hq]; rfl⟩

end

/-! ## The marker of an epoch (R204) -/

section
variable (h : s.markerReady t r = true)
include h

theorem epochMarker_ready : epochMarker t r s = writeEntry t r 0 (s.ring t r).sqHead
    (cpl stMarker (s.tenant t).epoch.toNat) (s.setRing t r { s.ring t r with markerDue := false }) := if_pos h

theorem markerWrite_asks (hq : s.atPort (.marker t r) = []) (held : Bool) :
    markerWrite t r held s = askGong (.marker t r) held (epochMarker t r) s :=
  if_pos ⟨h, by rw [held_contains_of_atPort_nil hq]; rfl⟩

end

/-! ## The commands -/

theorem exec_completionWrite {t : Fin 64} {r : Fin 8} {held : Bool} :
    exec (.completionWrite t r held) s = .next (completionWrite t r held s) := rfl

theorem exec_epochMarker {t : Fin 64} {r : Fin 8} {held : Bool} :
    exec (.epochMarker t r held) s = .next (markerWrite t r held s) := rfl

/-- Settles O19: the completion, held, behind another port's turn, without a job and with one; the marker; the entry. -/
theorem completions : Obligations.Completions := by
  refine ⟨?completion, ?marker, ?entry⟩
  case completion =>
    intro t r d rest c s hi hd hl hf hs hh hq
    have may := mayComplete_of hl hf hs hh
    have asks := completionWrite_asks hi hd may hq
    refine ⟨?held, fun busy => ?busy, fun free other => ?other, fun j free job => ?job⟩
    case held => rw [exec_completionWrite, asks, askGong_held]
    case busy => rw [exec_completionWrite, asks, askGong_passed busy]
    case other =>
      rw [exec_completionWrite, asks, askGong_free hq free]
      exact congrArg _ (completeHead_other (s := gongPassed _ s) hi hd may other)
    case job =>
      rw [exec_completionWrite, asks, askGong_free hq free]
      exact congrArg _ (completeHead_job (s := gongPassed _ s) hi hd may job)
  case marker =>
    intro t r s he hm hi hh hs hf hq
    have ready : s.markerReady t r = true := by simp [State.markerReady, he, hm, hi, hh, hs, hf]
    have asks := markerWrite_asks ready hq
    refine ⟨?held, fun free => ?free⟩
    case held => rw [exec_epochMarker, asks, askGong_held]
    case free =>
      rw [exec_epochMarker, asks, askGong_free hq free]
      exact congrArg _ (epochMarker_ready (s := gongPassed _ s) ready)
  case entry => exact fun t r j i c s =>
    ⟨congrArg Gong.next (writeEntry_gng t r j i c s), writeEntry_cqTail t r j i c s, writeEntry_mem t r j i c s⟩

end Sys2Proof.Machine
end

section
/-!
PROOFS. The pins (R81, R225, R230, R460), the latches while CK_AON is stopped (R231, R232), the Gong's commands, and the
settling of O23.
-/
namespace Sys2Proof.Machine

variable {k : Nat} {b held : Bool} {s : State}

/-! ## The glitch filters (R225, R230) -/

/-- The card once the filter of pin k shows level b. -/
def State.pinShows (s : State) (k : Nat) (b : Bool) : State :=
  { s with car := { s.car with levels := setBit s.car.levels k b } }

/-- What a fall of a motor driver's fault input does at pin k (R460). -/
def motorFault (k : Nat) (b : Bool) (s : State) : State := if 16 ≤ k ∧ b = false then mfltFall (k - 16) s else s

theorem filteredLevel_same (h : bit s.car.levels k = b) : filteredLevel k b held s = s := if_pos h

theorem filteredLevel_change (h : bit s.car.levels k = !b) : filteredLevel k b held s =
    motorFault k b (if senses (s.src (384 + k)).sense b then askEvent (384 + k) held (s.pinShows k b)
      else s.pinShows k b) := by
  have changes : bit s.car.levels k ≠ b := by simp [h]
  have falls : (16 ≤ k ∧ (!b) = true) = (16 ≤ k ∧ b = false) := by simp
  simp only [filteredLevel, if_neg changes, falls]
  rfl

theorem filteredLevel_unsensed (h : bit s.car.levels k = !b) (hs : senses (s.src (384 + k)).sense b = false) :
    filteredLevel k b held s = motorFault k b (s.pinShows k b) := by
  rw [filteredLevel_change h, hs]; rfl

theorem filteredLevel_sensed (h : bit s.car.levels k = !b) (hs : senses (s.src (384 + k)).sense b = true) :
    filteredLevel k b held s = motorFault k b (askEvent (384 + k) held (s.pinShows k b)) := by
  rw [filteredLevel_change h, hs]; rfl

theorem glitchFilterOutput_same (h : bit s.car.levels k = b) : glitchFilterOutput k b held s = s := if_pos (.inr h)

/-- A change at the filter of a pin shows the level that the pin is seen at (R81). -/
theorem glitchFilterOutput_change (hc : s.ckAon = true) (h : bit s.car.levels k = !b) : glitchFilterOutput k b held s =
    filteredLevel k (seenLevel k b s).1 held (seenLevel k b s).2 := if_neg (by simp [hc, h])

theorem glitchFilterOutput_seen (hc : s.ckAon = true) (h : bit s.car.levels k = !b) (hd : s.drivenOther k b = false) :
    glitchFilterOutput k b held s = filteredLevel k b held s := by
  rw [glitchFilterOutput_change hc h, seenLevel, if_neg (Bool.eq_false_iff.1 hd)]

/-- The level seen of an output that another driver contends is a free value (log 135). -/
theorem glitchFilterOutput_contended (hc : s.ckAon = true) (h : bit s.car.levels k = !b)
    (hd : s.drivenOther k b = true) :
    ∃ l, glitchFilterOutput k b held s = filteredLevel k l held { s with free := s.free + 1 } := by
  rw [glitchFilterOutput_change hc h, seenLevel, if_pos hd]
  exact ⟨_, rfl⟩

/-! ## The latches while CK_AON is stopped (R231, R232) -/

theorem latchWake_off (h : s.hif.pmeEn = false) : latchWake s = s := if_neg fun wake => by simp [h] at wake

theorem pinLatchCatch_first (ha : s.on domAON = true) (hc : s.ckAon = false) (hl : bit s.car.latches k = false)
    (hs : senses (s.src (384 + k)).sense b = true) (hp : s.hif.pmeEn = false) : pinLatchCatch k b s =
      { s with car := { s.car with latches := setBit s.car.latches k true } } := by
  rw [pinLatchCatch, if_pos ⟨ha, by simp [hc], by simp [hl], hs⟩]
  exact latchWake_off hp

theorem forEachAny_singleton {α : Type} (a : α) (f : α → State → State) (s : State) : forEachAny [a] f s = f a s := rfl

theorem filter_bit_setBit_zero (k : Fin 20) :
    (List.range 20).filter (fun j => bit (setBit (0 : BitVec 20) k true) j) = [k.val] := by
  revert k; decide

theorem pinLatchReplay_on (hc : s.ckAon = true) (hm : s.on domMGT = true) : pinLatchReplay s =
    forEachAny ((List.range 20).filter (fun k => bit s.car.latches k)) (fun k s => askEvent (384 + k) false s)
      { s with car := { s.car with latches := 0 } } := if_pos ⟨hc, hm⟩

theorem pinLatchReplay_one {k : Fin 20} (hc : s.ckAon = true) (hm : s.on domMGT = true)
    (hl : s.car.latches = setBit 0 k true) :
    pinLatchReplay s = askEvent (384 + k) false { s with car := { s.car with latches := 0 } } := by
  rw [pinLatchReplay_on hc hm, hl, filter_bit_setBit_zero, forEachAny_singleton]

/-! ## The commands -/

theorem exec_gngNextRead_go {q : Requester} (h : access q (.blk 0x500000) false s = .go) :
    exec (.gngNextRead q) s = .next { s with
      rdata := (s.gng.next.extractLsb' 0 32).zeroExtend 64
      gng := { s.gng with nextHi := s.gng.next.extractLsb' 32 16 } } := congrArg _ (regRead_go h)

theorem exec_gngHoldRead_go {q : Requester} (h : access q (.blk 0x500010) false s = .go) :
    exec (.gngHoldRead q) s = .next { s with rdata := s.gng.hold.zeroExtend 64, gng := { s.gng with hold := 0 } } :=
  congrArg _ (regRead_go h)

/-- Settles O23: the reads of the Gong, its grants, the event of a source and a wait; then the pins, their latches, and
a level that is there already. -/
theorem gongAndPins : Obligations.GongAndPins := by
  refine ⟨⟨?next, ?hold, ?grant, ?granted, ?event, ?wait⟩, ⟨?level, ?contended, ?same, ?latch, ?replay, ?replayOne⟩,
    ?unchanged⟩
  case next => exact fun _ _ => exec_gngNextRead_go
  case hold => exact fun _ _ => exec_gngHoldRead_go
  case grant => exact fun _ _ hm =>
    ⟨fun oldest free => congrArg _ (gongGrant_grantable hm (grantable_iff.2 ⟨oldest, free⟩)),
      fun h => congrArg _ (gongGrant_stays (not_grantable_of h))⟩
  case granted => exact fun _ _ => rfl
  case event =>
    intro n s hm hr hp
    have asks (held : Bool) : exec (.sourceEvent n held) s = .next (askEvent n held s) :=
      congrArg _ (sourceEvent_asks hm hr hp)
    refine ⟨?held, fun waits => ?queued, fun hq free => ?free⟩
    case held => rw [asks, askEvent_waits (.inl rfl)]
    case queued => rw [asks, askEvent_queued waits]
    case free => rw [asks, askEvent_free hm hq free]
  case wait => exact fun _ _ => ⟨rfl, rfl, rfl, rfl⟩
  case level =>
    intro k b held s hc hl hd
    have sees (held : Bool) : exec (.glitchFilterOutput k b held) s = .next (filteredLevel k b held s) :=
      congrArg _ (glitchFilterOutput_seen hc hl hd)
    refine ⟨fun hs => ?unsensed, fun hs waits => ?waits, fun hs hm hq free => ?stamped⟩
    case unsensed => rw [sees, filteredLevel_unsensed hl hs]; rfl
    case waits => rw [sees, filteredLevel_sensed hl hs, askEvent_waits (s := s.pinShows k b) waits]; rfl
    case stamped =>
      rw [sees, filteredLevel_sensed hl hs, askEvent_free (s := s.pinShows k b) hm hq free]; rfl
  case contended =>
    intro k b held s hc hl hd
    obtain ⟨l, sees⟩ := glitchFilterOutput_contended (held := held) hc hl hd
    exact ⟨l, congrArg _ sees⟩
  case same => exact fun _ _ _ _ h => filteredLevel_same h
  case latch => exact fun _ _ _ ha hc hl hs hp => congrArg _ (pinLatchCatch_first ha hc hl hs hp)
  case replay => exact fun _ hc hm => congrArg _ (pinLatchReplay_on hc hm)
  case replayOne =>
    intro k s hc hm hl hq free
    exact congrArg _ ((pinLatchReplay_one hc hm hl).trans (askEvent_free hm hq free))
  case unchanged => exact fun _ _ _ => congrArg _ (glitchFilterOutput_same rfl)

end Sys2Proof.Machine
end

section
/-!
PROOFS. The instructions of a tile that act on more than its registers: BAR (R327, R402), STAMP (R206, R328), SYS (R329)
and END (R330), and the settling of O38.
-/
namespace Sys2Proof.Machine

variable {i op k : Nat} {w v : Word} {x y : Tile} {d : Decl} {ds : List Decl} {st : BitVec 48} {j : Job}
  {held : Bool} {s : State}

/-! ## A tile that runs -/

theorem runs_pc_ne_last (h : s.Runs i op w) : (s.tile i).pc ≠ BitVec.allOnes 14 := by
  have before := h.next
  rintro last
  rw [last] at before
  exact absurd before (by decide)

theorem runs_guard (h : s.Runs i op w) : (s.tile i).ready = true ∧ wOp w = op := ⟨h.ready, h.op⟩

/-- What does not change the tiles leaves an instruction to run. -/
theorem runs_of_tile_eq {u : State} (h : s.Runs i op w) (e : u.tile i = s.tile i) : u.Runs i op w :=
  ⟨e ▸ h.ready, e ▸ h.word, h.op, e ▸ h.next⟩

@[simp] theorem tile_advance (s : State) (i : Nat) (y : Tile) :
    (s.advance i y).tile i = { y with pc := (s.tile i).pc + 1, wdog := 0 } := State.tile_setTile_same ..

/-- The job of a tile is known by its key. -/
theorem jobOf_setTile (h : y.job = (s.tile i).job) : (s.setTile i y).jobOf i = s.jobOf i := by
  rw [State.jobOf, State.tile_setTile_same, h]; rfl

/-! ## BAR (R327, R402, R403) -/

/-- A key whose entries a filter keeps is read as before. -/
theorem find_filter_of_keeps {α : Type} {d : α} {t : Tbl α} {n : Nat} {p : Nat × α → Bool} (h : ∀ a, p (n, a) = true) :
    Tbl.find d (t.filter p) n = Tbl.find d t n := by
  induction t with
  | nil => rfl
  | cons e t ih =>
    obtain ⟨m, a⟩ := e
    by_cases hm : m = n
    · subst hm; simp [h, Tbl.find]
    · cases hp : p (m, a) <;> simp [hp, Tbl.find, hm, ih]

theorem afterBar_scr_of_holds {l fresh : Nat} (h : d.holds (l / 64) = true) :
    (x.afterBar k d fresh).scr.find 0 l = x.scr.find 0 l :=
  find_filter_of_keeps fun _ => by simp [h]

theorem bar_done {fresh : Nat} (hk : wImm w < 65536) (hrd : wRd w = 0) (hrs : wRs1 w = 0) (hd : ds[wImm w]? = some d)
    (hb : x.mbox = []) (hx : x.xfers = []) : bar ds fresh w x = .done (x.afterBar (wImm w) d fresh) [] := by
  have field : wImm w % 65536 = wImm w := Nat.mod_eq_of_lt hk
  have clear : wImm w / 65536 = 0 := Nat.div_eq_of_lt hk
  simp [bar, field, clear, hrd, hrs, hd, hb, hx]

/-- A BAR of a job that is not asked to stop goes on to the next instruction. -/
theorem barStep_done {o : Tile} (h : s.Runs i 0x3B w) (hj : s.jobOf i = some j) (hp : j.phase ≠ .preempting)
    (ho : bar j.man.decls s.free w (s.tile i) = .done o []) (hjob : o.job = (s.tile i).job) :
    barStep i s = State.advance { s with free := s.free + 1 } i o := by
  let u : State := { s with free := s.free + 1 }
  have decls : (s.jobOf i).elim [] (·.man.decls) = j.man.decls := by rw [hj]; rfl
  have done : applyOut i (.done o []) u = u.advance i o :=
    (applyOut_done (runs_of_tile_eq (u := u) h rfl)).trans (countSats_nil i _)
  have job : (u.advance i o).jobOf i = some j := (jobOf_setTile (y := { o with pc := _, wdog := 0 }) hjob).trans hj
  have goes : ¬ (some j).any (fun j => decide (j.phase = .preempting)) = true := by simpa using hp
  simp only [barStep, h.word, if_pos (runs_guard h), decls, ho]
  rw [done, job, if_neg goes]

/-! ## STAMP (R206, R328) -/

theorem stampOut_legal (he : wRd w % 2 = 0) (h2 : 2 ≤ wRd w) (hi : wImm w = 0) (hr : wRs1 w = 0) : stampOut st w x =
    .done ((x.setReg (wRd w) (st.extractLsb' 0 36)).setReg (wRd w + 1) ((st.extractLsb' 36 12).zeroExtend 36)) [] :=
  if_neg (by simp [he, Nat.not_lt.2 h2, hi, hr])

section
variable (h : s.Runs i 0x3C w) (he : wRd w % 2 = 0) (h2 : 2 ≤ wRd w) (hi : wImm w = 0) (hr : wRs1 w = 0)
include h he h2 hi hr

theorem stampDue_of_runs : s.stampDue i = true := by
  simp [State.stampDue, h.ready, h.word, h.op, stampOut_legal he h2 hi hr]

theorem stampStep_of_runs : stampStep i s = takeStamp (s.advance i (((s.tile i).setReg (wRd w)
    (s.gng.next.extractLsb' 0 36)).setReg (wRd w + 1) ((s.gng.next.extractLsb' 36 12).zeroExtend 36))) := by
  simp only [stampStep, h.word, if_pos (runs_guard h), stampOut_legal he h2 hi hr, if_neg (runs_pc_ne_last h),
    applyOut_done h, countSats_nil]

theorem stampAsk_asks (hq : s.atPort (.stamp i) = []) : stampAsk i held s = askGong (.stamp i) held (stampStep i) s := by
  rw [stampAsk, stampDue_of_runs h he h2 hi hr, held_contains_of_atPort_nil hq]; rfl

end

/-! ## SYS and END (R329, R330) -/

theorem sys_selected (hr : wRs1 w = 0) (hv : sysValue i s x (wImm w) = some v) :
    sys i s w x = .done (x.setReg (wRd w) v) [] := by
  simp [sys, hr, hv]

theorem endStep_others (h : s.Runs i 0x3E w) (hw : w.toNat % 2 ^ 30 = 0) (hx : (s.tile i).xfers = [])
    (hj : s.jobOf i = some j)
    (ha : (s.setTile i { s.tile i with running := false, ended := true, wdog := 0 }).allEnded j = false) :
    endStep i s = s.setTile i { s.tile i with running := false, ended := true, wdog := 0 } := by
  have legal : ¬ fld w 0 30 ≠ 0 := not_not.2 ((fld_zero w 30).trans hw)
  have job := (jobOf_setTile (y := { s.tile i with running := false, ended := true, wdog := 0 }) rfl).trans hj
  have moved : ¬ (!(s.tile i).xfers.isEmpty) = true := by simp [hx]
  simp only [endStep, h.word, if_pos (runs_guard h), if_neg legal, if_neg moved, job, ha, Bool.false_eq_true, if_false]

/-- Settles O38: BAR, STAMP granted and held, SYS, and the END of a tile whose job goes on. -/
theorem tileControl : Obligations.TileControl := by
  refine ⟨?bar, ?stamp, ?sys, ?endTile⟩
  case bar =>
    intro i w j d s h hk hrd hrs hj hp hd hb hx
    refine ⟨_, congrArg Host.Outcome.next (barStep_done h hj hp (bar_done hk hrd hrs hd hb hx) rfl), ?_⟩
    simp only [tile_advance]
    exact ⟨rfl, rfl, rfl, rfl, rfl, rfl, rfl, rfl, fun _ hl => afterBar_scr_of_holds hl⟩
  case stamp =>
    intro i w s h he h2 hi hr hq
    refine ⟨fun free => ?granted, ?held⟩
    case granted =>
      have asks := (stampAsk_asks h he h2 hi hr hq).trans (askGong_free hq free)
      have passed := runs_of_tile_eq (u := gongPassed (gongPort (.stamp i)) s) h rfl
      exact congrArg _ (asks.trans (stampStep_of_runs passed he h2 hi hr))
    case held => exact congrArg _ ((stampAsk_asks h he h2 hi hr hq).trans askGong_held)
  case sys =>
    intro i w v s h hr hv
    have ran := (tileRun_of_runs h).trans (congrArg (applyOut i · s) (sys_selected hr hv))
    exact congrArg _ (ran.trans (applyOut_done h))
  case endTile => exact fun _ _ _ _ h hw hx hj ha => congrArg _ (endStep_others h hw hx hj ha)

end Sys2Proof.Machine
end

section
/-!
PROOFS. An event at its source, idle or not (R226, R227), and the settling of O22.
-/
namespace Sys2Proof.Machine

variable {n : Nat} {s : State}

/-- A counter that stops at its largest value counts up to it. -/
theorem satInc_toNat {w : Nat} (v : BitVec w) : (satInc v).toNat = min (2 ^ w - 1) (v.toNat + 1) := by
  have bound := v.isLt
  unfold satInc
  split
  · next full => rw [full, BitVec.toNat_allOnes]; omega
  · next below =>
    rw [← BitVec.toNat_inj, BitVec.toNat_allOnes] at below
    have room : v.toNat + 1 < 2 ^ w := by omega
    rw [BitVec.toNat_add, BitVec.ofNat_eq_ofNat, BitVec.toNat_ofNat, Nat.add_mod_mod, Nat.mod_eq_of_lt room]
    omega

theorem raise_src_idle (hp : (s.src n).pending = false) (ha : (s.src n).active = false) :
    (raise n s).src n = { s.src n with pending := true, stamp := s.gng.next } := by
  rw [raise_src, hp, ha]; rfl

/-- The event of a source that is pending or active is lost. -/
theorem raise_src_busy (h : (s.src n).pending = true ∨ (s.src n).active = true) : (raise n s).src n =
    { s.src n with lost := true, count := satInc (s.src n).count, stamp := s.gng.next } := by
  rw [raise_src, if_pos (by simpa using h)]

theorem raise_src_stamp (n : Nat) (s : State) : ((raise n s).src n).stamp = s.gng.next := by
  rw [raise_src]; split <;> rfl

/-- Settles O22: the stamp, the idle source, the source that is pending or active, and the other sources. -/
theorem eventOfASource : Obligations.EventOfASource := by
  intro n m s
  refine ⟨raise_gng n, raise_src_stamp n s, raise_src_idle, fun busy => ?lost, raise_src_other n m⟩
  case lost => rw [raise_src_busy busy]; exact ⟨rfl, rfl, rfl, satInc_toNat _⟩

end Sys2Proof.Machine
end

section
/-!
PROOFS. The registers of a source (R224, R228, R245), its path to a core or to the host (R223, R234, R243, R248), the
claim and the end (R239, Tables 8-2 and 8-3), and the settling of O24.
-/
namespace Sys2Proof.Machine

variable {q : Requester} {c n w : Nat} {v : BitVec 32} {s : State}

/-! ## The registers of a source (R206, R224, R228, R245) -/

theorem Src.write_same_route {x : Src} (ht : x.target = v.extractLsb' 15 3) (hv : x.vector = v.extractLsb' 18 6)
    (hs : x.sense = v.extractLsb' 12 3) :
    x.write v = { x with priority := v.extractLsb' 24 8, wake := bit v 11, mask := bit v 10 } := by
  simp only [Src.write, fldv, ← ht, ← hv, ← hs]

/-- A source that is not presented, and whose target, vector and sense stay, takes the other fields. -/
theorem srcWrite_same_route (ha : (s.src n).active = false) (hp : (s.src n).presented = false)
    (ht : (s.src n).target = v.extractLsb' 15 3) (hv : (s.src n).vector = v.extractLsb' 18 6)
    (hs : (s.src n).sense = v.extractLsb' 12 3) : srcWrite n v false s = s.setSrc n { s.src n with
      priority := v.extractLsb' 24 8, wake := bit v 11, mask := bit v 10 } := by
  simp [srcWrite, Src.write_same_route ht hv hs, ha, hp]

theorem lostClear_one (h : bit v 31 = true) :
    lostClear n v s = s.setSrc n { s.src n with lost := false, count := 0 } := if_pos h

theorem filter_bit_ofNat_two_pow (j : Fin 32) :
    (List.range 32).filter (fun i => bit (BitVec.ofNat 32 (2 ^ j.val)) i) = [j.val] := by
  revert j; decide

theorem swset_one (w : Nat) (j : Fin 32) (s : State) :
    swset w (BitVec.ofNat 32 (2 ^ j.val)) s = raise (32 * w + j) s := by
  rw [swset, filter_bit_ofNat_two_pow, forEachAny_singleton]

/-! ## The commit of a selection (R223, R234, R243, R248) -/

/-- A source that goes to a bell core sends no message. -/
theorem hostReady_of_target_lt (h : (s.src n).target.toNat < 4) : s.hostReady n = false := by
  have core : (s.src n).target ≠ 4 := fun host => absurd h (by rw [host]; decide)
  simp only [State.hostReady, decide_eq_false core, Bool.and_false, Bool.false_and]

theorem sourceCommit_selected (hm : s.on domMGT = true) (hr : s.boot.stage = .running)
    (ht : (s.src n).target.toNat < 4) (hs : s.selected n = true) :
    sourceCommit n s = s.setSrc n { s.src n with presented := true, committing := false } := by
  simp [sourceCommit, hm, hostReady_of_target_lt ht, hr, hs]

theorem sourceCommit_host (hm : s.on domMGT = true) (hh : s.hostReady n = true) (hk : (s.src n).mask = false) :
    sourceCommit n s =
      fireMsix 0 (s.src n).vector.toNat (s.setSrc n { s.src n with pending := false, committing := false }) := by
  simp [sourceCommit, hm, hh, hk]

theorem presentNext_first {x : Src} (hr : s.boot.stage = .running)
    (hf : s.car.srcs.find? (fun e => e.2.target.toNat == c && s.selected e.1) = some (n, x)) :
    presentNext c s = s.setSrc n { x with presented := true } := by
  rw [presentNext, if_neg (not_not.2 hr), hf]

/-! ## Claim and done (R239, R247, Tables 8-2 and 8-3) -/

theorem ownCore_self (c : Fin 4) : ownCore (.core c) c = true := beq_self_eq_true c.val

theorem ownCore_other {c : Fin 4} (h : ∀ d : Fin 4, q = .core d → d ≠ c) : ownCore q c = false := by
  cases q with
  | core d => exact beq_eq_false_iff_ne.2 fun same => h d rfl (Fin.ext same)
  | fn | smbus => rfl

/-- A group without a hold-off time holds nothing off. -/
theorem holdOff_zero {g : Nat} (h : s.car.holdoff.find 0 g = 0) : holdOff g s = s := if_pos h

/-- The card once core c has claimed source n, which is then active there with the priority that it has (R236). -/
def State.afterClaim (s : State) (c n : Nat) : State :=
  (s.setSrc n { s.src n with presented := false, pending := false, active := true }).setClaimed c
    ((n, (s.src n).priority.toNat) :: s.claimed c)

theorem claim_presented (hp : s.presentedTo c = some n) (hh : s.car.holdoff.find 0 (sourceGroup n) = 0) :
    claim c s = (BitVec.ofNat 32 (n + 1), presentNext c (s.afterClaim c n)) := by
  have free : holdOff (sourceGroup n) (s.afterClaim c n) = s.afterClaim c n := holdOff_zero hh
  simp only [claim, hp]
  exact congrArg (fun u => (BitVec.ofNat 32 (n + 1), presentNext c u)) free

theorem claim_none (hp : s.presentedTo c = none) : claim c s = (0, s) := by
  simp only [claim, hp]

theorem claimRead_own (h : ownCore q c = true) : claimRead q c s = claim c s := if_pos h

theorem claimRead_other (h : ownCore q c = false) :
    claimRead q c s = (0, regError q (baseCAR + 0x4000 + 0x10 * c) s) := if_neg (Bool.eq_false_iff.1 h)

theorem done_claimed (h : ownCore q c = true) (hc : (s.claimed c).any (fun x => x.1 == fld v 0 9) = true) :
    done q c v s = presentNext c (endActive (fld v 0 9)
      (s.setClaimed c ((s.claimed c).filter (fun x => x.1 != fld v 0 9)))) := if_pos ⟨h, hc⟩

theorem done_other (h : ownCore q c = false) : done q c v s = regError q (baseCAR + 0x4004 + 0x10 * c) s :=
  if_neg fun own => Bool.eq_false_iff.1 h own.1

/-! ## The commands -/

theorem exec_carSrcWrite_go {n : Fin 512} {inWindow : Bool} (h : access q (.blk (baseCAR + 4 * n)) true s = .go) :
    exec (.carSrcWrite q n v inWindow) s = .next (srcWrite n v inWindow s) := congrArg _ (regWrite_go h)

theorem exec_carSwset_go {w : Fin 16} (h : access q (.blk (baseCAR + 0x800 + 4 * w)) true s = .go) :
    exec (.carSwset q w v) s = .next (swset w v s) := congrArg _ (regWrite_go h)

theorem exec_carLostClear_go {n : Fin 512} (h : access q (.blk (baseCAR + 0x1000 + 4 * n)) true s = .go) :
    exec (.carLostClear q n v) s = .next (lostClear n v s) := congrArg _ (regWrite_go h)

theorem exec_carStampRead_go {n : Fin 512} (h : access q (.blk (baseCAR + 0x2000 + 8 * n)) false s = .go) :
    exec (.carStampRead q n) s =
      .next { s.setSrc n { s.src n with stampHi := (s.src n).stamp.extractLsb' 32 16 } with
        rdata := ((s.src n).stamp.extractLsb' 0 32).zeroExtend 64 } := congrArg _ (regRead_go h)

theorem exec_carClaim_go {c : Fin 4} {x : Reg × State}
    (h : access q (.blk (baseCAR + 0x4000 + 0x10 * c)) false s = .go) (hx : claimRead q c s = x) :
    exec (.carClaim q c) s = .next { x.2 with rdata := x.1.zeroExtend 64 } := by
  subst hx; exact congrArg _ (regRead_go h)

theorem exec_carDone_go {c : Fin 4} (h : access q (.blk (baseCAR + 0x4004 + 0x10 * c)) true s = .go) :
    exec (.carDone q c v) s = .next (done q c v s) := congrArg _ (regWrite_go h)

/-- Settles O24: the fields of CAR_SRCn, the commit to a core and to the host, the claim of a source and of none, the
end and what is presented next, the software event, the lost events, the stamp and the hold-off; then the accesses of
another requester. -/
theorem sourcesAndClaims : Obligations.SourcesAndClaims := by
  refine ⟨⟨?write, ?commit, ?host, ?claim, ?claimNone, ?done, ?next, ?software, ?lost, ?stamp, fun _ _ => rfl⟩, ?others⟩
  case write => exact fun _ _ _ _ h ha hp ht hv hs =>
    (exec_carSrcWrite_go h).trans (congrArg _ (srcWrite_same_route ha hp ht hv hs))
  case commit => exact fun _ _ hm hr ht hs => congrArg _ (sourceCommit_selected hm hr ht hs)
  case host => exact fun _ _ hm hh hk => congrArg _ (sourceCommit_host hm hh hk)
  case claim => exact fun c _ _ h hp hh =>
    exec_carClaim_go h ((claimRead_own (ownCore_self c)).trans (claim_presented hp hh))
  case claimNone => exact fun c _ h hp => exec_carClaim_go h ((claimRead_own (ownCore_self c)).trans (claim_none hp))
  case done => exact fun c _ _ h hc => (exec_carDone_go h).trans (congrArg _ (done_claimed (ownCore_self c) hc))
  case next => exact fun _ _ _ => presentNext_first
  case software => exact fun _ w j s h => (exec_carSwset_go h).trans (congrArg _ (swset_one w j s))
  case lost => exact fun _ _ _ _ h hl => (exec_carLostClear_go h).trans (congrArg _ (lostClear_one hl))
  case stamp => exact fun _ _ _ => exec_carStampRead_go
  case others => exact fun _ _ _ _ hq =>
    ⟨fun h => exec_carClaim_go h (claimRead_other (ownCore_other hq)),
      fun h => (exec_carDone_go h).trans (congrArg _ (done_other (ownCore_other hq)))⟩

end Sys2Proof.Machine
end

section
/-!
PROOFS. The firing of an entry, blocked, held and sent (R250, R254, R256), the coalescing of a completion ring (R251,
R253), the end of L1 (R254), PF0's PME fields (R257), and the settling of O26.
-/
namespace Sys2Proof.Machine

variable {t e r : Nat} {v : BitVec 32} {s : State}

/-! ## One firing of an entry (R250, R254, R256) -/

theorem sendMsix_held (h : s.hif.l1 = true ∨ s.pwr.dstate ≠ .d0) :
    sendMsix t e s = { s with hif := { s.hif with heldMsix := s.hif.heldMsix ++ [(t, e)] } } := if_pos h

theorem sendMsix_sent (h1 : s.hif.l1 = false) (hd : s.pwr.dstate = .d0) : sendMsix t e s = s.emit (.msix t e) :=
  if_neg (by simp [h1, hd])

theorem fireMsix_blocked (h : (s.func t).blocked e = true) :
    fireMsix t e s = s.setFunc t { s.func t with pba := setBit (s.func t).pba e true } := if_pos h

theorem fireMsix_unblocked (h : (s.func t).blocked e = false) : fireMsix t e s = sendMsix t e s :=
  if_neg (Bool.eq_false_iff.1 h)

/-- An entry that nothing blocks any more sends what its pending bit kept. -/
theorem msixUnblock_sends (hx : s.tenantExists t = true) (hp : bit (s.func t).pba e = true)
    (hb : (s.func t).blocked e = false) (hd : s.pwr.dstate = .d0) :
    msixUnblock t e s = sendMsix t e (s.setFunc t { s.func t with pba := setBit (s.func t).pba e false }) :=
  if_pos ⟨hx, hp, by simp [hb], hd⟩

/-! ## The end of L1 (R254) -/

theorem forEach_emit {α : Type} (l : List α) (f : α → LinkOp) (s : State) :
    forEach l (fun a s => s.emit (f a)) s = { s with out := s.out ++ l.map f } := by
  unfold forEach
  induction l generalizing s with
  | nil => simp
  | cons a l ih => exact (ih (s.emit (f a))).trans (by simp [State.emit])

theorem sendHeld_sends (h1 : s.hif.l1 = false) (hd : s.pwr.dstate = .d0) : sendHeld s = { s with
    hif := { s.hif with heldMsix := [] }, out := s.out ++ s.hif.heldMsix.map (fun m => .msix m.1 m.2) } := by
  rw [sendHeld, if_neg (by simp [h1, hd]), forEach_emit]

/-- Outside D0 what is held stays held. -/
theorem sendHeld_waits (hd : s.pwr.dstate ≠ .d0) : sendHeld s = s := if_pos (.inr hd)

theorem l1Exit_l1 (h : s.hif.l1 = true) : l1Exit s = sendHeld { s with hif := { s.hif with l1 := false } } := if_pos h

/-! ## Coalescing (R251, R253, R255) -/

theorem coalesceTimer_uncovered (h : (s.ring t r).uncovered ≠ 0) : coalesceTimer t r s = fireCq t r s := if_neg h

/-- What a write of TPG_COALr sets: a T of 0 is 1. -/
def coalOf (v : BitVec 32) : Coal where
  timeUs := if v.toNat / 65536 % 65536 = 0 then 1 else v.extractLsb' 16 16
  countM1 := v.extractLsb' 8 8
  wake := bit v 0

/-- With every completion covered a write of TPG_COALr fires nothing. -/
theorem coalWrite_covered (timeMet : Bool) (h : (s.ring t r).uncovered = 0) :
    coalWrite t r v timeMet s = s.setRing t r { s.ring t r with coal := coalOf v, copy := coalOf v } :=
  if_neg fun ⟨uncovered, _⟩ => uncovered h

/-! ## PF0's PME fields (R233, R257) -/

theorem latchWake_none (h : s.car.latches = 0) : latchWake s = s := by
  simp [latchWake, h, bit]

theorem pmeConfig_up {clear en : Bool} (hl : s.hif.linkUp = true) (hf : (s.func 0).flrBusy = false) :
    pmeConfig clear en s =
      latchWake { s with hif := { s.hif with pmeStatus := s.hif.pmeStatus && !clear, pmeEn := en } } :=
  if_neg (by simp [hl, hf])

/-! ## The commands -/

theorem exec_coalWrite_go {q : Requester} {t : Fin 64} {r : Fin 8} {timeMet : Bool}
    (h : access q (.tpg t (0x400 + 8 * r)) true s = .go) :
    exec (.coalWrite q t r v timeMet) s = .next (coalWrite t r v timeMet s) := congrArg _ (regWrite_go h)

/-- Settles O26: the timer and the write of a completion ring, the unblocked entry, the end of L1 and the PME fields;
then one firing of an entry. -/
theorem completionInterrupts : Obligations.CompletionInterrupts := by
  refine ⟨⟨?timer, ?write, ?unblock, ?exit, ?pme⟩, ?firing⟩
  case timer => exact fun _ _ _ h => congrArg _ (coalesceTimer_uncovered h)
  case write => exact fun _ _ _ _ timeMet _ h hu =>
    (exec_coalWrite_go h).trans (congrArg _ (coalWrite_covered timeMet hu))
  case unblock =>
    exact fun _ _ _ hx hp hb hd h1 => congrArg _ ((msixUnblock_sends hx hp hb hd).trans (sendMsix_sent h1 hd))
  case exit => exact fun _ h =>
    ⟨fun hd => congrArg _ ((l1Exit_l1 h).trans (sendHeld_sends rfl hd)),
      fun hd => congrArg _ ((l1Exit_l1 h).trans (sendHeld_waits hd))⟩
  case pme => exact fun _ _ _ hl hf hc => congrArg _ ((pmeConfig_up hl hf).trans (latchWake_none hc))
  case firing => exact fun _ _ _ =>
    ⟨fireMsix_blocked, fun hb h => (fireMsix_unblocked hb).trans (sendMsix_held h),
      fun hb h1 hd => (fireMsix_unblocked hb).trans (sendMsix_sent h1 hd)⟩

end Sys2Proof.Machine
end

section
/-!
PROOFS. The grid's commands: the choke of a port (R290, R292, R293), the rate window and the fence count (R285, R295),
the watchdog and the fault of a tile (R297, R299, R332), and the settling of O27.
-/
namespace Sys2Proof.Machine

variable {q : Requester} {c : Fin 4} {v : BitVec 32} {i m code info : Nat} {s : State}

/-! ## The choke (R290, R292, R293) -/

/-- Where no path is held through the port there is nothing to tear down. -/
theorem chokePort_unheld (hp : fld v 10 3 ≤ 5)
    (hm : ∀ m ∈ s.grd.msgs, m.ports.contains (fld v 0 10, fld v 10 3) = false) :
    chokePort v s = { s with grd := { s.grd with chokeBusy := true } } := by
  have unheld : s.grd.msgs.zipIdx.filter (fun m => m.1.ports.contains (fld v 0 10, fld v 10 3)) = [] :=
    List.filter_eq_nil_iff.2 fun e he => Bool.eq_false_iff.1 (hm e.1 (List.fst_mem_of_mem_zipIdx he))
  rw [chokePort, if_neg (Nat.not_lt.2 hp), unheld]; rfl

theorem chokeWrite_idle (h : s.grd.chokeBusy = false) : chokeWrite (.core c) v s = chokePort v s :=
  if_neg (Bool.eq_false_iff.1 h)

theorem chokeWrite_busy (h : s.grd.chokeBusy = true) : chokeWrite (.core c) v s = regError (.core c) baseGRD s :=
  if_pos h

/-! ## The rate window and the pace (R294, R295) -/

theorem qrateUpdate_qrate (d : Nat) (s : State) : (qrateUpdate d s).grd.qrate.find {} d =
    { tiles := BitVec.ofNat 16 (s.windowPaces d).length
      mhs := BitVec.ofNat 16 ((s.windowPaces d).sum / (1000 * (s.windowPaces d).length)) } :=
  Tbl.find_put_same ..

theorem paceLo_on (h : s.on (domGRID (quadrant i)) = true) : paceLo i s = ((s.tile i).pace.extractLsb' 0 32,
    s.setTile i { s.tile i with paceHi := (s.tile i).pace.extractLsb' 32 16 }) := by
  simp only [paceLo, if_pos h]

/-! ## The watchdog and the fault of a tile (R297, R299, R332) -/

theorem watchdogExpire_due (hr : (s.tile i).running = true) (hw : s.grd.wdogLimit.toNat ≤ (s.tile i).wdog.toNat) :
    watchdogExpire i s = tileFault i 1 (s.tile i).pc.toNat s := if_pos ⟨hr, hw⟩

/-- A tile that has stopped with a fault code. -/
def Tile.stopped (x : Tile) (code : Nat) : Tile := { x with fault := BitVec.ofNat 8 code, running := false }

/-- Without a job the fault of a tile changes nothing of the grid but that tile. -/
theorem tileFault_grd (h : (s.tile i).job = none) :
    (tileFault i code info s).grd = (s.setTile i ((s.tile i).stopped code)).grd := by
  simp only [tileFault, h, raise_grd, countFlt_grd, Tile.stopped]
  split <;> rfl

theorem tileFault_tile (h : (s.tile i).job = none) :
    (tileFault i code info s).tile m = if m = i then (s.tile i).stopped code else s.tile m := by
  rw [State.tile, tileFault_grd h]; exact State.tile_setTile ..

/-! ## The commands -/

theorem exec_grdChokeWrite_go (h : access q (.blk baseGRD) true s = .go) :
    exec (.grdChokeWrite q v) s = .next (chokeWrite q v s) := congrArg _ (regWrite_go h)

theorem exec_qrateUpdate_on {d : Fin 4} (h : s.on domMGT = true) :
    exec (.qrateUpdate d) s = .next (qrateUpdate d s) := congrArg _ (if_pos h)

theorem exec_paceRead_go {i : Fin 1024} {x : Reg × State} (h : access q (.blk (tileReg i 0x8)) false s = .go)
    (hx : paceLo i s = x) : exec (.paceRead q i) s = .next { x.2 with rdata := x.1.zeroExtend 64 } := by
  subst hx; exact congrArg _ (regRead_go h)

theorem exec_fenceStatRead_go (h : access q (.blk (baseGRD + 0x30)) false s = .go) :
    exec (.fenceStatRead q) s =
      .next { (fenceStat s).2 with rdata := (fenceStat s).1.zeroExtend 64 } := congrArg _ (regRead_go h)

/-- Settles O27: the choke, taken, turned away and complete; the watchdog, the rate window, the pace and the fence
count; then the fault of a tile without a job. -/
theorem gridCommands : Obligations.GridCommands := by
  refine ⟨⟨?choke, ?busy, fun _ => rfl, ?watchdog, ?rate, ?pace, ?fence⟩, ?fault⟩
  case choke => exact fun _ _ _ h hb hp hm =>
    (exec_grdChokeWrite_go h).trans (congrArg _ ((chokeWrite_idle hb).trans (chokePort_unheld hp hm)))
  case busy => exact fun _ _ _ h hb => (exec_grdChokeWrite_go h).trans (congrArg _ (chokeWrite_busy hb))
  case watchdog => exact fun _ _ hr hw => congrArg _ (watchdogExpire_due hr hw)
  case rate => exact fun d s h => ⟨_, exec_qrateUpdate_on h, qrateUpdate_qrate d s, rfl, rfl, rfl⟩
  case pace => exact fun _ _ _ h hd => exec_paceRead_go h (paceLo_on hd)
  case fence => exact fun _ _ => exec_fenceStatRead_go
  case fault =>
    intro i code info s _ hj
    have own : (tileFault i code info s).tile i = (s.tile i).stopped code := (tileFault_tile hj).trans (if_pos rfl)
    rw [own]
    exact ⟨rfl, rfl, rfl, fun m hm => (tileFault_tile hj).trans (if_neg hm)⟩

end Sys2Proof.Machine
end

section
/-!
PROOFS. Messages: SEND and its end (R291, R321), the instructions of a mailbox (R322 to R324), a message at its
destination, accepted (R277 to R279, R326) or discarded by the fence (R285), and the settling of O37.
-/
namespace Sys2Proof.Machine

variable {i op m base size : Nat} {w : Word} {x : Tile} {b : Mailbox} {y : Msg} {rd : BitVec 5}
  {f : Word → Tile → TileOut} {s : State}

/-! ## SEND (R291, R321) -/

/-- A tile whose SEND has begun. -/
def Tile.sends (x : Tile) (rd : Nat) : Tile :=
  { x with sending := some (BitVec.ofNat 5 rd), choked := false, wdog := 0 }

theorem send_enters (h : s.Runs i 0x36 w) (ho : sendOut i s w (s.tile i) = .inr y) : send i s =
    { s.setTile i ((s.tile i).sends (wRd w)) with
      grd := { (s.setTile i ((s.tile i).sends (wRd w))).grd with msgs := s.grd.msgs ++ [y] } } := by
  simp only [send, h.word, if_pos (runs_guard h), ho]; rfl

/-- A tile whose SEND has ended with r. -/
def Tile.sent (x : Tile) (rd : BitVec 5) : Tile :=
  { x.setReg rd.toNat (if x.choked then 1 else 0) with sending := none, choked := false, pc := x.pc + 1, wdog := 0 }

theorem sendDone_ends (hr : (s.tile i).sending = some rd) (hl : (s.tile i).choked = true ∨ s.allLeft i = true) :
    sendDone i s = { s.setTile i ((s.tile i).sent rd) with
      grd := { (s.setTile i ((s.tile i).sent rd)).grd with
        msgs := s.grd.msgs.map (fun m => if m.src = i ∧ !m.inward then { m with left := true } else m) } } := by
  have ended : ¬ ((!(s.tile i).choked) = true ∧ (!s.allLeft i) = true) := by simpa [imp_iff_not_or] using hl
  simp only [sendDone, hr, if_neg ended]; rfl

/-! ## The instructions of a mailbox (R322 to R324) -/

/-- The mailbox of a tile once its oldest message is released. -/
def Mailbox.popped (b : Mailbox) (x : Tile) : Mailbox :=
  { b with cons := b.cons + BitVec.ofNat 32 (hdrLength (laneOf (x.scratch (8 * b.headLane) 8)) + 1) }

/-- A mailbox once n lanes are written into it. -/
def Mailbox.filled (b : Mailbox) (n : Nat) : Mailbox := { b with prod := b.prod + BitVec.ofNat 32 n }

/-- A mailbox as MBCFG leaves it. -/
def Mailbox.configured (base size : Nat) : Mailbox :=
  { base := BitVec.ofNat 15 base, size := BitVec.ofNat 16 size, prod := 0, cons := 0 }

theorem boxField_legal (hm : wImm w < 16) (hr : wRs1 w = 0) : boxField w = some (wImm w) :=
  if_neg (by simp [Nat.div_eq_of_lt hm, hr])

section
variable (hm : wImm w < 16) (hr : wRs1 w = 0) (hb : x.box (wImm w) = b)
include hm hr hb

theorem recv_waiting (hs : b.size ≠ 0) (he : b.prod = b.cons) : recv w x = .wait := by
  simp only [recv, boxField_legal hm hr, hb, if_neg hs, if_pos he]

theorem recv_header (hs : b.size ≠ 0) (hn : b.prod ≠ b.cons) :
    recv w x = .done (x.setReg (wRd w) (BitVec.ofNat 36 (8 * b.headLane))) [] := by
  simp only [recv, boxField_legal hm hr, hb, if_neg hs, if_neg hn]

theorem mbpop_releases (hs : b.size ≠ 0) (hn : b.prod ≠ b.cons)
    (ha : x.Allows [{ write := false, addr := 8 * b.headLane, n := 8 }]) :
    mbpop w x = .done (x.setBox (wImm w) (b.popped x)) [] := by
  simp only [mbpop, boxField_legal hm hr, hb, if_neg (not_or.2 ⟨hs, hn⟩), access_of_allows ha]; rfl

theorem mbstat_used : mbstat w x = .done (x.setReg (wRd w) (BitVec.ofNat 36 b.used)) [] := by
  simp only [mbstat, boxField_legal hm hr, hb]

end

/-- A mailbox that is closed, and whose new region meets no open mailbox, is configured. -/
theorem mbcfg_configures (hf : wFn w = 0) (hd : wRd w ≤ 15) (h1 : (x.reg (wRs1 w)).toNat = base)
    (h2 : (x.reg (wRs2 w)).toNat = size) (hs : (x.box (wRd w)).size = 0) (hb : base + size ≤ 32768)
    (hx : ∀ e ∈ x.mbox, e.1 = wRd w ∨ e.2.size = 0 ∨ base + size ≤ e.2.base.toNat ∨
      e.2.base.toNat + e.2.size.toNat ≤ base) :
    mbcfg w x = .done (x.setBox (wRd w) (.configured base size)) [] := by
  have apart : x.mbox.any (fun e => decide (e.1 ≠ wRd w) && decide (e.2.size ≠ 0) && decide (size ≠ 0)
      && decide (base < e.2.base.toNat + e.2.size.toNat) && decide (e.2.base.toNat < base + size)) = false := by
    rw [List.any_eq_false]
    intro e he meets
    simp only [Bool.and_eq_true, decide_eq_true_eq] at meets
    obtain ⟨⟨⟨⟨other, opened⟩, -⟩, above⟩, below⟩ := meets
    rcases hx e he with same | closed | before | behind
    · exact other same
    · exact opened closed
    · omega
    · omega
  subst h1 h2
  rw [mbcfg, if_neg (by omega), if_neg]
  · rfl
  · rintro (⟨opened, -⟩ | outside | meets)
    · exact opened hs
    · omega
    · exact Bool.eq_false_iff.1 apart meets

/-- An instruction that is done goes on to the next one. -/
theorem tileRun_done {y : Tile} (h : s.Runs i op w) (hd : f w (s.tile i) = .done y []) :
    tileRun op i f s = s.advance i y := by
  rw [tileRun_of_runs h, hd, applyOut_done h, countSats_nil]

theorem tileRun_wait (h : s.Runs i op w) (hw : f w (s.tile i) = .wait) : tileRun op i f s = s := by
  rw [tileRun_of_runs h, hw]; rfl

/-! ## A message at its destination (R275, R277 to R279, R285, R326) -/

section
variable (hy : s.grd.msgs[m]? = some y) (ho : y.outward = false) (ha : y.arrived = true)
  (hf : (s.grd.msgs.take m).any (Msg.samePair y) = false)
include ho ha hf

/-- A message of this card whose header has arrived, and that is the first of its pair, does not wait. -/
theorem message_due : ¬ (y.outward || !y.arrived || (s.grd.msgs.take m).any (Msg.samePair y)) = true := by
  simp [ho, ha, hf]

include hy

theorem messageAccept_fenced (ht : (s.tile y.dst).tag = 0 ∨ (s.tile y.dst).tag ≠ y.tag) :
    messageAccept m s = fenceDiscard y (dropMsg m s) := by
  simp only [messageAccept, hy, if_neg (message_due ho ha hf), if_pos ht]

theorem messageAccept_written (h0 : (s.tile y.dst).tag ≠ 0) (ht : (s.tile y.dst).tag = y.tag)
    (hb : (s.tile y.dst).box y.mailbox.toNat = b) (hs : b.size ≠ 0) (hr : y.lanes.length + b.used ≤ b.size.toNat) :
    messageAccept m s = (dropMsg m s).setTile y.dst
      ((writeRing b 0 y.lanes (s.tile y.dst)).setBox y.mailbox.toNat (b.filled y.lanes.length)) := by
  have passes : ¬ ((s.tile y.dst).tag = 0 ∨ (s.tile y.dst).tag ≠ y.tag) := not_or.2 ⟨h0, not_not.2 ht⟩
  have fits : ¬ b.size.toNat < y.lanes.length := by omega
  have room : ¬ b.size.toNat - b.used < y.lanes.length := by omega
  simp only [messageAccept, hy, if_neg (message_due ho ha hf), hb, if_neg passes, if_neg hs, if_neg fits, if_neg room]
  rfl

end

/-- Settles O37: SEND and its end, the instructions of a mailbox, and a message accepted; then the fence. -/
theorem tileMessages : Obligations.TileMessages := by
  refine ⟨⟨?send, ?sendDone, ?boxes, ?mbcfg, ?accept⟩, ?fence⟩
  case send => exact fun _ _ _ _ h ho => congrArg _ (send_enters h ho)
  case sendDone =>
    intro i rd s hr hl
    exact ⟨_, congrArg Host.Outcome.next (sendDone_ends hr hl), State.tile_setTile_same .., List.length_map ..⟩
  case boxes =>
    intro i w s hm hr
    refine ⟨?header, ?waiting, ?pop, ?stat⟩
    case header => exact fun h hs hn => congrArg _ (tileRun_done h (recv_header hm hr rfl hs hn))
    case waiting => exact fun h hs he => congrArg _ (tileRun_wait h (recv_waiting hm hr rfl hs he))
    case pop => exact fun h hs hn ha => congrArg _ (tileRun_done h (mbpop_releases hm hr rfl hs hn ha))
    case stat => exact fun h => congrArg _ (tileRun_done h (mbstat_used hm hr rfl))
  case mbcfg =>
    exact fun _ _ _ h hf hd hs hb hx => congrArg _ (tileRun_done h (mbcfg_configures hf hd rfl rfl hs hb hx))
  case accept =>
    exact fun _ _ _ hy ho ha hf h0 ht hs hr => congrArg _ (messageAccept_written hy ho ha hf h0 ht rfl hs hr)
  case fence => exact fun _ _ _ hy ho ha hf ht => congrArg _ (messageAccept_fenced hy ho ha hf ht)

end Sys2Proof.Machine
end

section
/-!
PROOFS. Device memory: the patrol of a beat without error (R365), the keyed fence command (R366, R593), the error
counts (R363, R364) and a stack that has cooled (R370), and the settling of O28.
-/
namespace Sys2Proof.Machine

variable {k : Fin 4} {q : Requester} {v : BitVec 32} {s : State}

/-! ## The patrol (R365) -/

/-- A beat without error is read and nothing changes. -/
theorem readBeat_clean {a : Nat} (h : s.beat a = none) : readBeat a s = (true, s) := by simp only [readBeat, h]

theorem patrol_clean {k : Nat} (hon : s.on (domMEM k) = true) (hd : s.pwr.dstate = .d0) (hh : s.dramHeld k = false)
    (hb : s.beat (k * stackBytes + (s.stack k).patrol) = none) : patrol k none s =
      s.setStack k { s.stack k with patrol := ((s.stack k).patrol + 8) % stackBytes } := by
  have runs : s.on (domMEM k) = true ∧ s.pwr.dstate = .d0 ∧ (!s.dramHeld k) = true := ⟨hon, hd, by simp [hh]⟩
  simp only [patrol, if_pos runs, readBeat_clean hb]

/-! ## The fence command (R366, R593) -/

/-- A low field that holds a power of two has that bit alone. -/
theorem bit_of_fld_two_pow {n w i j : Nat} {v : BitVec n} (h : fld v 0 w = 2 ^ i) (hj : j < w) :
    bit v j = decide (i = j) := by
  have low : v.toNat % 2 ^ w = 2 ^ i := (fld_zero v w).symm.trans h
  calc bit v j = (v.toNat % 2 ^ w).testBit j := by simp [bit, BitVec.getLsbD, Nat.testBit_mod_two_pow, hj]
    _ = decide (i = j) := by rw [low, Nat.testBit_two_pow]

theorem filter_stack_eq (k : Fin 4) : [0, 1, 2, 3].filter (fun j => decide (k.val = j)) = [k.val] := by
  revert k; decide

theorem fenced_stacks_of_one (h : fld v 0 4 = 2 ^ k.val) : [0, 1, 2, 3].filter (fun j => bit v j) = [k.val] := by
  have named : ∀ j < 4, bit v j = decide (k.val = j) := fun j hj => bit_of_fld_two_pow h hj
  calc [0, 1, 2, 3].filter (fun j => bit v j) = [0, 1, 2, 3].filter (fun j => decide (k.val = j)) :=
        List.filter_congr fun j hj => named j (List.mem_range.1 hj)
    _ = [k.val] := filter_stack_eq k

theorem fenceCmd_one (hk : keyed v = true) (h : fld v 0 4 = 2 ^ k.val) :
    fenceCmd q v s = fence k causeCommand s := by
  rw [fenceCmd, if_pos hk, fenced_stacks_of_one h]; rfl

/-! ## A stack that has cooled (R370) -/

theorem stackCool_due {k : Nat} (hh : (s.stack k).hot = true) (hc : 100 ≤ (s.stack k).cool) :
    stackCool k s = rescaleStack k (s.setStack k { s.stack k with hot := false, cool := 0 }) := if_pos ⟨hh, hc⟩

/-! ## The commands -/

theorem exec_memFenceCmd_go (h : access q (.blk (baseMEM + 0x80)) true s = .go) :
    exec (.memFenceCmd q v) s = .next (fenceCmd q v s) := congrArg _ (regWriteOr_go h)

theorem exec_memCeRead_go (h : access q (.blk (baseMEM + 0x50 + 4 * k)) false s = .go) :
    exec (.memCeRead q k) s = .next { s.setStack k { s.stack k with ce := 0 } with
      rdata := (s.stack k).ce.zeroExtend 64 } := congrArg _ (regRead_go h)

theorem exec_memUeRead_go (h : access q (.blk (baseMEM + 0x60 + 4 * k)) false s = .go) :
    exec (.memUeRead q k) s = .next { s.setStack k { s.stack k with ue := 0 } with
      rdata := (s.stack k).ue.zeroExtend 64 } := congrArg _ (regRead_go h)

/-- Settles O28: the patrol of a clean beat, the keyed fence of one stack, the counts read and cleared, and a stack
that has cooled. -/
theorem memoryCommands : Obligations.MemoryCommands := by
  refine ⟨?patrol, ?fence, ?ce, ?ue, ?cool⟩
  case patrol => exact fun _ _ hon hd hh hb => congrArg _ (patrol_clean hon hd hh hb)
  case fence => exact fun _ _ _ _ h hk hf => (exec_memFenceCmd_go h).trans (congrArg _ (fenceCmd_one hk hf))
  case ce => exact fun _ _ _ => exec_memCeRead_go
  case ue => exact fun _ _ _ => exec_memUeRead_go
  case cool => exact fun _ _ hh hc => congrArg _ (stackCool_due hh hc)

end Sys2Proof.Machine
end

section
/-!
PROOFS. The scheduler's commands on a job: no step of placing a job brings another job into the queue, so that one
waiting job is placed once (R392, R397); pre-emption, spill and restore (R398, R407 to R411); the output stage and the
end of a job (R394, R395, R400); and the settling of O40.
-/
namespace Sys2Proof.Machine

variable {s t u : State} {j : Job} {id o : Nat}

/-! ## Operations that leave the scheduler as it is -/

theorem forEach_sch {α : Type} {l : List α} {f : α → State → State} (hf : ∀ a s, (f a s).sch = s.sch) :
    (forEach l f s).sch = s.sch := by
  unfold forEach
  induction l generalizing s with
  | nil => rfl
  | cons a l ih => exact ih.trans (hf a s)

theorem forEachAny_sch {α : Type} {l : List α} {f : α → State → State} (hf : ∀ a s, (f a s).sch = s.sch) :
    (forEachAny l f s).sch = s.sch := by
  rw [forEachAny]
  split
  · exact forEach_sch hf
  · exact forEach_sch (s := s.draw.2) hf

@[simp] theorem rescale_sch (s : State) : (rescale s).sch = s.sch :=
  forEach_sch fun k s => by simp only [rescaleStack]; split <;> simp

@[simp] theorem motionStop_sch (p : Nat) (s : State) : (motionStop p s).sch = s.sch := by
  simp only [motionStop]
  split
  · rfl
  · split <;> rfl

@[simp] theorem portOff_sch (p : Nat) (err : BitVec 4) (s : State) : (portOff p err s).sch = s.sch := by
  have stopped := motionStop_sch p s
  simp only [portOff, rescale_sch, State.setPort_sch]
  exact (forEach_sch fun k s => State.setChan_sch ..).trans stopped

@[simp] theorem portStop_sch (p : Nat) (err : BitVec 4) (s : State) : (portStop p err s).sch = s.sch := by
  rw [portStop]; split <;> simp

@[simp] theorem stopFollowers_sch (p : Nat) (s : State) : (stopFollowers p s).sch = s.sch :=
  forEach_sch fun q s => by dsimp only; split <;> simp

@[simp] theorem portsStop_sch (ps : List Nat) (err : BitVec 4) (s : State) : (portsStop ps err s).sch = s.sch :=
  (forEach_sch stopFollowers_sch).trans (forEachAny_sch fun p s => portStop_sch p err s)

@[simp] theorem transmit_sch (x : Nat) (m : BitVec 8 → Sent) (s : State) : (transmit x m s).sch = s.sch := by
  simp only [transmit]; split <;> simp

@[simp] theorem pump_sch (n x : Nat) (s : State) : (pump n x s).sch = s.sch := by
  induction n generalizing s with
  | zero => rfl
  | succ n ih =>
    simp only [pump]
    split
    · rfl
    · split
      · simp [ih, sendFlit]
      · rfl

@[simp] theorem cutOutward_sch (m : Msg) (s : State) : (cutOutward m s).sch = s.sch := by
  rw [cutOutward]; split <;> simp [freeOutput, pumpAll, sendFlit]

@[simp] theorem releaseTile_sch (i : Nat) (s : State) : (releaseTile i s).sch = s.sch := by
  simp only [releaseTile]; split <;> rfl

@[simp] theorem domainOn_sch (d : Nat) (s : State) : (domainOn d s).sch = s.sch :=
  forEach_sch fun p s => by split <;> rfl

@[simp] theorem powerQuadrants_sch (tiles : List Nat) (s : State) : (powerQuadrants tiles s).sch = s.sch :=
  forEach_sch fun q s => by split <;> simp

@[simp] theorem takeTag_sch (j : Job) (s : State) : (takeTag j s).2.sch = s.sch := by
  rw [takeTag]; split <;> rfl

@[simp] theorem readBeats_sch (l : List Nat) (s : State) : (readBeats l s).2.sch = s.sch := by
  induction l generalizing s with
  | nil => rfl
  | cons a l ih =>
    have beat : (readBeat a s).2.sch = s.sch := by rw [readBeat]; split <;> rfl
    rw [readBeats]
    split
    · next v e => rw [ih, ← beat, e]
    · next v e => rw [← beat, e]

/-! ## No job joins the queue -/

/-- A job's later state: where it waits for tiles it did so before, with the same rectangle kept for it. -/
def Job.QueuesAs (x y : Job) : Prop :=
  y.id = x.id ∧ (y.queued = true → x.queued = true ∧ y.phase = x.phase ∧ y.kept = x.kept)

/-- Every job of a state waits in a later one only as it waited before; none is admitted and none leaves. -/
def State.QueuesAs (s t : State) : Prop :=
  ∃ g : Job → Job, (∀ x : Job, x.QueuesAs (g x)) ∧ t.sch.jobs = s.sch.jobs.map g

theorem Job.QueuesAs.refl (x : Job) : x.QueuesAs x := ⟨rfl, fun h => ⟨h, rfl, rfl⟩⟩

theorem Job.QueuesAs.trans {x y z : Job} (h : x.QueuesAs y) (k : y.QueuesAs z) : x.QueuesAs z :=
  ⟨k.1.trans h.1, fun queued =>
    have ⟨mid, phase, kept⟩ := k.2 queued
    have ⟨first, phase', kept'⟩ := h.2 mid
    ⟨first, phase.trans phase', kept.trans kept'⟩⟩

/-- A job that no longer waits for tiles, whatever it did before. -/
theorem Job.QueuesAs.of_unqueued {x y : Job} (hid : y.id = x.id) (h : y.queued = false) : x.QueuesAs y :=
  ⟨hid, fun queued => absurd queued (by simp [h])⟩

theorem State.QueuesAs.of_jobs_eq (h : t.sch.jobs = s.sch.jobs) : s.QueuesAs t := ⟨fun x => x, .refl, by simp [h]⟩

theorem State.QueuesAs.of_sch_eq (h : t.sch = s.sch) : s.QueuesAs t := .of_jobs_eq (congrArg Sch.jobs h)

theorem State.QueuesAs.refl (s : State) : s.QueuesAs s := .of_sch_eq rfl

theorem State.QueuesAs.trans (h : s.QueuesAs t) (k : t.QueuesAs u) : s.QueuesAs u := by
  obtain ⟨f, hf, ht⟩ := h
  obtain ⟨g, hg, hu⟩ := k
  exact ⟨g ∘ f, fun x => (hf x).trans (hg _), by rw [hu, ht, List.map_map]⟩

theorem State.QueuesAs.of_modJob {f : Job → Job} (id : Nat) (s : State) (hf : ∀ x : Job, x.QueuesAs (f x)) :
    s.QueuesAs (s.modJob id f) :=
  ⟨fun x => if x.id = id then f x else x, fun x => by dsimp only; split; exacts [hf x, .refl x], rfl⟩

theorem State.QueuesAs.of_forEach {α : Type} {l : List α} {f : α → State → State}
    (hf : ∀ (a : α) (s : State), s.QueuesAs (f a s)) (s : State) : s.QueuesAs (forEach l f s) := by
  unfold forEach
  induction l generalizing s with
  | nil => exact .refl s
  | cons a l ih => exact (hf a s).trans (ih _)

/-! ## A job fails, a stack is fenced, a region is read -/

theorem chargeJob_queuesAs (id : Nat) (s : State) : s.QueuesAs (chargeJob id s) := by
  rw [chargeJob]
  split
  · exact .refl s
  · next j _ => exact .of_modJob id (s.setSchTen j.tenant _) fun x => .refl x

theorem releaseTiles_queuesAs (id : Nat) (s : State) : s.QueuesAs (releaseTiles id s) := by
  simp only [releaseTiles]
  split
  · exact .refl s
  · refine State.QueuesAs.trans (.of_sch_eq ?_) ((chargeJob_queuesAs id _).trans (.of_modJob id _ fun x => .refl x))
    exact (forEach_sch releaseTile_sch).trans (forEach_sch cutOutward_sch)

theorem finishJob_queuesAs (id : Nat) (st : BitVec 8) (d : Nat) (s : State) : s.QueuesAs (finishJob id st d s) := by
  rw [finishJob]
  split
  · exact .refl s
  · split
    · exact .refl s
    · exact (releaseTiles_queuesAs id s).trans (.of_modJob id _ fun x => .of_unqueued rfl rfl)

theorem fireJob_queuesAs (f : Finding) (id : Nat) (s : State) : s.QueuesAs (fireJob f id s) := by
  simp only [fireJob]
  split
  · exact .of_sch_eq rfl
  · split
    · exact .of_sch_eq rfl
    · refine State.QueuesAs.trans ?_ (.of_sch_eq (raise_sch ..))
      have recorded (j : Job) (n : Nat) : s.QueuesAs ((writeRecord f (some j) (countFlt f.detector s)).modJob id
          (fun j => { j with recorded := some n })) :=
        State.QueuesAs.trans (t := writeRecord f (some j) (countFlt f.detector s)) (.of_sch_eq rfl)
          (.of_modJob id _ fun x => .refl x)
      split <;> exact (recorded ..).trans (finishJob_queuesAs ..)

theorem failJobs_queuesAs (ids : List Nat) (n : Nat) (s : State) : s.QueuesAs (failJobs ids n s) :=
  .of_forEach (fun id s => (State.QueuesAs.of_modJob id s fun x => by split <;> exact .refl x).trans
    (finishJob_queuesAs ..)) s

theorem answerPicture_queuesAs (r : CymReq) (ws : List Word) (s : State) : s.QueuesAs (answerPicture r ws s) := by
  refine State.QueuesAs.trans ?_ (.of_modJob r.job _ fun x => .refl x)
  simp only [writeResultFor]
  split
  · exact .of_sch_eq (writeResult_sch ..)
  · exact (State.QueuesAs.of_sch_eq (writeResult_sch ..)).trans (fireJob_queuesAs ..)

theorem streamStop_queuesAs (n : Nat) (err : BitVec 4) (s : State) : s.QueuesAs (streamStop n err s) := by
  simp only [streamStop]
  split
  · exact .refl s
  · refine State.QueuesAs.trans ?_ (.of_sch_eq ((raise_sch ..).trans (rescale_sch ..)))
    refine State.QueuesAs.trans ?_ (.of_sch_eq (State.setStream_sch ..))
    refine State.QueuesAs.trans ?_ (.of_forEach (fun r s => answerPicture_queuesAs r _ s) _)
    exact .of_sch_eq rfl

theorem fence_queuesAs (k cause : Nat) (s : State) : s.QueuesAs (fence k cause s) := by
  simp only [fence]
  split
  · exact .refl s
  · refine State.QueuesAs.trans ?_ (.of_sch_eq (rescale_sch _))
    refine State.QueuesAs.trans ?_ (.of_forEach (fun n s => streamStop_queuesAs n 6 s) _)
    refine State.QueuesAs.trans ?_ (.of_sch_eq (portsStop_sch ..))
    refine State.QueuesAs.trans ?_ (.of_sch_eq (forEach_sch fun e s => State.setMap_sch ..))
    refine State.QueuesAs.trans ?_ (failJobs_queuesAs ..)
    exact .of_sch_eq (by simp)

theorem uncorrectableBeat_queuesAs (a : Nat) (s : State) : s.QueuesAs (uncorrectableBeat a s) := by
  simp only [uncorrectableBeat]
  split
  · refine State.QueuesAs.trans ?_ (fence_queuesAs ..)
    exact .of_sch_eq rfl
  · exact .of_sch_eq rfl

theorem readForJob_queuesAs (job : Nat) (beats : List Nat) (s : State) : s.QueuesAs (readForJob job beats s).2 := by
  have reads : s.QueuesAs (readBeats beats s).2 := .of_sch_eq (readBeats_sch ..)
  rw [readForJob]
  split
  · next e => rw [e] at reads; exact reads
  · next e => rw [e] at reads; exact (reads.trans (fireJob_queuesAs ..)).trans (uncorrectableBeat_queuesAs ..)

theorem readRegions_queuesAs (block job t : Nat) (rs : List (Nat × Nat)) (s : State) :
    s.QueuesAs (readRegions block job t rs s).2 := by
  induction rs generalizing s with
  | nil => exact .refl s
  | cons r rs ih =>
    have read := readForJob_queuesAs job (s.tenBeats t r.1 r.2) s
    rw [readRegions]
    split
    · exact fireJob_queuesAs ..
    · split
      · next e => rw [e] at read; exact read.trans (ih _)
      · next e => rw [e] at read; exact read

/-! ## Starting and placing (R392, R393, R397) -/

theorem startJob_queuesAs (id o : Nat) (s : State) : s.QueuesAs (startJob id o s) := by
  simp only [startJob]
  split
  · exact .refl s
  · next j _ =>
    split
    · exact .refl s
    · have read := (State.QueuesAs.of_sch_eq (powerQuadrants_sch (rect o j.man.width j.man.height) s)).trans
        (readRegions_queuesAs schBlock id j.tenant j.programs _)
      split
      · next e => rw [e] at read; exact read
      · next e =>
        rw [e] at read
        refine (read.trans (.of_sch_eq ?_)).trans (.of_modJob id _ fun x => .of_unqueued rfl rfl)
        exact (forEach_sch fun o s => State.setTile_sch ..).trans (takeTag_sch ..)

theorem State.length_insertJob (s : State) (a : Job) (l : List Job) : (s.insertJob a l).length = l.length + 1 := by
  induction l with
  | nil => rfl
  | cons b l ih => rw [State.insertJob]; split <;> simp [ih]

theorem State.length_order (s : State) : s.order.length = (s.sch.jobs.filter Job.queued).length := by
  rw [State.order, List.length_map]
  induction s.sch.jobs.filter Job.queued with
  | nil => rfl
  | cons a l ih => rw [List.foldr_cons, State.length_insertJob, ih, List.length_cons]

/-- Where one job waits, it is the one that its number finds. -/
theorem State.eq_of_order_singleton {x : Job} (ho : s.order = [id]) (hj : s.job? id = some j) (hq : j.queued = true)
    (hx : x ∈ s.sch.jobs) (hxq : x.queued = true) : x = j := by
  have one : (s.sch.jobs.filter Job.queued).length = 1 := by rw [← s.length_order, ho]; rfl
  obtain ⟨a, only⟩ := List.length_eq_one_iff.1 one
  have waits : ∀ y ∈ s.sch.jobs, y.queued = true → y = a := fun y hy hyq =>
    List.mem_singleton.1 (only ▸ List.mem_filter.2 ⟨hy, hyq⟩)
  exact (waits x hx hxq).trans (waits j (List.mem_of_find?_eq_some hj) hq).symm

/-- Once the one job that waits has changed its phase or its rectangle, no job waits. -/
theorem State.QueuesAs.order_eq_nil (h : s.QueuesAs t) (ho : s.order = [id]) (hj : s.job? id = some j)
    (hq : j.queued = true)
    (hc : (t.job? id).map (fun j => (j.phase, j.kept)) ≠ (s.job? id).map (fun j => (j.phase, j.kept))) :
    t.order = [] := by
  obtain ⟨g, hg, jobs⟩ := h
  have sameId : (fun x : Job => x.id == id) ∘ g = fun x => x.id == id := funext fun x => by simp [(hg x).1]
  have found : t.job? id = some (g j) := by
    rw [State.job?, jobs, List.find?_map, sameId]
    exact congrArg (Option.map g) hj
  have none_waits : t.sch.jobs.filter Job.queued = [] := by
    rw [jobs, List.filter_eq_nil_iff]
    intro y hy queued
    obtain ⟨x, hx, rfl⟩ := List.mem_map.1 hy
    obtain ⟨waited, phase, kept⟩ := (hg x).2 queued
    obtain rfl := eq_of_order_singleton ho hj hq hx waited
    exact hc (by simp [found, hj, phase, kept])
  exact List.length_eq_zero_iff.1 (by rw [t.length_order, none_waits, List.length_nil])

theorem placeRounds_idle (h : s.order = []) (n : Nat) : placeRounds n s = s := by
  cases n with
  | zero => rfl
  | succ n => simp only [placeRounds, h, placeOne]

/-- Where one job waits and placing it brings no other into the queue, it is placed once. -/
theorem placeAll_singleton (ho : s.order = [id]) (hj : s.job? id = some j) (hq : j.queued = true)
    (h : s.QueuesAs (placeJob id s)) : placeAll s = placeJob id s := by
  simp only [placeAll, ho, placeRounds, placeOne]
  by_cases same : ((placeJob id s).job? id).map (fun j => (j.phase, j.kept))
      = (s.job? id).map (fun j => (j.phase, j.kept))
  · simp only [if_pos same]
  · simp only [if_neg same]
    exact placeRounds_idle (h.order_eq_nil ho hj hq same) 2

theorem placeJob_starts (hj : s.job? id = some j) (hq : j.queued = true) (hp : s.placing j.tenant = true)
    (hb : s.heldBack j = false) (hk : j.kept = none) (hw : j.phase = .waiting)
    (hf : j.find (s.tileFree id) = some o) : placeJob id s = startJob id o s := by
  have serves : ¬ ((!j.queued) = true ∨ (!s.placing j.tenant) = true ∨ s.heldBack j = true) := by simp [hq, hp, hb]
  simp only [placeJob, hj, if_neg serves, hk, hf, if_pos hw]

theorem placeAll_starts (ho : s.order = [id]) (hj : s.job? id = some j) (hq : j.queued = true)
    (hp : s.placing j.tenant = true) (hb : s.heldBack j = false) (hk : j.kept = none) (hw : j.phase = .waiting)
    (hf : j.find (s.tileFree id) = some o) : placeAll s = startJob id o s := by
  have starts := placeJob_starts hj hq hp hb hk hw hf
  exact (placeAll_singleton ho hj hq (starts ▸ startJob_queuesAs id o s)).trans starts

/-! ## Starvation, the slice and pre-emption (R398, R407 to R411) -/

theorem starveTimeout_due {p : Nat} (hj : s.job? id = some j) (hq : j.queued = true) (hp : j.passedAt = some p)
    (hn : p + 2500000 ≤ s.now) : starveTimeout id s = s.modJob id (fun x => { x with starving := true }) := by
  have due : j.queued = true ∧ j.passedAt.any (fun p => decide (p + starveTicks ≤ s.now)) = true :=
    ⟨hq, by rw [hp, Option.any_some, starveTicks]; exact decide_eq_true hn⟩
  simp only [starveTimeout, hj, if_pos due]

theorem sliceExpire_claims {k : Nat} (hj : s.job? k = some j) (hc : s.sliceClaim j = some (id, o)) :
    sliceExpire k s = chooseVictims id o s := by
  simp only [sliceExpire, hj, hc]

theorem spillStart_quiet (hj : s.job? id = some j) (hp : j.phase = .preempting) (hq : s.quiet j = true)
    (hb : j.tiles.any (fun i => (s.tile i).atBar) = true) :
    spillStart id s = s.modJob id (fun j => { j with phase := .spilling }) := by
  simp only [spillStart, hj]
  exact if_pos ⟨hp, hq, hb⟩

theorem spillComplete_clean (hj : s.job? id = some j) (hp : j.phase = .spilling)
    (hc : s.claimedIn j.tenant (s.spillAddr j.tenant j.spillFirst) (72 * j.spillLines) = false)
    (hw : ∀ i ∈ j.tiles, (s.tile i).spillParity j.man.decls = none) :
    spillComplete id s = (forEach j.tiles
      (fun i s => s.setTile i { exclude := (s.tile i).exclude, recent := (s.tile i).recent, lastJob := some id })
      (chargeJob id (forEach (List.range j.count) (spillTile j) s))).modJob id (fun k => { k with
        phase := .spilled, keptFor := none, passedAt := none
        satSeen := k.satSeen || j.tiles.any (fun i => !(s.tile i).sat.isEmpty)
        satKept := j.tiles.map (fun i => (s.tile i).satWin) }) := by
  have clean : j.tiles.findSome? (fun i => ((s.tile i).spillParity j.man.decls).map (fun b => (i, b))) = none :=
    List.findSome?_eq_none_iff.2 fun i hi => by rw [hw i hi]; rfl
  have due : j.phase = .spilling ∧ (!s.claimedIn j.tenant (s.spillAddr j.tenant j.spillFirst)
      (72 * j.spillLines)) = true := ⟨hp, by simp [hc]⟩
  simp only [spillComplete, hj, if_pos due, clean]

theorem restoreJob_places (hj : s.job? id = some j) (hp : j.phase = .spilled) (hk : j.kept = some j.origin)
    (hf : j.tiles.all (s.tileFree id) = true) (hs : s.placing j.tenant = true)
    (hc : s.claimedAny j.tenant (j.programs ++ s.slotRegions j) = false)
    (hr : readRegions schBlock id j.tenant (j.programs ++ s.slotRegions j) (powerQuadrants j.tiles s) = (true, u)) :
    restoreJob id s = (forEach (List.range j.count) (fun o s =>
        s.setTile (j.tiles.getD o 0) (restoredTile s j o (s.programWords j o) (s.tile (j.tiles.getD o 0)))) u).modJob id
      (fun j => { j with phase := .running, kept := none, passedAt := none, starving := false, ran := 0 }) := by
  have due : j.phase = .spilled ∧ j.kept = some j.origin ∧ j.tiles.all (s.tileFree id) = true
      ∧ s.placing j.tenant = true ∧ (!s.claimedAny j.tenant (j.programs ++ s.slotRegions j)) = true :=
    ⟨hp, hk, hf, hs, by simp [hc]⟩
  simp only [restoreJob, hj, if_pos due, hr]

theorem barTimeout_due {i k : Nat} (hj : (s.tile i).job = some k) (hr : (s.tile i).running = true)
    (ht : 500 * (s.tile i).interval ≤ (s.tile i).barTime) : barTimeout i s = fireJob
      { detector := 0x05, level := lvlJob, location := i, info0 := (s.tile i).interval, info1 := (s.tile i).pc.toNat }
      k s := by
  have due : (s.tile i).running = true ∧ 2 * (s.tile i).interval * 250 ≤ (s.tile i).barTime := ⟨hr, by omega⟩
  simp only [barTimeout, hj, if_pos due]

/-! ## The output stage and the end of a job (R394, R395) -/

theorem outputCopy_due {c h : Fmt} (hj : s.job? id = some j) (hp : j.phase = .output) (hs : j.man.outStage = 1)
    (hd : j.stageDue = true) (hl : s.linkOk j.tenant = true)
    (hc : s.claimedIn j.tenant j.man.outRegion j.man.outBytes = false)
    (hr : readRegions schBlock id j.tenant [(j.man.outRegion, j.man.outBytes)] s = (true, u))
    (hcard : Fmt.ofCode j.man.outCardFmt = some c) (hhost : Fmt.ofCode (dOutFmt j.desc) = some h) :
    let bs := (u.readTen j.tenant j.man.outRegion j.man.outBytes).getD []
    let o := outputBytes c h (dOutWide j.desc) (dZero j.desc) ((List.range j.man.outNonets).map (packedNonet bs))
    outputCopy id s = (writeOutput j 0 o.1 u).modJob id (fun j => { j with
      stageDue := false, outBytes := o.1.length, outSat := o.2 }) := by
  have due : j.phase = .output ∧ j.man.outStage = 1 ∧ j.stageDue = true ∧ s.linkOk j.tenant = true
      ∧ (!s.claimedIn j.tenant j.man.outRegion j.man.outBytes) = true := ⟨hp, hs, hd, hl, by simp [hc]⟩
  simp only [outputCopy, hj, if_pos due, hr, hcard, hhost]

theorem jobComplete_due (hj : s.job? id = some j) (hp : j.phase = .output) (hd : j.stageDue = false)
    (hn : j.pictures = 0) : jobComplete id s = finishJob id stOk 0 s := by
  simp only [jobComplete, hj]
  exact if_pos ⟨hp, by simp [hd], hn⟩

theorem finishJob_decided {st : BitVec 8} {d : Nat} (hj : s.job? id = some j) (hr : j.result.isSome = true) :
    finishJob id st d s = s := by
  simp only [finishJob, hj, if_pos hr]

theorem exec_usedRead_go {q : Requester} {t : Fin 64} (h : access q (.blk (baseSCH t + 0x18)) false s = .go) :
    exec (.usedRead q t) s = .next { s.setSchTen t { s.schTen t with
        usedHi := (s.schTen t).used.extractLsb' 32 32 } with
      rdata := ((s.schTen t).used.extractLsb' 0 32).zeroExtend 64 } := congrArg _ (regRead_go h)

/-- Settles O40: placement, the starving job, the slice, spill and restore, the bar time, the end of a job and its
tile-µs; then output stage 1 and the completion that is kept. -/
theorem schedulerCommands : Obligations.SchedulerCommands := by
  refine ⟨⟨?place, ?starve, ?slice, ?spillStart, ?spillComplete, ?restore, ?bar, ?complete, ?used, ?usedRead⟩,
    ?output, ?decided⟩
  case place => exact fun _ _ _ _ ho hj hq hp hb hk hw hf => congrArg _ (placeAll_starts ho hj hq hp hb hk hw hf)
  case starve => exact fun _ _ _ _ hj hq hp hn => congrArg _ (starveTimeout_due hj hq hp hn)
  case slice => exact fun _ _ _ _ _ hj hc => congrArg _ (sliceExpire_claims hj hc)
  case spillStart => exact fun _ _ _ hj hp hq hb => congrArg _ (spillStart_quiet hj hp hq hb)
  case spillComplete => exact fun _ _ _ hj hp hc hw => congrArg _ (spillComplete_clean hj hp hc hw)
  case restore => exact fun _ _ _ _ hj hp hk hf hs hc hr => congrArg _ (restoreJob_places hj hp hk hf hs hc hr)
  case bar => exact fun _ _ _ hj hr ht => congrArg _ (barTimeout_due hj hr ht)
  case complete => exact fun _ _ _ hj hp hd hn => congrArg _ (jobComplete_due hj hp hd hn)
  case used => exact fun _ on => congrArg _ (if_pos on)
  case usedRead => exact fun _ _ _ => exec_usedRead_go
  case output =>
    exact fun _ _ _ _ _ _ hj hp hs hd hl hc hr hcard hhost =>
      congrArg _ (outputCopy_due hj hp hs hd hl hc hr hcard hhost)
  case decided => exact fun _ _ _ _ _ hj hr => finishJob_decided hj hr

end Sys2Proof.Machine
end

section
/-!
PROOFS. The Woodblock's time and position counters (R413 to R420): what a filter with N = 0 passes, the one counter or
capture channel that has something to do, a step of the position inputs; and the settling of O41.
-/
namespace Sys2Proof.Machine

variable {s : State} {q : Requester} {p : Nat} {a b atOnce : Bool} {x : Pos}

/-! ## The time counter (R413, R414) -/

theorem timeWrap_last (hm : s.on domMGT = true) (ht : s.wbk.time = BitVec.allOnes 40) : timeWrap s =
    raise 84 { s with wbk := { s.wbk with
      time := 0, wrap := s.wbk.wrap + 1, ch := s.wbk.ch.update {} (fun _ x => { x with matched := false }) } } :=
  if_pos ⟨hm, ht⟩

/-! ## The input pins and the filters with N = 0 (R415, R431) -/

/-- The Woodblock's input pins read v. -/
def State.setPins (s : State) (v : BitVec 28) : State := { s with wbk := { s.wbk with pins := v } }

theorem pinLevels_one (i : Nat) (e : Bool) (s : State) :
    pinLevels [(i, e)] s = runFilters true (s.setPins (setBit s.wbk.pins i e)) := rfl

/-- The pins after QAp and QBp take levels. -/
def State.quadPins (s : State) (p : Nat) (a b : Bool) : State :=
  s.setPins (setBit (setBit s.wbk.pins (16 + 2 * p) a) (17 + 2 * p) b)

theorem posCount_eq (p : Nat) (a b : Bool) (s : State) : posCount p a b s = runFilters true (s.quadPins p a b) := rfl

theorem pin_quadPins_a (hp : p < 4) : (s.quadPins p a b).pin (16 + 2 * p) = a := by
  have other : 16 + 2 * p ≠ 17 + 2 * p := by omega
  exact (bit_setBit _ _ (by omega)).trans ((if_neg other).trans (bit_setBit_same _ _ (by omega)))

theorem pin_quadPins_b (hp : p < 4) : (s.quadPins p a b).pin (17 + 2 * p) = b := bit_setBit_same _ _ (by omega)

theorem filterStep_pass (level out : Bool) (differed : Nat) : filterStep 0 level out differed = (level, 0) := by
  unfold filterStep
  split
  · next same => rw [same]
  · exact if_pos (Nat.zero_le _)

theorem runFilters_idle (hp : s.posDue atOnce = []) (hc : s.captureDue atOnce = []) : runFilters atOnce s = s := by
  have positions : forEachAny (s.posDue atOnce) posTick s = s := by rw [hp]; rfl
  simp only [runFilters, positions, hc]
  rfl

theorem runFilters_position (hp : s.posDue atOnce = [p]) (hc : (posTick p s).captureDue atOnce = []) :
    runFilters atOnce s = posTick p s := by
  have positions : forEachAny (s.posDue atOnce) posTick s = posTick p s := by rw [hp, forEachAny_singleton]
  simp only [runFilters, positions, hc]
  rfl

theorem runFilters_capture {k : Nat} (hp : s.posDue atOnce = []) (hc : s.captureDue atOnce = [k]) :
    runFilters atOnce s = captureTick k s := by
  have positions : forEachAny (s.posDue atOnce) posTick s = s := by rw [hp]; rfl
  simp only [runFilters, positions, hc, forEachAny_singleton]

/-- Which captures are due rests on the channels and the pins alone. -/
theorem captureDue_congr {t : State} (hch : t.wbk.ch = s.wbk.ch) (hpins : t.wbk.pins = s.wbk.pins) :
    t.captureDue atOnce = s.captureDue atOnce := by
  have chans : t.chan = s.chan := funext fun k => by rw [State.chan, State.chan, hch]
  have levels : t.pin = s.pin := funext fun i => by rw [State.pin, State.pin, hpins]
  unfold State.captureDue
  rw [chans, levels]

/-! ## A step of the position inputs (R416, R417, R425) -/

/-- How many places the inputs of a position counter move on in 00, 10, 11, 01. -/
def Pos.moved (x : Pos) (a b : Bool) : Nat := (quadIndex a b + 4 - quadIndex x.a x.b) % 4

/-- The value that a counted edge up or down leads to. -/
def Pos.stepped (x : Pos) (up : Bool) : BitVec 32 := if up then x.val + 1 else x.val - 1

theorem posMove_illegal (hm : s.on domMGT = true) (h : x.moved a b = 2) : posMove p a b (s.setPos p x) =
    raise (80 + p) (s.setPos p { x with a := a, b := b, err := satInc x.err }) := by
  have on (y : Pos) : (s.setPos p y).on domMGT = true := hm
  unfold Pos.moved at h
  simp [posMove, h, on]

theorem posMove_disabled (h : x.moved a b ≠ 2) (he : x.enable = false) :
    posMove p a b (s.setPos p x) = s.setPos p { x with a := a, b := b } := by
  unfold Pos.moved at h
  simp [posMove, h, he]

/-- A counted edge that no compare waits for: up or down by the way the inputs went, exchanged by invert. -/
theorem posMove_counts {up : Bool} (hm : s.on domMGT = true) (he : x.enable = true)
    (h : x.moved a b = 1 ∨ x.moved a b = 3) (hu : ((x.moved a b == 1) != x.invert) = up)
    (hn : s.positionMatches p (x.stepped up) up = []) :
    posMove p a b (s.setPos p x) = s.setPos p { x with a := a, b := b, val := x.stepped up } := by
  have on (y : Pos) : (s.setPos p y).on domMGT = s.on domMGT := rfl
  have moves : ¬(((!s.on domMGT) = true) ∨ x.moved a b = 0) := by rw [hm]; rcases h with h | h <;> simp [h]
  have legal : x.moved a b ≠ 2 := by rcases h with h | h <;> simp [h]
  have unmatched (y : Pos) : (s.setPos p y).positionMatches p (x.stepped up) up = [] := hn
  unfold Pos.moved at moves legal hu
  unfold Pos.stepped at unmatched ⊢
  simp only [posMove, State.pos_setPos_same, State.setPos_setPos, on, if_neg moves, if_neg legal, he, hu, unmatched]
  rfl

/-- A filter with N = 0 passes both inputs at once. -/
theorem posTick_pass (hf : (s.pos p).filt = 0) : posTick p s =
    posMove p (s.pin (16 + 2 * p)) (s.pin (17 + 2 * p)) (s.setPos p { s.pos p with na := 0, nb := 0 }) := by
  simp [posTick, hf, filterStep_pass]

theorem posCount_idle (hd : (s.quadPins p a b).posDue true = []) (hc : (s.quadPins p a b).captureDue true = []) :
    posCount p a b s = s.quadPins p a b := (posCount_eq ..).trans (runFilters_idle hd hc)

/-- Where one counter with N = 0 is due alone, POS_COUNT is that counter's move, as long as the move leaves the channels
and the pins alone. -/
theorem posCount_moves {t : State} (hp : p < 4) (hc : (s.quadPins p a b).captureDue true = [])
    (hd : (s.quadPins p a b).posDue true = [p]) (hf : (s.pos p).filt = 0)
    (ht : posMove p a b ((s.quadPins p a b).setPos p { s.pos p with na := 0, nb := 0 }) = t)
    (hch : t.wbk.ch = s.wbk.ch) (hpins : t.wbk.pins = (s.quadPins p a b).wbk.pins) : posCount p a b s = t := by
  have ticks : posTick p (s.quadPins p a b) = t := by
    rw [posTick_pass (s := s.quadPins p a b) hf, pin_quadPins_a hp, pin_quadPins_b hp]; exact ht
  have quiet : (posTick p (s.quadPins p a b)).captureDue true = [] := by
    rw [ticks, captureDue_congr (s := s.quadPins p a b) hch hpins, hc]
  rw [posCount_eq, runFilters_position hd quiet, ticks]

/-- The four ways of a counted edge, as the direction that the counter takes. -/
theorem counted_direction {v : BitVec 32} {m : Nat}
    (h : v = x.val + 1 ∧ m = 1 ∧ x.invert = false ∨ v = x.val + 1 ∧ m = 3 ∧ x.invert = true ∨
      v = x.val - 1 ∧ m = 3 ∧ x.invert = false ∨ v = x.val - 1 ∧ m = 1 ∧ x.invert = true) :
    (m = 1 ∨ m = 3) ∧ ∃ up, ((m == 1) != x.invert) = up ∧ v = x.stepped up := by
  rcases h with ⟨rfl, rfl, hi⟩ | ⟨rfl, rfl, hi⟩ | ⟨rfl, rfl, hi⟩ | ⟨rfl, rfl, hi⟩ <;> simp [hi, Pos.stepped]

/-! ## The commands -/

theorem exec_wbkTimeRead_go (h : access q (.blk 0x700000) false s = .go) : exec (.wbkTimeRead q) s = .next { s with
    rdata := (s.wbk.time.extractLsb' 0 32).zeroExtend 64
    wbk := { s.wbk with timeHi := s.wbk.time.extractLsb' 32 8 } } := congrArg Host.Outcome.next (regRead_go h)

theorem exec_posErrRead_go {p : Fin 4} (h : access q (.blk (basePOS p + 0xC)) false s = .go) :
    exec (.posErrRead q p) s = .next { s.setPos p { s.pos p with err := 0 } with
      rdata := ((s.pos p).err.zeroExtend 32).zeroExtend 64 } := congrArg Host.Outcome.next (regRead_go h)

/-- Settles O41: the wrap and the read of the time counter; the position inputs, with no filter due and with one; the
read of the errors and the write of a counter. -/
theorem timeAndPosition : Obligations.TimeAndPosition := by
  refine ⟨?wrap, ?timeRead, ?count, ?errRead, ?set⟩
  case wrap => exact fun _ hm ht => congrArg Host.Outcome.next (timeWrap_last hm ht)
  case timeRead => exact fun _ _ => exec_wbkTimeRead_go
  case count =>
    intro p a b s u x y moved hc
    refine ⟨fun hd => congrArg Host.Outcome.next (posCount_idle hd hc), fun hd hm hf => ?due⟩
    have moves {t : State} (ht : posMove p a b (u.setPos p { x with na := 0, nb := 0 }) = t)
        (hch : t.wbk.ch = s.wbk.ch) (hpins : t.wbk.pins = u.wbk.pins) : exec (.posCount p a b) s = .next t :=
      congrArg Host.Outcome.next (posCount_moves p.isLt hc hd hf ht hch hpins)
    refine ⟨fun h2 => ?illegal, fun h2 he => ?disabled, fun v he hv hn => ?counts⟩
    case illegal => exact moves (posMove_illegal (s := u) hm h2) rfl rfl
    case disabled => exact moves (posMove_disabled (s := u) h2 he) rfl rfl
    case counts =>
      obtain ⟨counted, up, hu, rfl⟩ := counted_direction hv
      exact moves (posMove_counts (s := u) hm he counted hu (hn up)) rfl rfl
  case errRead => exact fun _ _ _ => exec_posErrRead_go
  case set => exact fun _ _ _ _ h => congrArg Host.Outcome.next (regWrite_go h)

end Sys2Proof.Machine
end

section
/-!
PROOFS. The Woodblock's channels (R423 to R435): the writes of a channel's registers, its captures and its matches; and
the settling of O42.
-/
namespace Sys2Proof.Machine

variable {s : State} {q : Requester} {k : Nat} {v : BitVec 32} {x : Chan} {e : Bool}

/-! ## Writes of a channel's registers (R423, R429, R453) -/

theorem guardOwned_allowed {off : Nat} {f : State → State} (h : q = .fn 0 → s.owned k = false) :
    guardOwned q k off f s = f s := if_neg fun ⟨hq, ho⟩ => by simp [h hq] at ho

theorem guardOwned_refused {off : Nat} {f : State → State} (hq : q = .fn 0) (ho : s.owned k = true) :
    guardOwned q k off f s = regError q off s := if_pos ⟨hq, ho⟩

theorem channelCtl_disarmed (ha : (s.chan k).armed = false) (hv : bit v 31 = false) (hb : fld v 12 3 ≤ 4)
    (hm : fld v 10 2 ≠ 3) (hc : fld v 5 5 ≤ 27) : channelCtl q k v s = s.setChan k { s.chan k with
      lport := v.extractLsb' 22 3, outForce := v.extractLsb' 20 2, action := v.extractLsb' 17 3
      edgeDir := v.extractLsb' 15 2, base := v.extractLsb' 12 3, mode := v.extractLsb' 10 2, capSrc := v.extractLsb' 5 5
      armed := false, late := (s.chan k).late && !bit v 30, overrun := (s.chan k).overrun && !bit v 29 } := by
  have taken : ¬(4 < fld v 12 3 ∨ fld v 10 2 = 3 ∨ 27 < fld v 5 5) := by omega
  simp [channelCtl, ha, hv, if_neg taken, fldv]

theorem channelCtl_reshaped (ha : (s.chan k).armed = true)
    (h : (s.chan k).mode ≠ v.extractLsb' 10 2 ∨ (s.chan k).base ≠ v.extractLsb' 12 3 ∨
      (s.chan k).edgeDir ≠ v.extractLsb' 15 2 ∨ (s.chan k).capSrc ≠ v.extractLsb' 5 5) :
    channelCtl q k v s = regError q (baseCH k) s := by
  refine if_pos ⟨ha, ?_⟩
  simp only [Bool.or_eq_true, decide_eq_true_eq, or_assoc]
  exact h.imp Ne.symm (.imp Ne.symm (.imp Ne.symm Ne.symm))

/-! ## Captures (R431 to R433, R81) -/

theorem pinChange_driven {i : Nat} (h : s.drivenOther i e = true) :
    ∃ l, pinChange i e s = pinLevels [(i, l)] { s with free := s.free + 1 } := by
  rw [pinChange, seenLevel, if_pos h]
  exact ⟨_, rfl⟩

theorem pinChange_free {i : Nat} (h : s.drivenOther i e = false) :
    pinChange i e s = pinLevels [(i, e)] s := by
  rw [pinChange, seenLevel, if_neg (Bool.eq_false_iff.1 h)]

theorem mem_captureDue (h : k ∈ s.captureDue true) :
    (s.chan k).armed = true ∧ (s.chan k).mode = 2 ∧ (s.chan k).filt = 0 := by
  have due := (List.mem_filter.1 h).2
  simp only [Bool.and_eq_true, decide_eq_true_eq, Bool.not_true, Bool.false_or] at due
  obtain ⟨⟨⟨armed, mode⟩, filt⟩, -⟩ := due
  exact ⟨armed, mode, filt⟩

/-- A filter with N = 0 passes the new level of its pin at once, as an edge. -/
theorem captureTick_pass (hf : (s.chan k).filt = 0) (hl : s.pin (s.chan k).capSrc.toNat = e)
    (hs : (s.chan k).seen ≠ e) :
    captureTick k s = captureEdge k e (s.setChan k { s.chan k with seen := e, seenFor := 0 }) := by
  simp [captureTick, hf, filterStep_pass, hl, hs.symm]

theorem captureEdge_ignored (h : x.counts e = false) : captureEdge k e (s.setChan k x) = s.setChan k x := by
  simp [captureEdge, h]

/-- Channel x after it has captured its base value. -/
def State.capturing (s : State) (x : Chan) : Chan :=
  { x with cap := s.baseValue x, captured := true, overrun := x.overrun || x.captured, edges := 0 }

/-- An edge that an armed capture channel counts: it is captured where the prescaler has run out, and else counted. -/
theorem captureEdge_counts (hm : s.on domMGT = true) (ha : x.armed = true) (h2 : x.mode = 2) (hc : x.counts e = true) :
    captureEdge k e (s.setChan k x) =
      if x.presc.toNat ≤ x.edges then
        forEachAny (if x.captured then [32 + k, 64 + k] else [32 + k]) raise (s.setChan k (s.capturing x))
      else s.setChan k { x with edges := x.edges + 1 } := by
  have on : (s.setChan k x).on domMGT = true := hm
  have base : (s.setChan k x).baseValue x = s.baseValue x := rfl
  simp [captureEdge, on, ha, h2, hc, base, State.capturing]

theorem captureEdge_prescaled (hm : s.on domMGT = true) (ha : x.armed = true) (h2 : x.mode = 2)
    (hc : x.counts e = true) (hp : x.edges < x.presc.toNat) :
    captureEdge k e (s.setChan k x) = s.setChan k { x with edges := x.edges + 1 } :=
  (captureEdge_counts hm ha h2 hc).trans (if_neg (Nat.not_le.2 hp))

theorem captureEdge_first (hm : s.on domMGT = true) (ha : x.armed = true) (h2 : x.mode = 2) (hc : x.counts e = true)
    (hp : x.presc.toNat ≤ x.edges) (hn : x.captured = false) :
    captureEdge k e (s.setChan k x) = raise (32 + k) (s.setChan k (s.capturing x)) := by
  rw [captureEdge_counts hm ha h2 hc, if_pos hp, if_neg (Bool.eq_false_iff.1 hn), forEachAny_singleton]

theorem captureEdge_overrun (hm : s.on domMGT = true) (ha : x.armed = true) (h2 : x.mode = 2) (hc : x.counts e = true)
    (hp : x.presc.toNat ≤ x.edges) (ho : x.captured = true) : captureEdge k e (s.setChan k x) =
      forEachAny [32 + k, 64 + k] raise (s.setChan k (s.capturing x)) := by
  rw [captureEdge_counts hm ha h2 hc, if_pos hp, if_pos ho]

/-! ## Matches (R424, R426, R427, R428) -/

theorem timeMatch_equal (hm : s.on domMGT = true) (ha : (s.chan k).armed = true) (hc : (s.chan k).mode = 1)
    (hb : (s.chan k).base = 0) (ht : (s.chan k).cmp = s.wbk.time) (hn : (s.chan k).matched = false) :
    timeMatch k s = matchAndStop k s := if_pos ⟨hm, ha, hc, by simp [Chan.timeBase, hb], ht, by simp [hn]⟩

theorem Chan.act_none (h : x.action = 0) : x.act = x := by simp [Chan.act, h]

@[simp] theorem Chan.act_lport (x : Chan) : x.act.lport = x.lport := by unfold Chan.act; split <;> rfl

@[simp] theorem Chan.match_lport (x : Chan) (step : BitVec 32) : (x.match step).lport = x.lport := Chan.act_lport _

/-- Auto-add in a time base is addition modulo 2^40, of a step that is 0 too. -/
theorem autoAdd_eq (c : BitVec 40) (step : BitVec 32) :
    (if step = 0 then c else c + step.zeroExtend 40) = BitVec.ofNat 40 (c.toNat + step.toNat) := by
  split
  · next h => simp [h]
  · bv_omega

theorem remain_eq (r : BitVec 16) : (if r = 0 then 0 else r - 1) = r - (if r = 0 then 0 else 1) := by
  split
  · next h => simp [h]
  · rfl

theorem Chan.match_time {step : BitVec 32} (hb : x.base = 0) (ha : x.action = 0) : x.match step = { x with
    cmp := BitVec.ofNat 40 (x.cmp.toNat + step.toNat), matched := true
    remain := x.remain - (if x.remain = 0 then 0 else 1), armed := x.armed && !(x.remain == 1) } := by
  have time : x.timeBase = true := by simp [Chan.timeBase, hb]
  have last : decide (x.remain ≠ 1) = !(x.remain == 1) := decide_not
  simp only [Chan.match, time, if_true, autoAdd_eq, remain_eq, last]
  exact Chan.act_none ha

theorem routeTrigger_none (h : (s.chan k).lport = 0) : routeTrigger k s = s := if_neg (by simp [h])

theorem forEach_raise_chan (l : List Nat) (s : State) : (forEach l raise s).chan k = s.chan k := by
  unfold forEach
  induction l generalizing s with
  | nil => rfl
  | cons n l ih => exact ih (raise n s)

theorem forEachAny_raise_chan (l : List Nat) (s : State) : (forEachAny l raise s).chan k = s.chan k := by
  rw [forEachAny]
  split
  · exact forEach_raise_chan l s
  · exact forEach_raise_chan _ s.draw.2

/-- A match of a channel without a route is its new registers and its events. -/
theorem matchChannel_unrouted (h : (s.chan k).lport = 0) : matchChannel k s =
    forEachAny (if (s.chan k).remain = 1 then [32 + k, 48 + k] else [32 + k]) raise
      (s.setChan k ((s.chan k).match (s.stepOf k))) :=
  routeTrigger_none (by rw [forEachAny_raise_chan, State.chan_setChan_same, Chan.match_lport, h])

/-- A channel that is the trigger channel of no enabled port adds its own STEP. -/
theorem stepOf_own (h : ∀ p < 4, (s.port p).enable = false ∨ (s.port p).trigCh ≠ k) : s.stepOf k = (s.chan k).step := by
  have ownStep : portsAll.find? (fun p => (s.port p).enable && (s.port p).trigCh == k) = none := by
    refine List.find?_eq_none.2 fun p hp => ?_
    rcases h p (List.mem_range.1 hp) with h | h <;> simp [h]
  simp only [State.stepOf, ownStep]

/-! ## The commands -/

theorem exec_channelCtlWrite_go {k : Fin 16} (h : access q (.blk (baseCH k)) true s = .go)
    (ho : q = .fn 0 → s.owned k = false) : exec (.channelCtlWrite q k v) s = .next (channelCtl q k v s) :=
  congrArg Host.Outcome.next ((regWrite_go h).trans (guardOwned_allowed ho))

theorem exec_capRead_go {k : Fin 16} (h : access q (.blk (baseCH k + 0x18)) false s = .go) :
    exec (.capRead q k) s = .next { s.setChan k { s.chan k with
        capHi := (s.chan k).cap.extractLsb' 32 8, captured := false } with
      rdata := ((s.chan k).cap.extractLsb' 0 32).zeroExtend 64 } := congrArg Host.Outcome.next (regRead_go h)

/-- A pin that one capture channel with N = 0 watches takes a level that its filter has not shown. -/
theorem exec_capture_edge {k : Fin 16} {i : Fin 28} (hd : s.drivenOther i e = false)
    (hp : (s.setPins (setBit s.wbk.pins i e)).posDue true = [])
    (hc : (s.setPins (setBit s.wbk.pins i e)).captureDue true = [k.val])
    (hi : (s.chan k).capSrc.toNat = i) (hs : (s.chan k).seen ≠ e) : exec (.capture i e) s = .next (captureEdge k e
      ((s.setPins (setBit s.wbk.pins i e)).setChan k { s.chan k with seen := e, seenFor := 0 })) := by
  obtain ⟨-, -, filt⟩ := mem_captureDue (hc ▸ List.mem_singleton_self _)
  have level : (s.setPins (setBit s.wbk.pins i e)).pin (s.chan k).capSrc.toNat = e := by
    rw [hi]; exact bit_setBit_same _ _ i.isLt
  have passes := captureTick_pass (s := s.setPins (setBit s.wbk.pins i e)) filt level hs
  exact congrArg Host.Outcome.next ((pinChange_free hd).trans
    ((pinLevels_one ..).trans ((runFilters_capture hp hc).trans passes)))

/-- Settles O42: the writes of CTL and of CMP, the compare in time, the pins and the captures, the read of CAP, the end
of a pulse; then the match. -/
theorem channels : Obligations.Channels := by
  refine ⟨⟨?ctl, ?reshape, ?cmp, ?time, ?capture, ?read, ?pulse⟩, ?fires⟩
  case ctl => exact fun _ _ _ _ h ho ha hv hb hm hc =>
    (exec_channelCtlWrite_go h ho).trans (congrArg Host.Outcome.next (channelCtl_disarmed ha hv hb hm hc))
  case reshape => exact fun _ _ _ _ h ho ha hr =>
    (exec_channelCtlWrite_go h ho).trans (congrArg Host.Outcome.next (channelCtl_reshaped ha hr))
  case cmp => exact fun _ _ _ _ _ h =>
    ⟨fun ho => congrArg Host.Outcome.next ((regWrite_go h).trans (guardOwned_allowed ho)),
      fun ho hq => congrArg Host.Outcome.next ((regWrite_go h).trans (guardOwned_refused hq ho))⟩
  case time => exact fun _ _ hm ha hc hb ht hn => congrArg Host.Outcome.next (timeMatch_equal hm ha hc hb ht hn)
  case capture =>
    intro i e s u
    refine ⟨fun hd => ?driven, fun k hd hp hc hm hi hs => ?free⟩
    case driven =>
      obtain ⟨l, sees⟩ := pinChange_driven hd
      exact ⟨l, congrArg Host.Outcome.next sees⟩
    case free =>
      intro x y
      obtain ⟨armed, mode, -⟩ := mem_captureDue (s := u) (hc ▸ List.mem_singleton_self _)
      have edge {t : State} (h : captureEdge k e (u.setChan k x) = t) : exec (.capture i e) s = .next t :=
        (exec_capture_edge hd hp hc hi hs).trans (congrArg Host.Outcome.next h)
      refine ⟨fun h => ?ignored, fun h hl => ?prescaled, fun h hl hn => ?first, fun h hl ho => ?overrun⟩
      case ignored => exact edge (captureEdge_ignored h)
      case prescaled => exact edge (captureEdge_prescaled hm armed mode h hl)
      case first => exact edge (captureEdge_first (s := u) (x := x) hm armed mode h hl hn)
      case overrun => exact edge (captureEdge_overrun (s := u) (x := x) hm armed mode h hl ho)
  case read => exact fun _ _ _ => exec_capRead_go
  case pulse => exact fun _ _ h => congrArg Host.Outcome.next (if_pos h)
  case fires =>
    intro k s hb hl ha x y
    have moves : x.match (s.stepOf k) = y := Chan.match_time hb ha
    refine ⟨fun hr => ?more, fun hr => ?last, stepOf_own⟩
    case more => rw [matchChannel_unrouted hl, if_neg hr, forEachAny_singleton, moves]
    case last => rw [matchChannel_unrouted hl, if_pos hr, moves]

end Sys2Proof.Machine
end

section
/-!
PROOFS. A step runs the front command (O1), every command answers (O2), and the card at reset (O3, O5).
-/
namespace Sys2Proof.Machine

variable {c : Instr} {s t : State}

/-! ## The step (log 1) -/

/-- Settles O1: the front command, and the tick of an empty queue. -/
theorem stepRunsFront : Obligations.StepRunsFront := by
  refine ⟨fun _ _ _ => rfl, fun s empty => ?tick⟩
  case tick => rw [step, empty]

/-! ## Every command answers -/

/-- A command answers a next state, or the fault of ill-formed data. -/
def Answers (r : Result) : Prop := (∃ t, r = .next t) ∨ r = .fault .malformed

theorem answers_next : Answers (.next t) := .inl ⟨t, rfl⟩

/-- A check of form decides which. -/
theorem answers_ite {p : Prop} [Decidable p] : Answers (if p then .next t else .fault .malformed) := by
  split
  · exact answers_next
  · exact .inr rfl

/-- What a check of form lets through goes on. -/
theorem next_of_form {p : Prop} [Decidable p] {f : Fault} (h : p) :
    ∃ u, (if p then .next t else .fault f : Result) = .next u := ⟨t, if_pos h⟩

theorem exec_answers (c : Instr) (s : State) : Answers (exec c s) := by
  cases c with
  | registerWrite => exact answers_ite
  | registerRead => exact answers_ite
  | tempSample => exact answers_ite
  | linkTrain => exact answers_ite
  | chimeLineData => exact answers_ite
  | descriptorFetch => exact answers_ite
  | lineStored => exact answers_ite
  | flitDiscard => exact answers_ite
  | firstFlit => exact answers_ite
  | contFlit => exact answers_ite
  | abortFlit => exact answers_ite
  | answerFlit => exact answers_ite
  | _ => exact answers_next

/-- A command that can reach the card in a state passes its check of form. -/
theorem exec_next_of_takes (h : s.takes c = true) : ∃ t, exec c s = .next t := by
  obtain ⟨formed, fits⟩ := Bool.and_eq_true_iff.1 h
  cases c with
  | registerWrite => exact next_of_form (of_decide_eq_true formed)
  | registerRead => exact next_of_form (of_decide_eq_true formed)
  | tempSample => exact next_of_form (of_decide_eq_true formed)
  | linkTrain =>
    obtain ⟨width, speed⟩ := Bool.and_eq_true_iff.1 formed
    exact next_of_form ⟨width, of_decide_eq_true speed⟩
  | chimeLineData => exact next_of_form (of_decide_eq_true formed)
  | descriptorFetch =>
    obtain ⟨count, whole⟩ := Bool.and_eq_true_iff.1 formed
    obtain ⟨least, most⟩ := of_decide_eq_true count
    exact next_of_form ⟨least, most, whole⟩
  | lineStored => exact next_of_form (Bool.or_eq_true_iff.1 fits)
  | flitDiscard => exact next_of_form (of_decide_eq_true formed)
  | firstFlit => exact next_of_form (of_decide_eq_true formed)
  | contFlit => exact next_of_form (of_decide_eq_true formed)
  | abortFlit => exact next_of_form (of_decide_eq_true formed)
  | answerFlit => exact next_of_form (of_decide_eq_true formed)
  | _ => exact ⟨_, rfl⟩

/-- Settles O2. -/
theorem everyCommandCompletes : Obligations.EveryCommandCompletes := ⟨exec_answers, fun _ _ => exec_next_of_takes⟩

/-! ## The card at reset -/

/-- Settles O3: each limited field has its reset value. -/
theorem resetInvariant : Obligations.ResetInvariant :=
  .of_parts ⟨cellsOk_reset, ueOk_reset, patrolOk_reset⟩ ⟨capOk_reset, vsetOk_reset⟩ ⟨wdogOk_reset⟩ ⟨sliceOk_reset⟩
    ⟨splitOk_reset⟩ ⟨bwdogOk_reset⟩

/-- Settles O5: the blocks' fields, and the tables, of which none has an entry. -/
theorem resetValues : Obligations.ResetValues :=
  ⟨rfl, rfl, rfl, rfl, rfl, rfl, rfl, rfl, rfl, rfl, rfl, rfl, fun _ => ⟨rfl, rfl, rfl, rfl⟩, fun _ => ⟨rfl, rfl⟩,
    fun _ _ => ⟨rfl, rfl⟩, fun _ => ⟨rfl, rfl⟩, fun _ => ⟨rfl, rfl⟩, fun _ => ⟨rfl, rfl⟩, fun _ => ⟨rfl, rfl⟩⟩

end Sys2Proof.Machine
end

section
/-!
PROOFS. Device memory as a store of bytes (O6), the layout of a completion entry (O20, Table 6-5), and the selection of a
source (O25).
-/
namespace Sys2Proof.Machine

variable {s : State}

/-- Settles O6. -/
theorem memoryByteLaws : Obligations.MemoryByteLaws := fun s a b x =>
  ⟨s.byte_setByte_same a x, fun other => (s.byte_setByte a b x).trans (if_neg other), fun wf => Tbl.wf_put 0 a x wf⟩

/-! ## Fields of a structure in bytes (R12) -/

@[simp] theorem length_leBytes (n v : Nat) : (leBytes n v).length = n := by
  induction n generalizing v with
  | zero => rfl
  | succ n ih => rw [leBytes, List.length_cons, ih]

theorem ofLe_leBytes (n v : Nat) : ofLe (leBytes n v) = v % 256 ^ n := by
  induction n generalizing v with
  | zero => simp [leBytes, ofLe, Nat.mod_one]
  | succ n ih => rw [leBytes, ofLe, ih, BitVec.toNat_ofNat, Nat.pow_succ' (m := 256), Nat.mod_mul]

/-- A slice that starts behind a first part. -/
theorem slice_append_right (pre bs : List Byte) (off n : Nat) :
    slice (pre ++ bs) (pre.length + off) n = slice bs off n :=
  List.map_congr_left fun i _ => by
    rw [Nat.add_assoc, List.getD_append_right _ _ _ _ (Nat.le_add_right ..), Nat.add_sub_cancel_left]

/-- A slice at the front. -/
theorem slice_append_front (bs post : List Byte) : slice (bs ++ post) 0 bs.length = bs := by
  refine List.ext_getElem (by simp [slice]) fun i h _ => ?_
  have inside : i < bs.length := by simpa [slice] using h
  simp [slice, List.getElem?_append_left, inside]

/-- The bytes of fields, each a width in bytes and a number, lowest first. -/
def fieldBytes (fs : List (Nat × Nat)) : List Byte := fs.flatMap fun f => leBytes f.1 f.2

theorem length_fieldBytes (fs : List (Nat × Nat)) : (fieldBytes fs).length = (fs.map (·.1)).sum := by
  simp [fieldBytes, List.length_flatMap]

/-- A field stands behind the widths of the fields before it. -/
theorem le_fieldBytes (fs : List (Nat × Nat)) (k : Nat) (hk : k < fs.length) :
    le (fieldBytes fs) ((fs.take k).map (·.1)).sum fs[k].1 = fs[k].2 % 256 ^ fs[k].1 := by
  have parts : fieldBytes fs = fieldBytes (fs.take k) ++ (leBytes fs[k].1 fs[k].2 ++ fieldBytes (fs.drop (k + 1))) := by
    conv_lhs => rw [← List.take_append_drop k fs, List.drop_eq_getElem_cons hk]
    simp only [fieldBytes, List.flatMap_append, List.flatMap_cons]
  have front := slice_append_front (leBytes fs[k].1 fs[k].2) (fieldBytes (fs.drop (k + 1)))
  rw [length_leBytes] at front
  rw [le, parts, ← length_fieldBytes]
  exact (congrArg ofLe ((slice_append_right _ _ 0 _).trans front)).trans (ofLe_leBytes ..)

/-- The fields of a completion entry, in their order (Table 6-5). -/
def entryFields (phase r : Nat) (jobId : BitVec 32) (stamp : BitVec 48) (c : Cpl) (seq : BitVec 32) : List (Nat × Nat) :=
  [(1, phase), (1, c.status.toNat), (1, c.flags.toNat), (1, r), (4, jobId.toNat), (6, stamp.toNat), (2, c.detail.toNat),
    (8, c.tileUs.toNat), (4, c.outBytes.toNat), (4, seq.toNat)]

theorem entryBytes_eq (phase r : Nat) (jobId : BitVec 32) (stamp : BitVec 48) (c : Cpl) (seq : BitVec 32) :
    entryBytes phase r jobId stamp c seq = fieldBytes (entryFields phase r jobId stamp c seq) := by
  simp [entryBytes, fieldBytes, entryFields, List.append_assoc]

/-- Settles O20: each field fits its width. -/
theorem completionEntryLayout : Obligations.CompletionEntryLayout := by
  intro ph r j i st c hph hr b
  have bytes : b = fieldBytes (entryFields ph r j st c i) := entryBytes_eq ..
  have field (k : Nat) (hk : k < (entryFields ph r j st c i).length) := bytes ▸ le_fieldBytes _ k hk
  refine ⟨bytes ▸ length_fieldBytes _, ?phase, ?status, ?flags, ?ring, ?job, ?stamp, ?detail, ?tile, ?out, ?index⟩
  case phase => exact (field 0 (Nat.lt_of_sub_eq_succ rfl)).trans (Nat.mod_eq_of_lt hph)
  case status => exact (field 1 (Nat.lt_of_sub_eq_succ rfl)).trans (Nat.mod_eq_of_lt c.status.isLt)
  case flags => exact (field 2 (Nat.lt_of_sub_eq_succ rfl)).trans (Nat.mod_eq_of_lt
    (c.flags.isLt.trans (Nat.pow_lt_pow_right Nat.one_lt_two (by decide : 4 < 8))))
  case ring => exact (field 3 (Nat.lt_of_sub_eq_succ rfl)).trans (Nat.mod_eq_of_lt hr)
  case job => exact (field 4 (Nat.lt_of_sub_eq_succ rfl)).trans (Nat.mod_eq_of_lt j.isLt)
  case stamp => exact (field 5 (Nat.lt_of_sub_eq_succ rfl)).trans (Nat.mod_eq_of_lt st.isLt)
  case detail => exact (field 6 (Nat.lt_of_sub_eq_succ rfl)).trans (Nat.mod_eq_of_lt c.detail.isLt)
  case tile => exact (field 7 (Nat.lt_of_sub_eq_succ rfl)).trans (Nat.mod_eq_of_lt c.tileUs.isLt)
  case out => exact (field 8 (Nat.lt_of_sub_eq_succ rfl)).trans (Nat.mod_eq_of_lt c.outBytes.isLt)
  case index => exact (field 9 (Nat.lt_of_sub_eq_succ rfl)).trans (Nat.mod_eq_of_lt i.isLt)

/-! ## The selection (R238) -/

theorem no_source_before_selected {n : Nat} (h : s.selected n = true) {e : Nat × Src} (he : e ∈ s.car.srcs) :
    e.1 = n ∨ (s.presentable e.1 && !e.2.mask && decide (e.2.target = (s.src n).target) && s.before e.1 n) = false := by
  simp only [State.selected, Bool.and_eq_true, List.all_eq_true] at h
  have first := h.2 e he
  rwa [Bool.or_eq_true, beq_iff_eq, Bool.not_eq_true'] at first

/-- Settles O25. -/
theorem selectionIsFirst : Obligations.SelectionIsFirst := by
  intro n m s selected other listed ready unmasked sameCore
  rcases no_source_before_selected selected listed with same | later
  · exact absurd same other
  · simpa [ready, unmasked, sameCore] using later

end Sys2Proof.Machine
end

section
/-!
PROOFS. The Shaker's limits (O49, R487), the spanning tags (O55, R565) and the fault record (O57, R573, R574, R578).
-/
namespace Sys2Proof.Machine

/-! ## The Shaker (R487) -/

theorem neg_le_drawn (x : BitVec 32) (j : Nat) : -(j : Int) ≤ drawn x j := by
  have : (0 : Int) ≤ (x.toNat : Int) % (2 * j + 1) := Int.emod_nonneg _ (by omega)
  unfold drawn; omega

theorem drawn_le (x : BitVec 32) (j : Nat) : drawn x j ≤ j := by
  have : (x.toNat : Int) % (2 * j + 1) < 2 * j + 1 := Int.emod_lt_of_pos _ (by omega)
  unfold drawn; omega

theorem gained_le (a o : Int) (u : Nat) : gained a o u ≤ 255 := by simp only [gained]; omega

/-- Without gain and offset a sample stays: 256 u / 256 leaves no remainder to round. -/
theorem gained_zero {u : Nat} (h : u ≤ 255) : gained 0 0 u = u := by
  have whole : ((256 + 0) * u + 256 * 0 : Int) = 256 * u := by omega
  have quotient : (256 * u : Int) / 256 = u := Int.mul_ediv_cancel_left _ (by decide)
  have remainder : (256 * u : Int) % 256 = 0 := Int.mul_emod_right ..
  simp only [gained, whole, quotient, remainder]
  omega

/-- Settles O49. -/
theorem shakerLimits : Obligations.ShakerLimits :=
  ⟨fun x j => ⟨neg_le_drawn x j, drawn_le x j⟩, gained_le, fun _ => gained_zero⟩

/-! ## Spanning tags (R565) -/

variable {unit : BitVec 12} {key : BitVec 32} {s : State}

/-- The indices that no key holds. -/
def State.freeSpans (s : State) : List Nat :=
  (List.range 8192).filter (fun i => s.chn.tags.all (fun g => g.index != i))

theorem mem_freeSpans {i : Nat} : i ∈ s.freeSpans ↔ i < 8192 ∧ ∀ g ∈ s.chn.tags, g.index ≠ i := by
  simp [State.freeSpans]

theorem freeSpans_eq_nil_iff : s.freeSpans = [] ↔ ∀ i < 8192, ∃ g ∈ s.chn.tags, g.index = i := by
  simp [List.eq_nil_iff_forall_not_mem, mem_freeSpans]

theorem grantSpan_held {g : SpanTag} (h : s.chn.tags.find? (fun g => g.key == key) = some g) :
    (grantSpan unit key s).1 = some g.index := by simp only [grantSpan, h]

section
variable (h : s.chn.tags.find? (fun g => g.key == key) = none)
include h

theorem grantSpan_full (hf : s.freeSpans = []) : (grantSpan unit key s).1 = none := by
  simp only [grantSpan, h, State.freeSpans] at hf ⊢
  simp [hf]

theorem grantSpan_fresh (hf : s.freeSpans ≠ []) : ∃ i ∈ s.freeSpans, (grantSpan unit key s).1 = some i := by
  have nonempty : 0 < s.freeSpans.length := List.length_pos_iff.2 hf
  have inside := Nat.mod_lt (Config.fresh s.free) nonempty
  refine ⟨_, List.getElem_mem inside, ?_⟩
  have some_free : ¬ s.freeSpans.isEmpty = true := by simpa using hf
  unfold grantSpan
  simp only [h]
  refine (congrArg Prod.fst (if_neg some_free)).trans (congrArg some ?_)
  exact List.getD_eq_getElem _ _ inside

theorem grantSpan_none_iff : (grantSpan unit key s).1 = none ↔ s.freeSpans = [] := by
  refine ⟨fun none => ?_, grantSpan_full h⟩
  by_contra hf
  obtain ⟨i, -, given⟩ := grantSpan_fresh (unit := unit) h hf
  exact absurd (none.symm.trans given) (by simp)

theorem grantSpan_mem {i : Nat} (hi : (grantSpan unit key s).1 = some i) : i ∈ s.freeSpans := by
  have hf : s.freeSpans ≠ [] := fun full => by simp [grantSpan_full h full] at hi
  obtain ⟨k, free, given⟩ := grantSpan_fresh (unit := unit) h hf
  exact Option.some.inj (hi.symm.trans given) ▸ free

end

/-- Settles O55: the key that holds an index, and the new key. -/
theorem spanningTags : Obligations.SpanningTags := fun _ _ _ =>
  ⟨fun _ => grantSpan_held, fun h =>
    ⟨fun _ hi => mem_freeSpans.1 (grantSpan_mem h hi), (grantSpan_none_iff h).trans freeSpans_eq_nil_iff⟩⟩

/-! ## The fault record (R573, R574, R578) -/

theorem fld_eq_toNat_extractLsb' {n : Nat} (v : BitVec n) (lo w : Nat) : fld v lo w = (v.extractLsb' lo w).toNat := by
  rw [fld, BitVec.extractLsb'_toNat, Nat.shiftRight_eq_div_pow]

variable {f : Finding} {d n : Nat}

theorem fire_count (f : Finding) (s : State) :
    (fire f s).flt.cnt.find 0 f.detector = satInc (s.flt.cnt.find 0 f.detector) := by
  rw [fire_flt]; exact Tbl.find_put_same ..

theorem fire_count_other (h : d ≠ f.detector) : (fire f s).flt.cnt.find 0 d = s.flt.cnt.find 0 d := by
  rw [fire_flt]; exact Tbl.find_put_other _ _ _ h

theorem fire_recs (f : Finding) (s : State) :
    (fire f s).flt.recs = s.flt.recs.put [] (s.flt.next.toNat % 256) (recordWords f none s) := by rw [fire_flt]; rfl

theorem fire_record (f : Finding) (s : State) :
    (fire f s).flt.recs.find [] (s.flt.next.toNat % 256) = recordWords f none s := by
  rw [fire_recs]; exact Tbl.find_put_same ..

theorem fire_record_other (h : n ≠ s.flt.next.toNat % 256) :
    (fire f s).flt.recs.find [] n = s.flt.recs.find [] n := by
  rw [fire_recs]; exact Tbl.find_put_other _ _ _ h

theorem recordWords_none (f : Finding) (s : State) : recordWords f none s =
    [ s.flt.next, s.gng.next.extractLsb' 0 32,
      pack [(24, f.detector), (20, f.level), (0, (s.gng.next.extractLsb' 32 16).toNat)],
      pack [(16, f.location % 65536)], 0, BitVec.ofNat 32 f.info0, BitVec.ofNat 32 f.info1,
      pack [(0, s.gng.era.toNat)] ] := by
  rw [← fld_eq_toNat_extractLsb']; rfl

/-- Settles O57: the number, the record and the other records, the count and the other counts, and the frame. -/
theorem faultRecord : Obligations.FaultRecord := fun f s =>
  ⟨by rw [fire_flt]; rfl, (fire_record f s).trans (recordWords_none f s), fun _ => fire_record_other, fire_count f s,
    fun _ => fire_count_other, fire_mem f, fire_grd f, fire_sch f, fire_rings f⟩

end Sys2Proof.Machine
end

section
/-!
PROOFS. What the operations of a port and of its channels leave of the ports (R428, R437, R454), and what a stop leaves
of the port it stops (R459, R463, R464).
-/
namespace Sys2Proof.Machine

variable {s : State} {p m k : Nat} {err : BitVec 4} {x y : Port}

/-! ## What each turn of a loop keeps, the loop keeps -/

theorem forEach_keeps {α β : Type} {f : α → State → State} {g : State → β} (hf : ∀ a s, g (f a s) = g s) (l : List α)
    (s : State) : g (forEach l f s) = g s := by
  unfold forEach
  induction l generalizing s with
  | nil => rfl
  | cons a l ih => exact (ih (f a s)).trans (hf a s)

theorem forEachAny_keeps {α β : Type} {f : α → State → State} {g : State → β} (hf : ∀ a s, g (f a s) = g s)
    (hd : ∀ s : State, g s.draw.2 = g s) (l : List α) (s : State) : g (forEachAny l f s) = g s := by
  rw [forEachAny]
  split
  · exact forEach_keeps hf l s
  · exact (forEach_keeps hf _ s.draw.2).trans (hd s)

theorem rescaleStack_rol (k : Nat) (s : State) : (rescaleStack k s).rol = s.rol := by
  simp only [rescaleStack]; split <;> rfl

@[simp] theorem rescale_rol (s : State) : (rescale s).rol = s.rol := forEach_keeps rescaleStack_rol _ s

theorem rescaleStack_wbk (k : Nat) (s : State) : (rescaleStack k s).wbk = s.wbk := by
  simp only [rescaleStack]; split <;> rfl

@[simp] theorem rescale_wbk (s : State) : (rescale s).wbk = s.wbk := forEach_keeps rescaleStack_wbk _ s

@[simp] theorem rescale_port (p : Nat) (s : State) : (rescale s).port p = s.port p := by
  rw [State.port, rescale_rol]; rfl

/-! ## A stop (R454, R463, R464) -/

theorem motionStop_port (p m : Nat) (s : State) :
    (motionStop p s).port m = if m = p then { s.port p with moving := false } else s.port m := by
  simp only [motionStop]
  split
  · exact State.port_setPort ..
  · split <;> exact State.port_setPort ..

@[simp] theorem motionStop_mem (p : Nat) (s : State) : (motionStop p s).mem = s.mem := by
  simp only [motionStop]
  split
  · rfl
  · split <;> rfl

theorem forEach_disarm_port (l : List Nat) (p : Nat) (s : State) : (forEach l disarm s).port p = s.port p :=
  forEach_keeps (f := disarm) (g := fun s => s.port p) (fun _ _ => rfl) l s

/-- A port that is disabled. -/
def Port.disabled (x : Port) (err : BitVec 4) : Port :=
  { x with enable := false, state := .off, err := err, parts := [], issued := [], requests := [], moving := false
           ltrig := 0, exsync := 0, mfltStop := false, retrain := false }

theorem portOff_port (p m : Nat) (err : BitVec 4) (s : State) :
    (portOff p err s).port m = if m = p then (s.port p).disabled err else s.port m := by
  simp only [portOff, rescale_port, State.port_setPort, forEach_disarm_port, motionStop_port, if_true]
  split <;> rfl

theorem portOff_port_same (p : Nat) (err : BitVec 4) (s : State) :
    (portOff p err s).port p = (s.port p).disabled err := (portOff_port ..).trans (if_pos rfl)

theorem raise_port (n p : Nat) (s : State) : (raise n s).port p = s.port p := rfl

theorem portStop_port_same (he : (s.port p).enable = true) :
    (portStop p err s).port p = (s.port p).disabled err := by
  rw [portStop, if_pos he, raise_port, portOff_port_same]

theorem portStop_port_other (h : m ≠ p) : (portStop p err s).port m = s.port m := by
  rw [portStop]
  split
  · rw [raise_port, portOff_port, if_neg h]
  · rfl

/-- The followers of a port are other ports. -/
@[simp] theorem stopFollowers_port (p : Nat) (s : State) : (stopFollowers p s).port p = s.port p :=
  forEach_keeps (g := fun s => s.port p) (fun q s => by
    dsimp only
    split
    · next h => exact portStop_port_other (Ne.symm h.1)
    · rfl) _ s

theorem portStopGroup_port (he : (s.port p).enable = true) :
    (portStopGroup p err s).port p = (s.port p).disabled err := by
  rw [portStopGroup, stopFollowers_port, portStop_port_same he]

/-! ## Channels and motion (R428, R437, R454) -/

/-- What arming a channel and starting or stopping motion leave of a port: all but its motion and its requests. -/
def Port.still (x : Port) : Port := { x with moving := false, requests := [] }

/-- An operation leaves all of each port but its motion and its requests. -/
def StillPorts (f : State → State) : Prop := ∀ (p : Nat) (s : State), ((f s).port p).still = (s.port p).still

theorem raise_stillPorts (n : Nat) : StillPorts (raise n) := fun _ _ => rfl

theorem force_stillPorts (k : Nat) (v : BitVec 2) : StillPorts (force k v) := fun _ _ => rfl

theorem routeTrigger_stillPorts (k : Nat) : StillPorts (routeTrigger k) := by
  intro p s
  simp only [routeTrigger]
  split
  · rw [State.port_setPort]
    split
    · next h => rw [h]; rfl
    · rfl
  · rfl

theorem forEachAny_raise_port (l : List Nat) (p : Nat) (s : State) : (forEachAny l raise s).port p = s.port p :=
  forEachAny_keeps (g := fun s => s.port p) (fun n s => raise_port n p s) (fun _ => rfl) l s

theorem matchChannel_stillPorts (k : Nat) : StillPorts (matchChannel k) := by
  intro p s
  rw [matchChannel, routeTrigger_stillPorts, forEachAny_raise_port]
  rfl

theorem armChannel_stillPorts (k : Nat) : StillPorts (armChannel k) := by
  intro p s
  simp only [armChannel]
  split
  · split
    · rfl
    · split
      · exact matchChannel_stillPorts k p _
      · rfl
  · rfl

theorem setDirection_stillPorts (p : Nat) (fwd : Bool) : StillPorts (setDirection p fwd) := by
  intro q s; simp only [setDirection]; split <;> rfl

theorem setMoving_still (p q : Nat) (b : Bool) (s : State) :
    ((s.setPort p { s.port p with moving := b }).port q).still = (s.port q).still := by
  rw [State.port_setPort]
  split
  · next h => rw [h]; rfl
  · rfl

theorem startMotion_stillPorts (p : Nat) : StillPorts (startMotion p) := by
  intro q s
  have moving := setMoving_still p q true s
  simp only [startMotion]
  split
  · rfl
  · split
    · exact (armChannel_stillPorts _ q _).trans moving
    · exact moving

theorem motionStop_stillPorts (p : Nat) : StillPorts (motionStop p) := by
  intro q s
  rw [motionStop_port]
  split
  · next h => rw [h]; rfl
  · rfl

theorem motionAsked_stillPorts (p : Nat) : StillPorts (motionAsked p) := by
  intro q s
  simp only [motionAsked]
  split
  · exact (startMotion_stillPorts p q _).trans (setDirection_stillPorts p true q s)
  · exact motionStop_stillPorts p q s

end Sys2Proof.Machine
end

section
/-!
PROOFS. A trigger that is refused (R456, R457, R459) stops its group and fixes Q; and the settling of O45.
-/
namespace Sys2Proof.Machine

variable {s : State} {p m : Nat} {pos : BitVec 32}

/-! ## A stop begins (R457 step 1, R459) -/

/-- A member of a group whose stop begins. -/
def Port.stops (x : Port) : Port := if x.state = .run ∨ x.state = .runup then { x with state := .stopping } else x

theorem Port.stops_running {x : Port} (h : x.state = .run ∨ x.state = .runup) : x.stops = { x with state := .stopping } :=
  if_pos h

@[simp] theorem Port.stops_stops (x : Port) : x.stops.stops = x.stops := by
  by_cases h : x.state = .run ∨ x.state = .runup
  · rw [stops_running h]; exact if_neg (by simp)
  · have same : x.stops = x := if_neg h
    rw [same, same]

/-- One member's turn in a stop that begins. -/
def stopTurn (m : Nat) (s : State) : State :=
  let x := s.port m
  if x.state = .run ∨ x.state = .runup then s.setPort m { x with state := .stopping } else s

theorem stopBegin_eq (p : Nat) (s : State) :
    stopBegin p s = forEach (s.group p) stopTurn (motionStop (s.leaderOf p) s) := rfl

theorem stopTurn_port (m q : Nat) (s : State) :
    (stopTurn m s).port q = if q = m then (s.port q).stops else s.port q := by
  simp only [stopTurn, Port.stops]
  split
  · next running =>
    rw [State.port_setPort]
    split
    · next same => rw [same, if_pos running]
    · rfl
  · next idle =>
    split
    · next same => rw [same, if_neg idle]
    · rfl

theorem forEach_stopTurn_port (l : List Nat) (q : Nat) (s : State) :
    (forEach l stopTurn s).port q = if q ∈ l then (s.port q).stops else s.port q := by
  unfold forEach
  induction l generalizing s with
  | nil => simp
  | cons m l ih =>
    rw [List.foldl_cons, ih, stopTurn_port]
    by_cases same : q = m <;> by_cases later : q ∈ l <;> simp [same, later]

theorem mem_group (hp : p < 4) (he : (s.port p).enable = true) : p ∈ s.group p := by
  have listed : p ∈ portsAll := List.mem_range.2 hp
  exact List.mem_filter.2 ⟨listed, by simp [he]⟩

/-- A port in run stops; all else of it but its motion and its requests stays. -/
theorem stopBegin_still (hp : p < 4) (he : (s.port p).enable = true) (hr : (s.port p).state = .run) :
    ((stopBegin p s).port p).still = { (s.port p).still with state := .stopping } := by
  have still := motionStop_stillPorts (s.leaderOf p) p s
  have running : ((motionStop (s.leaderOf p) s).port p).state = .run := (congrArg Port.state still).trans hr
  rw [stopBegin_eq, forEach_stopTurn_port, if_pos (mem_group hp he), Port.stops_running (.inl running), ← still]
  rfl

@[simp] theorem stopBegin_mem (p : Nat) (s : State) : (stopBegin p s).mem = s.mem := by
  have turn (m : Nat) (s : State) : (stopTurn m s).mem = s.mem := by simp only [stopTurn]; split <;> rfl
  exact (forEach_keeps (g := State.mem) turn _ _).trans (motionStop_mem ..)

/-! ## Q is fixed (R457 step 3) -/

/-- The position at which a port restarts once the trigger at pos is refused: the lowest refused (log 136). -/
def Port.lowerQ (x : Port) (pos : BitVec 32) : BitVec 32 := x.q.elim pos (fun q => lowerPos q pos)

/-- A port whose trigger at pos is refused while it runs or stops. -/
def Port.refusing (x : Port) (pos : BitVec 32) : Port :=
  { x with q := some (x.lowerQ pos), refusedSince := true
           restartPos := if x.state.settled then x.lowerQ pos else x.restartPos }

theorem fixQ_port (p : Nat) (pos : BitVec 32) (s : State) : (fixQ p pos s).port p = (s.port p).refusing pos := by
  refine (State.port_setPort_same ..).trans ?_
  unfold Port.refusing Port.lowerQ
  cases (s.port p).q <;> rfl

theorem fixQ_chan (p : Nat) (pos : BitVec 32) (s : State) :
    ((fixQ p pos s).chan (s.port p).trigCh).armed = false :=
  congrArg Chan.armed (State.chan_setChan_same ..)

theorem fixQ_mem (p : Nat) (pos : BitVec 32) (s : State) : (fixQ p pos s).mem = s.mem := rfl

/-- The card once a refused trigger is counted, with its event. -/
def countRefused (p : Nat) (s : State) : State :=
  raise (96 + 16 * p) (s.setPort p { s.port p with refused := satInc (s.port p).refused })

theorem refuseTrigger_run (hr : (s.port p).state = .run) :
    refuseTrigger p pos s = fixQ p pos (stopBegin p (countRefused p s)) := by
  simp only [refuseTrigger, countRefused, hr]

theorem countRefused_port (p : Nat) (s : State) :
    (countRefused p s).port p = { s.port p with refused := satInc (s.port p).refused } :=
  State.port_setPort_same ..

/-- Settles O45. -/
theorem refusedTrigger : Obligations.RefusedTrigger := by
  intro p pos s hp he hr t
  let u := stopBegin p (countRefused p s)
  have refuses : t = fixQ p pos u := refuseTrigger_run hr
  have counted := countRefused_port p s
  have stopped : (u.port p).still = { ((countRefused p s).port p).still with state := .stopping } :=
    stopBegin_still hp (by rw [counted]; exact he) (by rw [counted]; exact hr)
  rw [counted] at stopped
  have state : (u.port p).state = .stopping := (congrArg Port.state stopped :)
  have refused : (u.port p).refused = satInc (s.port p).refused := (congrArg Port.refused stopped :)
  have q : (u.port p).q = (s.port p).q := (congrArg Port.q stopped :)
  have channel : (u.port p).trigCh = (s.port p).trigCh := (congrArg Port.trigCh stopped :)
  rw [refuses, fixQ_port, ← channel, ← q]
  exact ⟨state, refused, rfl, rfl, fixQ_chan p pos u, (fixQ_mem p pos u).trans (stopBegin_mem ..)⟩

end Sys2Proof.Machine
end

section
/-!
PROOFS. Enable, training and disable of a port (R440, R462 to R465), and the settling of O43.
-/
namespace Sys2Proof.Machine

variable {s : State} {q : Requester} {p : Nat} {v : BitVec 32} {pairs : List (List (BitVec 16))}

/-! ## Enable (R462) -/

/-- A port whose training begins in a card that is u (R462). -/
def Port.enabledIn (x : Port) (u : State) : Port :=
  { x with enable := true, err := 0, state := .train, wr := 0, rd := 0, rdLo := 0
           slot := BitVec.ofNat 32 x.slotBytes, mres := BitVec.ofNat 32 x.mbs, restarts := 0
           pitch := (u.chan x.trigCh).step, parts := u.portParts x, issued := [], refusedSince := false
           q := none, requests := [], moving := false, mfltStop := false, retrain := false, terminated := true }

theorem enablePort_accepted (h : s.enableErr p (s.port p) = 0) :
    enablePort p s = rescale (s.setPort p ((s.port p).enabledIn s)) := if_neg (not_not.2 h)

theorem enablePort_refused (h : s.enableErr p (s.port p) ≠ 0) :
    enablePort p s = s.setPort p { s.port p with err := BitVec.ofNat 4 (s.enableErr p (s.port p)) } := if_pos h

theorem portEnable_off (he : (s.port p).enable = false) (hv : bit v 31 = true) : portEnable p v s =
    enablePort p (s.setPort p { s.port p with motion := bit v 30, hostRead := bit v 28 }) := by
  have fields : portFields p v s = s.setPort p { s.port p with motion := bit v 30, hostRead := bit v 28 } := by
    simp [portFields, he]
  rw [portEnable, if_pos ⟨hv, by simp [he]⟩, fields]

section
variable {x : Port}

theorem enablePort_setPort_accepted (h : (s.setPort p x).enableErr p x = 0) :
    enablePort p (s.setPort p x) = rescale (s.setPort p (x.enabledIn (s.setPort p x))) := by
  have read := s.port_setPort_same p x
  rw [enablePort_accepted (read.symm ▸ h), read, State.setPort_setPort]

theorem enablePort_setPort_refused (h : (s.setPort p x).enableErr p x ≠ 0) :
    enablePort p (s.setPort p x) = s.setPort p { x with err := BitVec.ofNat 4 ((s.setPort p x).enableErr p x) } := by
  have read := s.port_setPort_same p x
  rw [enablePort_refused (read.symm ▸ h), read, State.setPort_setPort]

end

/-! ## Training (R440, R465) -/

theorem Port.aligned_of {x : Port} (hl : pairs.length = x.lanes)
    (hw : ∀ ws ∈ pairs, 64 ≤ ws.length ∧ ∀ w ∈ ws.drop (ws.length - 64), w = 0x0F35) : x.aligned pairs = true := by
  rw [Port.aligned, Bool.and_eq_true, List.all_eq_true]
  refine ⟨decide_eq_true hl, fun ws hws => ?_⟩
  obtain ⟨long, trained⟩ := hw ws hws
  rw [Bool.and_eq_true, List.all_eq_true]
  exact ⟨decide_eq_true long, fun w hw => beq_iff_eq.2 (trained w hw)⟩

section
variable (he : (s.port p).enable = true) (hf : s.on domFRONT = true) (hs : s.suppressed p = false)
  (ha : (s.port p).aligned pairs = true)
include he hf hs ha

theorem training_due :
    ¬ ((!(s.port p).enable) = true ∨ (!s.on domFRONT) = true ∨ s.suppressed p = true ∨
      (!(s.port p).aligned pairs) = true) := by simp [he, hf, hs, ha]

/-- The end of a training puts the port in run; what else it does to the port is motion and requests. -/
theorem trainingDone_still (ht : (s.port p).state = .train) :
    ((trainingDone p pairs s).port p).still = { (s.port p).still with state := .run, retrain := false } := by
  let c := s.chan (s.port p).trigCh
  let u := armChannel (s.port p).trigCh
    (s.setChan (s.port p).trigCh { c with cmp := (s.port p).start.zeroExtend 40 })
  let w := u.setPort p { u.port p with state := .run, retrain := false }
  have ends : trainingDone p pairs s = if (s.port p).motion then motionAsked p w else w :=
    (if_neg (training_due he hf hs ha)).trans (if_pos ht)
  have armed : (u.port p).still = (s.port p).still := armChannel_stillPorts _ p _
  have run : (w.port p).still = { (u.port p).still with state := .run, retrain := false } :=
    congrArg Port.still (State.port_setPort_same ..)
  rw [ends, ← armed, ← run]
  split
  · exact motionAsked_stillPorts p p w
  · rfl

theorem trainingDone_again (ht : (s.port p).state ≠ .train) :
    trainingDone p pairs s = s.setPort p { s.port p with retrain := false } :=
  (if_neg (training_due he hf hs ha)).trans (if_neg ht)

end

theorem trainingTimeout_training (he : (s.port p).enable = true) (ht : (s.port p).state = .train) :
    trainingTimeout p s = portStopGroup p 4 (raise (96 + 16 * p + 5) s) := if_pos ⟨he, .inl ht⟩

/-! ## The commands -/

section
variable {p : Fin 4} (h : access q (.blk (baseROL p)) true s = .go)
include h

theorem exec_portEnable_go (he : (s.port p).enable = false) (hv : bit v 31 = true) : exec (.portEnable q p v) s =
    .next (enablePort p (s.setPort p { s.port p with motion := bit v 30, hostRead := bit v 28 })) :=
  congrArg Host.Outcome.next ((regWrite_go h).trans (portEnable_off he hv))

theorem exec_portDisable_go : exec (.portDisable q p) s = .next (portDisable p s) :=
  congrArg Host.Outcome.next (regWrite_go h)

end

/-- Settles O43: enable, accepted and refused; the end of a training and its timeout; disable, and what it leaves. -/
theorem portEnableAndTraining : Obligations.PortEnableAndTraining := by
  refine ⟨?enable, ?trained, ?timeout, ?disable, ?off⟩
  case enable =>
    intro q p v s h he hv x u
    have asked : exec (.portEnable q p v) s = .next (enablePort p u) := exec_portEnable_go h he hv
    exact ⟨fun accepted => asked.trans (congrArg _ (enablePort_setPort_accepted accepted)),
      fun refused => asked.trans (congrArg _ (enablePort_setPort_refused refused))⟩
  case trained =>
    intro p pairs s he hf hc hl hw
    have aligned := Port.aligned_of hl hw
    refine ⟨fun ht => ⟨_, rfl, ?_⟩, fun ht => congrArg _ (trainingDone_again he hf hc aligned ht)⟩
    have still := trainingDone_still he hf hc aligned ht
    exact ⟨(congrArg Port.state still :), (congrArg Port.retrain still :)⟩
  case timeout => exact fun _ _ he ht => congrArg _ (trainingTimeout_training he ht)
  case disable => exact fun _ _ _ h => ⟨fun he => (exec_portDisable_go h).trans (congrArg _ (if_pos he)),
    fun he => (exec_portDisable_go h).trans (congrArg _ (if_neg (Bool.eq_false_iff.1 he)))⟩
  case off =>
    intro p err s x
    have off : x = (s.port p).disabled err := portOff_port_same ..
    rw [off]
    exact ⟨rfl, rfl, rfl, rfl, rfl, rfl, rfl⟩

end Sys2Proof.Machine
end

section
/-!
PROOFS. Triggers and received lines (R441 to R457), and the settling of O44.
-/
namespace Sys2Proof.Machine

variable {s : State} {p : Nat} {received : Bool} {pos : BitVec 32} {l : Issued}

/-! ## Trigger requests (R456) -/

theorem triggerRequest_running {rest : List (BitVec 32)} (hr : (s.port p).requests = pos :: rest)
    (he : (s.port p).enable = true) (ho : (s.port p).state ≠ .off) (hf : s.on domFRONT = true) :
    triggerRequest p received s =
      let u := s.setPort p { s.port p with requests := rest }
      if u.issues p received then issueTrigger p pos u else refuseTrigger p pos u := by
  have live : ¬ ((!(s.port p).enable) = true ∨ (s.port p).state = .off ∨ (!s.on domFRONT) = true) := by simp [he, ho, hf]
  simp only [triggerRequest, hr]
  exact if_neg live

/-- A port in run that has issued a trigger at a position, at a time (R443, R456). -/
def Port.issuing (x : Port) (pos : BitVec 32) (time : BitVec 40) : Port :=
  { x with issued := x.issued ++ [{ pos := pos, time := time, seam := false }], ltrig := x.ltrigW, exsync := x.exp }

/-- Where no restart is due, an issue changes its port and drives the sensor's lines, and no more. -/
theorem issueTrigger_run (hs : (s.port p).state = .run) (hq : (s.port p).q = none) : issueTrigger p pos s =
    (s.setPort p ((s.port p).issuing pos s.wbk.time)).emit (.lineOut p true (decide ((s.port p).exp ≠ 0))) := by
  simp [issueTrigger, Port.issuing, hs, hq]

/-! ## Lines with no sync word, and sync words with no line (R442, R443) -/

theorem solTimeout_last (hl : (s.port p).issued.getLast? = some l) :
    solTimeout p s = refuseTrigger p l.pos (s.setPort p { s.port p with
      issued := (s.port p).issued.dropLast, framing := satInc (s.port p).framing }) := by
  simp only [solTimeout, hl]

theorem syncWithoutTrigger_counted (he : (s.port p).enable = true) (hf : s.on domFRONT = true)
    (ht : (s.port p).state ≠ .train) (hn : received = true ∨ (s.port p).issued = []) :
    syncWithoutTrigger p received s
      = raise (96 + 16 * p + 4) (s.setPort p { s.port p with framing := satInc (s.port p).framing }) :=
  if_pos ⟨he, hf, ht, hn.imp_right List.isEmpty_iff.2⟩

/-! ## Received lines (R441, R449, R450, R457) -/

/-- A port that counts the restart of a seam line. -/
def Port.counting (x : Port) (l : Issued) : Port := { x with restarts := x.restarts + if l.seam then 1 else 0 }

theorem Port.counting_eq_if (x : Port) (l : Issued) :
    x.counting l = if l.seam then { x with restarts := x.restarts + 1 } else x := by
  rw [Port.counting]
  split
  · rfl
  · simp

/-- A line whose slot is written, whose place the port leaves behind. -/
def State.withLine (s : State) (p : Nat) (l : Issued) (rest : List Issued) (pairs : List (List Bool)) : State :=
  let x := s.port p
  (s.writeTen x.tenant.toNat (x.slotAddr x.wr) ((x.counting l).slotOf x.wr l (x.deframe pairs))).setPort p
    { x.counting l with wr := x.wr + 1, issued := rest }

theorem lineStored_oldest {rest : List Issued} {pairs : List (List Bool)} (hi : (s.port p).issued = l :: rest)
    (hf : s.on domFRONT = true) : lineStored p pairs s =
      highWater p (if l.seam then raise (96 + 16 * p + 2) (s.withLine p l rest pairs) else s.withLine p l rest pairs) := by
  have on : ¬ (!s.on domFRONT) = true := by simp [hf]
  simp only [lineStored, hi, if_neg on, State.withLine, Port.counting_eq_if]
  split <;> rfl

theorem Port.deframe_getD (x : Port) (pairs : List (List Bool)) {c i : Nat} (hc : c < x.rows) (hi : i < x.w) :
    ((x.deframe pairs).getD c []).getD i 0 = x.pixel pairs c i := by
  simp [Port.deframe, hc, hi]

/-- Settles O44: the trigger that is issued or refused, the line that is lost, kept or unasked for, and its pixels. -/
theorem triggersAndLines : Obligations.TriggersAndLines := by
  refine ⟨?request, ?lost, ?unasked, ?stored, ?pixel, ?high⟩
  case request =>
    intro p received pos rest s hr he hs hf u
    have judged : exec (.triggerRequest p received) s =
        .next (if u.issues p received then issueTrigger p pos u else refuseTrigger p pos u) :=
      congrArg Host.Outcome.next (triggerRequest_running hr he (by simp [hs]) hf)
    have read : u.port p = { s.port p with requests := rest } := State.port_setPort_same ..
    refine ⟨fun issued hq => judged.trans (congrArg _ ?_), fun refused => judged.trans (congrArg _ (if_neg ?_))⟩
    · rw [if_pos issued, issueTrigger_run (by rw [read]; exact hs) (by rw [read]; exact hq), read, State.setPort_setPort]
      rfl
    · simp [refused]
  case lost => exact fun _ _ _ hl => congrArg _ (solTimeout_last hl)
  case unasked => exact fun _ _ _ he hf ht hn => congrArg _ (syncWithoutTrigger_counted he hf ht hn)
  case stored => exact fun _ _ _ _ _ hi hb hf =>
    (if_pos (.inr hb)).trans (congrArg Host.Outcome.next (lineStored_oldest hi hf))
  case pixel => exact fun x pairs _ _ hc hi => x.deframe_getD pairs hc hi
  case high => exact fun _ _ => ⟨fun hs hw => if_pos ⟨hs, hw⟩, fun low => if_neg fun h => absurd h.2 (not_le.2 low)⟩

end Sys2Proof.Machine
end

section
/-!
PROOFS. Stop, back-up and restart, the registers of a port (R450 to R460), and the settling of O46.
-/
namespace Sys2Proof.Machine

variable {s : State} {q : Requester} {p : Nat} {v : BitVec 32}

/-! ## The end of settling (R457 steps 4 and 7) -/

section
variable (he : (s.port p).enable = true) (hf : s.on domFRONT = true)
include he hf

theorem settling : ¬ ((!(s.port p).enable) = true ∨ (!s.on domFRONT) = true) := by simp [he, hf]

theorem settleExpire_stopping (hs : (s.port p).state = .stopping) : settleExpire p s = settleStop p s :=
  (if_neg (settling he hf)).trans (if_pos hs)

theorem settleExpire_settleBack (hs : (s.port p).state = .settleBack) (hk : (s.port p).kind ≠ 2) (hp : p < 4) :
    settleExpire p s = runUp p s := by
  have backed : p ∈ s.inState (s.group p) .settleBack :=
    List.mem_filter.2 ⟨mem_group hp he, beq_iff_eq.2 hs⟩
  have due : (!(s.inState (s.group p) .settleBack).isEmpty) = true := by
    rw [Bool.not_eq_true', List.isEmpty_eq_false_iff]
    exact List.ne_nil_of_mem backed
  exact (if_neg (settling he hf)).trans ((if_neg (by simp [hs])).trans (if_pos ⟨hk, due⟩))

end

/-- The position that a port which has stopped restarts from (R457 step 4). -/
def State.restartFrom (s : State) (p : Nat) : BitVec 32 :=
  (s.port p).q.getD ((s.chan (s.port p).trigCh).cmp.extractLsb' 0 32)

theorem settleStop_port (p : Nat) (s : State) : (settleStop p s).port p =
    { s.port p with q := some (s.restartFrom p), restartPos := s.restartFrom p
                    state := if (s.port p).mfltStop then .fault else .waitLow } := State.port_setPort_same ..

theorem settleStop_chan (p : Nat) (s : State) :
    ((settleStop p s).chan (s.port p).trigCh).armed = false :=
  congrArg Chan.armed (State.chan_setChan_same ..)

/-! ## Low water, resume and motion (R455, R457, R460) -/

theorem lowWaterReached_alive {p : Fin 4} (he : (s.port p).enable = true) (hf : s.on domFRONT = true) :
    exec (.lowWaterReached p) s = .next (backUp p s) := congrArg Host.Outcome.next (if_pos ⟨he, hf⟩)

theorem portResume_fault (hs : (s.port p).state = .fault) (hm : s.mfltHigh p = true) :
    portResume (.fn 0) p s = s.setPort p { s.port p with state := .waitLow, mfltStop := false } :=
  if_pos ⟨rfl, hs, hm⟩

theorem portResume_live (hs : (s.port p).state ≠ .fault) : portResume q p s = s := if_neg fun h => hs h.2.1

theorem motionWrite_run {on : Bool} (hs : (s.port p).state = .run) :
    motionWrite p on s = motionAsked p (s.setPort p { s.port p with motion := on }) := by
  simp [motionWrite, hs]

theorem motionWrite_kept {on : Bool} (hs : (s.port p).state ≠ .run) (hu : (s.port p).state ≠ .runup) :
    motionWrite p on s = s.setPort p { s.port p with motion := on } := by
  rw [motionWrite, State.port_setPort_same]
  split
  next h => exact absurd h hs
  next h => exact absurd h hu
  next => rfl

/-! ## RD, WR and ERRCNT (R450, R456) -/

section
variable (hr : (s.port p).hostRead = true)
include hr

theorem rdWrite_moves (hl : (s.port p).rd ≤ v ++ (s.port p).rdLo) (hh : v ++ (s.port p).rdLo ≤ (s.port p).wr) :
    rdWrite (.fn 0) p true v s = s.setPort p { s.port p with rd := v ++ (s.port p).rdLo } := by
  simp [rdWrite, hr, BitVec.not_lt.2 hl, BitVec.not_lt.2 hh]

theorem rdWrite_refused (ho : (s.port p).wr < v ++ (s.port p).rdLo ∨ v ++ (s.port p).rdLo < (s.port p).rd) :
    rdWrite (.fn 0) p true v s = regError (.fn 0) (baseROL p + 0x44) s := by
  simp [rdWrite, hr, ho]

end

/-- Settles O46: what the end of settling, low water, resume and motion do, and the registers of a port. -/
theorem stopAndRestart : Obligations.StopAndRestart := by
  refine ⟨?settle, ?resume, ?motion, ?low, ?high, ?wr, ?errors⟩
  case settle =>
    intro p s he hf
    refine ⟨fun hs => ⟨settleStop p s, congrArg _ (settleExpire_stopping he hf hs), ?_⟩,
      fun hs hk => congrArg _ (settleExpire_settleBack he hf hs hk p.isLt), lowWaterReached_alive he hf⟩
    rw [settleStop_port]
    exact ⟨rfl, rfl, rfl, settleStop_chan p s⟩
  case resume => exact fun _ _ h => ⟨fun hs hm => congrArg _ ((regWrite_go h).trans (portResume_fault hs hm)),
    fun hs => congrArg _ ((regWrite_go h).trans (portResume_live hs))⟩
  case motion => exact fun _ _ _ _ h => ⟨fun hs => congrArg _ ((regWrite_go h).trans (motionWrite_run hs)),
    fun hs hu => congrArg _ ((regWrite_go h).trans (motionWrite_kept hs hu))⟩
  case low => exact fun _ _ _ _ h => congrArg Host.Outcome.next (regWrite_go h)
  case high => exact fun _ _ _ h hr => ⟨fun hl hh => congrArg _ ((regWrite_go h).trans (rdWrite_moves hr hl hh)),
    fun ho => congrArg _ ((regWrite_go h).trans (rdWrite_refused hr ho))⟩
  case wr => exact fun _ _ _ h => congrArg Host.Outcome.next (regRead_go h)
  case errors => exact fun _ _ _ h => congrArg Host.Outcome.next (regRead_go h)

end Sys2Proof.Machine
end

section
/-!
PROOFS. The registers of an Intake queue (R489 to R491), and the settling of O47.
-/
namespace Sys2Proof.Machine

variable {s : State} {q : Requester} {n : Nat} {v : BitVec 32}

/-! ## INK_Qq_CFG (R490, R491) -/

/-- A queue with the fields that a write of INK_Qq_CFG stores (R491). -/
def Queue.configured (x : Queue) (v : BitVec 32) : Queue :=
  { x with cfg := v &&& 0x6FE0003F, tags := if bit v 28 then [] else x.tags }

theorem writeQueueCfg_asked (he : (s.queue n).enable = false) (hv : bit v 31 = true) :
    let y := (s.queue n).configured v
    writeQueueCfg q n v s = s.setQueue n (if s.queueErr y ≠ 0 then { y with err := BitVec.ofNat 3 (s.queueErr y) }
      else { y with cfg := setBit y.cfg 31 true, err := 0, count := 0, samples := [], tags := [] }) := by
  have fields : v &&& cfgMask &&& 0x7FFFFFFF = v &&& 0x6FE0003F := BitVec.and_assoc ..
  simp only [writeQueueCfg, configQueue, he, hv, fields, Queue.configured]
  exact (apply_ite (s.setQueue n) ..).symm

theorem writeQueueCfg_disable (he : (s.queue n).enable = true) (hf : bit v 28 = false) (hv : bit v 31 = false) :
    writeQueueCfg q n v s = if s.unforwarded n then regError q (baseINK n) s
      else s.setQueue n { s.queue n with cfg := setBit (s.queue n).cfg 31 false } := by
  simp [writeQueueCfg, he, hf, hv]

theorem exec_queueEnable_go {n : Fin 16} (h : access q (.blk (baseINK n)) true s = .go) :
    exec (.queueEnable q n v) s = .next (writeQueueCfg q n v s) := congrArg Host.Outcome.next (regWrite_go h)

/-- Settles O47: enable, disable and flush of a queue, and the read of its hits. -/
theorem intakeQueues : Obligations.IntakeQueues := by
  refine ⟨?enable, ?disable, ?flush, ?hits⟩
  case enable =>
    intro q n v s h he hv y
    have judged := (exec_queueEnable_go h).trans (congrArg _ (writeQueueCfg_asked he hv))
    exact ⟨fun accepted => judged.trans (congrArg (Host.Outcome.next <| s.setQueue n ·) (if_neg (not_not.2 accepted))),
      fun refused => judged.trans (congrArg (Host.Outcome.next <| s.setQueue n ·) (if_pos refused))⟩
  case disable =>
    intro q n v s h he hf hv
    have judged := (exec_queueEnable_go h).trans (congrArg _ (writeQueueCfg_disable he hf hv))
    exact ⟨fun free => judged.trans (congrArg _ (if_neg (by simp [free]))),
      fun held => judged.trans (congrArg _ (if_pos held))⟩
  case flush => exact fun _ _ _ h => congrArg Host.Outcome.next (regWrite_go h)
  case hits => exact fun _ _ _ h => congrArg Host.Outcome.next (regRead_go h)

end Sys2Proof.Machine
end

section
/-!
PROOFS. Samples and direct loads (R450, R475 to R485), and the settling of O48.
-/
namespace Sys2Proof.Machine

variable {s u : State} {n id t : Nat} {y : Sample} {j : Job}

theorem emitReads_keeps {β : Type} (g : State → β) (hg : ∀ (op : LinkOp) (s : State), g (s.emit op) = g s)
    (t a n : Nat) (s : State) : g (emitReads t a n s) = g s :=
  forEach_keeps (g := g) (fun _ _ => hg ..) _ s

@[simp] theorem emitReads_queue (t a n m : Nat) (s : State) : (emitReads t a n s).queue m = s.queue m :=
  emitReads_keeps (State.queue · m) (fun _ _ => rfl) ..

@[simp] theorem emitReads_mapped (t a n : Nat) (s : State) : (emitReads t a n s).mapped = s.mapped :=
  emitReads_keeps State.mapped (fun _ _ => rfl) ..

@[simp] theorem serveInk_queue (t m : Nat) (s : State) : (serveInk t s).queue m = s.queue m := by
  rw [serveInk]; split <;> rfl

section
variable (t m : Nat) (rows : List (List Byte)) (s : State)

@[simp] theorem storeInk_port : (storeInk t rows s).port m = s.port m := by simp only [storeInk, serveInk]; split <;> rfl
@[simp] theorem storeInk_stream : (storeInk t rows s).stream m = s.stream m := by
  simp only [storeInk, serveInk]; split <;> rfl
@[simp] theorem storeInk_queue : (storeInk t rows s).queue m = s.queue m := by
  simp only [storeInk, serveInk]; split <;> rfl
@[simp] theorem storeInk_mem : (storeInk t rows s).mem = s.mem := by simp only [storeInk, serveInk]; split <;> rfl
@[simp] theorem storeInk_gng : (storeInk t rows s).gng = s.gng := by simp only [storeInk, serveInk]; split <;> rfl

end

section
variable (m id : Nat) (f : Sample → Sample) (s : State)

@[simp] theorem modSample_port : (modSample n id f s).port m = s.port m := rfl
@[simp] theorem modSample_stream : (modSample n id f s).stream m = s.stream m := rfl
@[simp] theorem modSample_mem : (modSample n id f s).mem = s.mem := rfl
@[simp] theorem modSample_gng : (modSample n id f s).gng = s.gng := rfl
@[simp] theorem State.modJob_port (g : Job → Job) : (s.modJob id g).port m = s.port m := rfl

end

/-! ## The cut of a sample (R450, R482, R484) -/

/-- A sample whose cut begins with index k, of no region list (R484). -/
def Sample.begun (y : Sample) (k : BitVec 32) : Sample := { y with cut := true, index := k, roiStale := false, rects := [] }

section
variable (hc : s.cutting n = some (y, j)) (hi : s.inkServes n = true)
include hc hi

theorem cutStart_next (hk : 4 ≤ (s.queue n).kind) (hy : y.cut = false) (hb : y.budget = 0) :
    cutStart n s = modSample n j.id (Sample.begun · (s.queue n).count)
      ((serveInk (s.queue n).tenant s).setQueue n { s.queue n with count := (s.queue n).count + 1 }) := by
  simp [cutStart, hc, hi, hy, hb, not_lt.2 hk, Queue.cutReads, State.claimedAny, readRegions, Sample.begun]

theorem consumeLine_moves (hk : (s.queue n).kind = 4) (hy : y.cut = true) (ht : y.taken < y.lines)
    (hf : 0 < (s.port (s.queue n).port).fill) (hh : (s.port (s.queue n).port).hostRead = false) :
    let p := s.port (s.queue n).port
    s.claimedAny p.tenant.toNat [(p.slotAddr p.rd, p.slotBytes)] = false →
    readRegions inkBlock j.id p.tenant.toNat [(p.slotAddr p.rd, p.slotBytes)] s = (true, u) →
    let t := consumeLine n s
    t.port (s.queue n).port = { p with rd := p.rd + 1 } ∧ t.mem = u.mem ∧ t.gng = u.gng := by
  intro p free read
  simp only [consumeLine, hc]
  rw [if_neg (by simp [hi, hk, hy, ht, hf.ne', hh, p, free])]
  simp only [p, read]
  simp

theorem takePicture_moves {k : Nat} (hs : s.feeder n = some k) (hk : (s.queue n).kind = 5) (hy : y.cut = true)
    (ht : y.taken = 0) :
    let c := s.stream k
    c.outWr ≠ c.outRd → s.claimedAny c.tenant [c.slotAt c.outRd] = false →
    readRegions inkBlock j.id c.tenant [c.slotAt c.outRd] s = (true, u) →
    let t := takePicture n s
    t.stream k = { c with outRd := c.outRd + 1 } ∧ t.mem = u.mem ∧ t.gng = u.gng := by
  intro c fresh free read
  simp only [takePicture, hc, hs]
  rw [if_neg (by simp [hi, hk, hy, ht, c, fresh, free])]
  simp only [c, read]
  simp

end

/-! ## Completing a sample and a direct load (R475 to R479) -/

section
variable {input : List Byte} (hy : s.sampleFor n id = some y) (hj : s.job? id = some j)
include hy hj

theorem storedFail_error {f : DecodeFault} (hd : s.decodes n y j = true)
    (hr : decodePlanes (s.queue n).kind j.srcDims (input.take (dInLen j.desc)) = .error f) :
    storedFail n id input s = decodeFail n id f (emitReads j.tenant (dInAddr j.desc) (min (dInLen j.desc) (f.1 + 1))
      (serveInk (s.queue n).tenant s)) := by
  simp only [storedFail, hy, hj, hr]
  exact if_pos hd

section
variable {ps : List (List Byte)} {used : Nat}
  (hr : decodePlanes (s.queue n).kind j.srcDims (input.take (dInLen j.desc)) = .ok (ps, used))
include hr

theorem storedFail_ok : storedFail n id input s = s := by
  simp only [storedFail, hy, hj, hr]
  exact ite_self ..

theorem sampleComplete_decoded (hd : s.decodes n y j = true)
    (hf : s.claimedAny j.tenant (s.sampleWrites n j y) = false) :
    sampleComplete n id input s = finishSample n j y ps false (emitReads j.tenant (dInAddr j.desc) used s) := by
  have decodes := hd
  simp only [State.decodes, Bool.and_eq_true, Bool.not_eq_true', decide_eq_true_eq] at decodes
  obtain ⟨⟨⟨⟨⟨serves, _⟩, kind⟩, unfinished⟩, missed⟩, _⟩ := decodes
  simp only [sampleComplete, hy, hj, hr]
  rw [if_neg (by simp [serves, unfinished, hf]), if_neg (by omega), if_neg (by simp [missed]), if_neg (by simp [hd])]

end

end

theorem finishSample_mapped {ps : List (List Byte)} (hm : ∀ r ∈ s.sampleWrites n j y, s.mapped j.tenant r.1 r.2 = true) :
    finishSample n j y ps false s = modSample n j.id (fun y => { y with complete := true, planes := [] })
      (writeSample n j y ps false (fillCache n j ps (storeInk j.tenant ps s))) := by
  have all : (s.sampleWrites n j y).find? (fun r => !s.mapped j.tenant r.1 r.2) = none :=
    List.find?_eq_none.2 fun r hr => by simp [hm r hr]
  rw [finishSample, all]
  rfl

theorem emitReads_sampleWrites (t a m : Nat) : (emitReads t a m s).sampleWrites n j y = s.sampleWrites n j y := by
  simp [State.sampleWrites]

section
variable {rest : List Sample} (hs : (s.queue n).samples = y :: rest)
include hs

theorem sampleForward_done (hd : s.sampleDone n y = true) : sampleForward n s =
    match y.job with
    | some id => (s.setQueue n { s.queue n with samples := rest }).modJob id (fun j => { j with sampleDue := false })
    | none => s.setQueue n { s.queue n with samples := rest } := by
  simp only [sampleForward, hs]
  exact if_pos hd

theorem sampleForward_waits (hd : s.sampleDone n y = false) : sampleForward n s = s := by
  simp only [sampleForward, hs]
  exact if_neg (by simp [hd])

end

theorem directLoad_written {input : List Byte} {f : Fmt} (hj : s.job? id = some j) (hd : j.loadDue = true)
    (hr : j.result = none) (hf : s.on domFRONT = true) (hl : s.linkOk j.tenant = true)
    (hc : Fmt.ofCode (dInFmt j.desc) = some f) :
    let ns := loadNonets f (dInWide j.desc) (dZero j.desc) (input.take (dInLen j.desc))
    s.claimedAny j.tenant [(72 * dParam j.desc, 72 * ceilDiv ns.length 64)] = false →
    s.mapped j.tenant (72 * dParam j.desc) (72 * ceilDiv ns.length 64) = true →
    directLoad id input s = (writeLinesFor id j.tenant (dParam j.desc) ns
      (emitReads j.tenant (dInAddr j.desc) (dInLen j.desc) s)).modJob id (fun j => { j with loadDue := false }) := by
  intro ns free mapped
  simp only [directLoad, hj, hc]
  rw [if_neg (by simp [hd, hr, hf, hl]), if_neg (by simp [ns, free]), emitReads_mapped, if_neg (by simp [ns, mapped])]

/-- Settles O48: the cut of a sample, its lines and pictures, its completion and its way forward, and a direct load. -/
theorem samples : Obligations.Samples := by
  refine ⟨?cut, ?line, ?picture, ?decode, ?forward, ?load⟩
  case cut => exact fun _ _ _ _ hc hi hk hy hb => congrArg _ (cutStart_next hc hi hk hy hb)
  case line =>
    intro n y j u s hc hi hk hy ht hf hh p free read
    obtain ⟨port, mem, gng⟩ := consumeLine_moves hc hi hk hy ht hf hh free read
    exact ⟨consumeLine n s, rfl, (congrArg Port.rd port :), (congrArg Port.wr port :), mem, gng⟩
  case picture =>
    intro n y j k u s hc hs hi hk hy ht c fresh free read
    obtain ⟨stream, mem, gng⟩ := takePicture_moves hc hi hs hk hy ht fresh free read
    exact ⟨takePicture n s, rfl, (congrArg Stream.outRd stream :), (congrArg Stream.outWr stream :), mem, gng⟩
  case decode =>
    intro n id input y j s hy hj hd read
    refine ⟨fun f hr => ?_, fun ps used hr => ⟨?_, fun free mapped => ?_⟩⟩
    · exact congrArg Host.Outcome.next (storedFail_error hy hj hd hr)
    · exact congrArg Host.Outcome.next (storedFail_ok hy hj hr)
    have regions (r) (hr : r ∈ (emitReads j.tenant (dInAddr j.desc) used s).sampleWrites n j y) :
        (emitReads j.tenant (dInAddr j.desc) used s).mapped j.tenant r.1 r.2 = true := by
      rw [emitReads_mapped]
      exact mapped r (emitReads_sampleWrites .. ▸ hr)
    exact congrArg Host.Outcome.next ((sampleComplete_decoded hy hj hr hd free).trans (finishSample_mapped regions))
  case forward =>
    intro n y rest s hs
    refine ⟨fun hd => ⟨fun id hy => congrArg Host.Outcome.next ?_, fun hy => congrArg Host.Outcome.next ?_⟩,
      fun hd => congrArg Host.Outcome.next (sampleForward_waits hs hd)⟩
    · rw [sampleForward_done hs hd, hy]
    · rw [sampleForward_done hs hd, hy]
  case load =>
    exact fun _ _ _ _ _ hj hd hr hf hl hc free mapped =>
      congrArg Host.Outcome.next (directLoad_written hj hd hr hf hl hc free mapped)

end Sys2Proof.Machine
end

section
/-!
PROOFS. The checks of a descriptor (R178, R179, R386 to R388, R473, R506), and the settling of O39.
-/
namespace Sys2Proof.Machine

variable {s u : State} {t r b : Nat} {d : Inflight} {hdr : List Byte} {c : Cpl} {m : Option Dims} {j : Job}

/-! ## Which descriptor is checked (R178, R179, R182) -/

theorem nopDescriptor_checked (hu : (s.ring t r).unchecked = some d) (h0 : le d.desc 0 1 = 0)
    (hf : s.firmware (coreOf t) = true) : nopDescriptor t r s =
      decide1 t r d.seq (.decided (match badByte d.seq d.desc with
        | some b => cpl stFormat b
        | none => cpl stOk 0)) s := by
  simp only [nopDescriptor, hu]
  rw [if_neg (by simp [h0, hf])]
  cases badByte d.seq d.desc <;> rfl

theorem jobDescriptor_checked (hu : (s.ring t r).unchecked = some d) (h0 : le d.desc 0 1 ≠ 0) (hn : fenced d.desc = false)
    (hb : (s.ring t r).clearBefore d.seq = true) (hc : s.checking t = true) (hw : s.checkWaits t d.desc = false) :
    jobDescriptor t r hdr s = checkJob t r d hdr s := by
  simp only [jobDescriptor, hu]
  exact if_pos ⟨h0, by simp [hn], hb, hc, by simp [hw]⟩

theorem fencedDescriptor_checked {rest : List Inflight} (hi : (s.ring t r).inflight = d :: rest) (hd : d.st = .fetched)
    (h0 : le d.desc 0 1 ≠ 0) (hf : fenced d.desc = true) (hc : s.checking t = true) (hw : s.checkWaits t d.desc = false) :
    fencedDescriptor t r hdr s = checkJob t r d hdr s := by
  simp only [fencedDescriptor, hi]
  exact if_pos ⟨hd, h0, hf, hc, by simp [hw]⟩

/-! ## The checks up to the manifest (R386, R473, R506) -/

theorem checkJob_badByte (hb : badByte d.seq d.desc = some b) :
    checkJob t r d hdr s = decide1 t r d.seq (.decided (cpl stFormat b)) s := by
  simp only [checkJob, hb]

section
variable (hb : badByte d.seq d.desc = none) (hr : s.tagReads t d.desc = [])
include hb hr

theorem checkJob_badSource (hs : s.sourceCheck t d.desc hdr = .inl c) : checkJob t r d hdr s =
    decide1 t r d.seq (.decided c) (emitReads t (dInAddr d.desc) (s.headerBytes t d.desc) s) := by
  simp only [checkJob, hb, hr, readChecks, hs]

theorem checkJob_badAux (hs : s.sourceCheck t d.desc hdr = .inr m)
    (ha : (s.looked t d.desc).auxCheck t d.desc m = some c) :
    checkJob t r d hdr s = decide1 t r d.seq (.decided c) (s.looked t d.desc) := by
  rw [State.looked] at ha ⊢
  simp only [checkJob, hb, hr, readChecks, hs, ha]

theorem checkJob_passed (hs : s.sourceCheck t d.desc hdr = .inr m)
    (ha : (s.looked t d.desc).auxCheck t d.desc m = none) :
    checkJob t r d hdr s = manifestChecks t r d m (s.looked t d.desc) := by
  rw [State.looked] at ha ⊢
  simp only [checkJob, hb, hr, readChecks, hs, ha]

end

/-! ## The last checks (R96, R374, R388) -/

theorem lateChecks_domain (hd : s.domainCheck j.tenant j.desc j.man = some c) : lateChecks j s = rejectJob j c s := by
  simp only [lateChecks, hd]

section
variable (hd : s.domainCheck j.tenant j.desc j.man = none)
include hd

theorem lateChecks_tiles (ht : s.tileCheck j.tenant j.man = some c) : lateChecks j s = rejectJob j c s := by
  simp only [lateChecks, hd, ht]

theorem lateChecks_bandwidth (ht : s.tileCheck j.tenant j.man = none)
    (hr : readChecks schBlock j.tenant j.ring { seq := j.seq, desc := j.desc, st := .fetched } j.man.chanReads s = (true, u))
    (ho : u.tooManyOutliers j.tenant j.man = false)
    (hs : j.man.spans = false → (u.spillRun j.tenant j.man.spill).isSome = true) :
    lateChecks j s = if u.bandwidthExcess j.tenant j.man.bw ≠ 0 then rejectJob j (cpl stBandwidth
      (min 65535 (ceilDiv (u.bandwidthExcess j.tenant j.man.bw) 1000))) u else admitJob j u := by
  have spills : ¬ ((!j.man.spans) = true ∧ (u.spillRun j.tenant j.man.spill).isNone = true) := fun ⟨stays, nowhere⟩ => by
    simp [Option.isSome_iff_ne_none.1 (hs (by simpa using stays))] at nowhere
  simp only [lateChecks, hd, ht, hr]
  rw [if_neg (by simp [ho]), if_neg spills]

end

/-! ## Admission (R387) -/

@[simp] theorem queueStream_sch (j : Job) (s : State) : (queueStream j s).sch = s.sch := by
  rw [queueStream]; split <;> rfl

@[simp] theorem queueSample_sch (j : Job) (id : Option Nat) (s : State) : (queueSample j id s).sch = s.sch := by
  simp only [queueSample]; split <;> [rfl; (split <;> rfl)]

@[simp] theorem decide1_sch (t r : Nat) (seq : BitVec 32) (st : InfSt) (s : State) : (decide1 t r seq st s).sch = s.sch := rfl

theorem catchUp_jobs (t : Nat) (s : State) :
    (catchUp t s).sch.jobs = s.sch.jobs ∧ (catchUp t s).sch.nextJob = s.sch.nextJob := by
  simp only [catchUp]
  split
  · exact ⟨rfl, rfl⟩
  · split <;> exact ⟨rfl, rfl⟩

/-- An admitted job comes last, with the next number (R387). -/
theorem admitJob_jobs (j : Job) (s : State) :
    (admitJob j s).sch.jobs.length = s.sch.jobs.length + 1 ∧ (admitJob j s).sch.nextJob = s.sch.nextJob + 1 := by
  obtain ⟨jobs, next⟩ := catchUp_jobs j.tenant s
  simp [admitJob, jobs, next, rescale_sch]

/-- Settles O39: which descriptors are checked, and the checks in their order up to admission. -/
theorem descriptorChecks : Obligations.DescriptorChecks := by
  refine ⟨⟨?nop, ?job, ?fenced, ?byte, ?source, ?aux, ?passed⟩, ?late⟩
  case nop =>
    intro t r d s hu h0 hf
    have checked : exec (.nopDescriptor t r) s = .next _ := congrArg Host.Outcome.next (nopDescriptor_checked hu h0 hf)
    exact ⟨fun hb => by rw [checked, hb], fun b hb => by rw [checked, hb]⟩
  case job => exact fun _ _ _ _ _ hu h0 hn hb hc hw => congrArg _ (jobDescriptor_checked hu h0 hn hb hc hw)
  case fenced => exact fun _ _ _ _ _ _ hi hd h0 hf hc hw => congrArg _ (fencedDescriptor_checked hi hd h0 hf hc hw)
  case byte => exact fun _ _ _ _ _ _ hb => checkJob_badByte hb
  case source => exact fun _ _ _ _ _ _ hb hr hs => checkJob_badSource hb hr hs
  case aux => exact fun _ _ _ _ _ _ _ hb hr hs ha => checkJob_badAux hb hr hs ha
  case passed => exact fun _ _ _ _ _ _ hb hr hs ha => checkJob_passed hb hr hs ha
  case late =>
    intro j s u
    refine ⟨fun c hd => lateChecks_domain hd, fun hd => ⟨fun c ht => lateChecks_tiles hd ht,
      fun ht hr ho hs => ⟨fun fits => ?_, fun exceeds => ?_⟩⟩, admitJob_jobs j s⟩
    · rw [lateChecks_bandwidth hd ht hr ho hs, if_neg (not_not.2 fits)]
    · rw [lateChecks_bandwidth hd ht hr ho hs, if_pos exceeds]

end Sys2Proof.Machine
end

section
/-!
PROOFS. The scalar instructions of a tile (R300 to R308), their faults, and the settling of O29 to O32.
-/
namespace Sys2Proof.Machine

variable {s : State} {i op : Nat} {w : Word} {f : Word → Tile → TileOut}

/-! ## How an instruction ends (R308, R332, R350) -/

theorem tileRun_counts {y : Tile} {slot n : Nat} (h : s.Runs i op w) (hd : f w (s.tile i) = .done y [(slot, n)]) :
    tileRun op i f s = countSat i slot n (s.advance i y) := by
  rw [tileRun_of_runs h, hd, applyOut_done h, countSats_one]

theorem tileRun_fault {c : Nat} (h : s.Runs i op w) (hd : f w (s.tile i) = .fault c) :
    tileRun op i f s = tileFault i c (s.tile i).pc.toNat s := by
  rw [tileRun_of_runs h, hd]; rfl

theorem tileRun_jump {y : Tile} {t : Int} (h : s.Runs i op w) (hd : f w (s.tile i) = .jump y t) (hl : 0 ≤ t)
    (hh : t ≤ 16383) : tileRun op i f s = s.setTile i { y with pc := BitVec.ofNat 14 t.toNat, wdog := 0 } := by
  rw [tileRun_of_runs h, hd, applyOut_jump _ _ _ _ hl hh]

/-! ## Arithmetic (R306, R307) -/

theorem shAmt_eq (b : Word) : shAmt b = b.toNat % 64 := fld_zero b 6

theorem boolW_decide (p : Prop) [Decidable p] : boolW (decide p) = if p then 1 else 0 := by
  simp [boolW]

theorem mulW_eq (a b : Word) : a * b = BitVec.ofNat 36 (a.toNat * b.toNat) := BitVec.eq_of_toNat_eq (by simp)

theorem tileRun_aluR {g : Word → Word → Word} (hf : wFn w = 0) (h : s.Runs i op w) : tileRun op i (aluR g) s =
    s.advance i ((s.tile i).setReg (wRd w) (g ((s.tile i).reg (wRs1 w)) ((s.tile i).reg (wRs2 w)))) :=
  tileRun_done h (if_neg (not_not.2 hf))

theorem tileRun_aluI {g : Word → Word → Word} {imm : Word → Word} (h : s.Runs i op w) : tileRun op i (aluI g imm) s =
    s.advance i ((s.tile i).setReg (wRd w) (g ((s.tile i).reg (wRs1 w)) (imm w))) := tileRun_done h rfl

theorem tileRun_shiftI {g : Word → Nat → Word} (h : s.Runs i op w) (hs : wImm w ≤ 63) : tileRun op i (shiftI g) s =
    s.advance i ((s.tile i).setReg (wRd w) (g ((s.tile i).reg (wRs1 w)) (wImm w))) :=
  tileRun_done h (if_neg (not_lt.2 hs))

theorem lui_eq (w : Word) (x : Tile) :
    lui w x = .done (x.setReg (wRd w) (BitVec.ofNat 36 (w.toNat % 2 ^ 25 * 2 ^ 11))) [] := by
  rw [lui, wImm25, fld_zero]
  rfl

/-- Settles O29: the register and the immediate instructions, and what register 0 keeps. -/
theorem tileArithmetic : Obligations.TileArithmetic := by
  refine ⟨?register, ?immediate, ?zero⟩
  case register =>
    intro i w s hf x a b
    refine ⟨?add, ?sub, ?and, ?or, ?xor, ?sll, ?srl, ?sra, ?mul, ?slt, ?sltu⟩
    case add => exact fun h => congrArg _ (tileRun_aluR hf h)
    case sub => exact fun h => congrArg _ (tileRun_aluR hf h)
    case and => exact fun h => congrArg _ (tileRun_aluR hf h)
    case or => exact fun h => congrArg _ (tileRun_aluR hf h)
    case xor => exact fun h => congrArg _ (tileRun_aluR hf h)
    case sll => exact fun h => shAmt_eq b ▸ congrArg _ (tileRun_aluR hf h)
    case srl => exact fun h => shAmt_eq b ▸ congrArg _ (tileRun_aluR hf h)
    case sra => exact fun h => shAmt_eq b ▸ congrArg _ (tileRun_aluR hf h)
    case mul => exact fun h => mulW_eq a b ▸ congrArg _ (tileRun_aluR hf h)
    case slt => exact fun h => boolW_decide (a.toInt < b.toInt) ▸ congrArg _ (tileRun_aluR hf h)
    case sltu => exact fun h => boolW_decide (a.toNat < b.toNat) ▸ congrArg _ (tileRun_aluR hf h)
  case immediate =>
    intro i w s x a simm uimm
    refine ⟨?addi, ?andi, ?ori, ?xori, ?slli, ?srli, ?srai, ?lui, ?nop⟩
    case addi => exact fun h => congrArg _ (tileRun_aluI h)
    case andi => exact fun h => congrArg _ (tileRun_aluI h)
    case ori => exact fun h => congrArg _ (tileRun_aluI h)
    case xori => exact fun h => congrArg _ (tileRun_aluI h)
    case slli => exact fun h hs => congrArg _ (tileRun_shiftI h hs)
    case srli => exact fun h hs => congrArg _ (tileRun_shiftI h hs)
    case srai => exact fun h hs => congrArg _ (tileRun_shiftI h hs)
    case lui => exact fun h => congrArg _ (tileRun_done h (lui_eq w x))
    case nop => exact fun h => congrArg _ (tileRun_done h rfl)
  case zero => exact fun x n m v => ⟨x.reg_zero, x.setReg_zero v, x.reg_setReg v, x.reg_setReg_other v⟩

/-! ## Illegal operands and accesses (R305, R306, R332) -/

section
variable {x : Tile} {o : TileOut} {r : Bool} {a n align : Nat}

theorem access_outside (ho : 262144 < a + n) : x.access [{ write := r, addr := a, n := n, align := align }] o = .fault 0x12 := by
  simp [Tile.access, Tile.accFault, ho]

theorem access_misaligned (hi : a + n ≤ 262144) (ha : a % align ≠ 0) :
    x.access [{ write := r, addr := a, n := n, align := align }] o = .fault 0x13 := by
  simp [Tile.access, Tile.accFault, not_lt.2 hi, ha]

end

/-- Settles O30: opcode 0, a nonzero fn, a long shift, and an access that is outside or not aligned. -/
theorem tileIllegalAndFaulting : Obligations.TileIllegalAndFaulting := by
  refine ⟨?operands, ?accesses⟩
  case operands =>
    refine fun i w s => ⟨?opcode, fun hf => ⟨?add, ?mul, ?sltu⟩, fun hs => ⟨?slli, ?srai⟩⟩
    case opcode => exact fun h => congrArg _ (tileRun_fault h rfl)
    case add => exact fun h => congrArg _ (tileRun_fault h (if_pos hf))
    case mul => exact fun h => congrArg _ (tileRun_fault h (if_pos hf))
    case sltu => exact fun h => congrArg _ (tileRun_fault h (if_pos hf))
    case slli => exact fun h => congrArg _ (tileRun_fault h (if_pos hs))
    case srai => exact fun h => congrArg _ (tileRun_fault h (if_pos hs))
  case accesses =>
    intro i w s x a
    refine ⟨?outsideLoad, ?outsideStore, ?load, ?store⟩
    case outsideLoad => exact fun ho h => congrArg _ (tileRun_fault h (access_outside ho))
    case outsideStore => exact fun ho h => congrArg _ (tileRun_fault h (access_outside ho))
    case load => exact fun hi ha h => congrArg _ (tileRun_fault h (access_misaligned hi ha))
    case store => exact fun hi ha h => congrArg _ (tileRun_fault h (access_misaligned hi ha))

/-- Settles O31: the loads and stores of the scratchpad. -/
theorem tileLoadsAndStores : Obligations.TileLoadsAndStores := by
  intro i w s x a
  refine ⟨?ldn, ?ldnu, ?ldw, ?stn, ?stw⟩
  case ldn => exact fun h ha => congrArg _ (tileRun_done h (access_of_allows ha))
  case ldnu => exact fun h ha => congrArg _ (tileRun_done h (access_of_allows ha))
  case ldw => exact fun h ha => congrArg _ (tileRun_done h (access_of_allows ha))
  case stn => exact fun h ha => congrArg _ (tileRun_done h (access_of_allows ha))
  case stw => exact fun h ha => congrArg _ (tileRun_done h (access_of_allows ha))

/-! ## Branches (R306, R308) -/

theorem tileRun_branch {c : Word → Word → Bool} {p : Prop} [Decidable p]
    (hp : c ((s.tile i).reg (wB1 w)) ((s.tile i).reg (wB2 w)) = decide p) (h : s.Runs i op w) :
    let t : Int := (s.tile i).pc.toNat + (wSimm w).toInt
    0 ≤ t → t ≤ 16383 → tileRun op i (branch c) s =
      if p then s.setTile i { s.tile i with pc := BitVec.ofNat 14 t.toNat, wdog := 0 } else s.advance i (s.tile i) := by
  intro t hl hh
  split
  next taken => exact tileRun_jump h (if_pos (hp.trans (decide_eq_true taken))) hl hh
  next stays => exact tileRun_done h (if_neg (by simp [hp, stays]))

theorem not_slt_eq (a b : Word) : (!a.slt b) = decide (b.toInt ≤ a.toInt) := by
  rw [BitVec.slt_eq_decide, ← decide_not, decide_eq_decide, not_lt]

theorem not_ult_eq (a b : Word) : (!a.ult b) = decide (b.toNat ≤ a.toNat) := by
  rw [BitVec.ult_eq_decide, ← decide_not, decide_eq_decide, not_lt]

/-- Settles O32: the branches, taken and not, and the jumps. -/
theorem tileBranches : Obligations.TileBranches := by
  intro i w s x a b t go
  refine ⟨fun hl hh => ⟨?beq, ?bne, ?blt, ?bge, ?bltu, ?bgeu, ?jal⟩, ?jr⟩
  case beq => exact fun h => congrArg _ (tileRun_branch rfl h hl hh)
  case bne => exact fun h => congrArg _ (tileRun_branch rfl h hl hh)
  case blt => exact fun h => congrArg _ (tileRun_branch rfl h hl hh)
  case bge => exact fun h => congrArg _ (tileRun_branch (not_slt_eq a b) h hl hh)
  case bltu => exact fun h => congrArg _ (tileRun_branch rfl h hl hh)
  case bgeu => exact fun h => congrArg _ (tileRun_branch (not_ult_eq a b) h hl hh)
  case jal => exact fun h hr => congrArg _ (tileRun_jump h (if_neg (not_not.2 hr)) hl hh)
  case jr =>
    intro n hn hh h
    subst hn
    exact congrArg _ (tileRun_jump h rfl (Int.natCast_nonneg _) (Int.ofNat_le.2 hh))

end Sys2Proof.Machine
end

section
/-!
PROOFS. The vector and matrix instructions of a tile, QNT and the transfers (R309 to R320, R337 to R345), and the settling
of O33 to O36.
-/
namespace Sys2Proof.Machine

variable {s u : State} {i op : Nat} {w : Word} {f : Fmt} {x : Tile}

/-! ## Vectors (R309 to R311) -/

section
variable (hf : vecFmt w = some f)
include hf

theorem vecArith_done (g : Val → Val → Val) :
    let rs := List.zipWith (fun a b => f.store (wVrnd w) (g (f.value a) (f.value b))) (x.codes f (wVs1 w)) (x.codes f (wVs2 w))
    vecArith g w x = .done (x.setVec (wVd w) (f.nonets (rs.map (·.1)))) [(wVslot w, rs.countP (·.2))] := by
  simp only [vecArith, hf]

theorem vecPick_done (larger : Bool) : vecPick larger w x = .done (x.setVec (wVd w)
    (f.nonets (List.zipWith (pick f larger) (x.codes f (wVs1 w)) (x.codes f (wVs2 w))))) [] := by
  simp only [vecPick, hf]

theorem vbc_done : vbc w x = .done (x.setVec (wVd w)
    (f.nonets (List.replicate f.elements ((x.reg (wVrs w)).toNat % 2 ^ f.bits)))) [] := by
  simp only [vbc, hf]

theorem vred_sum (hs : wVsub w = 0) :
    let r := f.store (wVrnd w) (Val.sum ((x.codes f (wVs1 w)).map f.value))
    vred w x = .done (x.setReg (wVrs w) (BitVec.ofNat 36 r.1)) [(wVslot w, if r.2 then 1 else 0)] := by
  simp only [vred, hf, hs, if_true]

theorem vmsk_done : vmsk w x = .done (x.setVec (wVd w) (f.nonets ((x.codes f (wVs1 w)).mapIdx (fun e c =>
    if 32 * (wVsub w % 2) ≤ e ∧ e ≤ 32 * (wVsub w % 2) + 31 ∧ !bit (x.reg (wVrs w)) (e - 32 * (wVsub w % 2))
    then f.lowest else c)))) [] := by
  simp only [vmsk, hf]

end

theorem vcvt_done {src tgt : Fmt} (hs : Fmt.ofCode (wVs2 w) = some src) (ht : Fmt.ofCode (wVfmt w) = some tgt)
    (hp : tilePair src tgt = true) (hh : wVsub w % 4 < 2 ∨ (src.elements ≠ 32 ∧ tgt.elements ≠ 32)) :
    let p := wVsub w % 4
    let rs := (List.range 16).map (fun e => convertCode src tgt (wVrnd w) (wVovf w)
      (src.element (x.vec (wVs1 w)) ((if src.elements > 16 then 16 * p else 0) + e)))
    vcvt w x = .done (x.setVec (wVd w) (spliceElements tgt (x.vec (wVd w)) (if tgt.elements > 16 then 16 * p else 0)
      (rs.map (·.1)))) [(wVslot w, rs.countP (·.2))] := by
  have inside : ¬ ((src.elements = 32 ∨ tgt.elements = 32) ∧ 2 ≤ wVsub w % 4) := by omega
  simp only [vcvt, hs, ht]
  rw [if_neg (by simp [hp]), if_neg inside]

/-- Settles O33: the vector instructions and the conversion of formats. -/
theorem tileVectors : Obligations.TileVectors := by
  refine ⟨?vectors, ?convert⟩
  case vectors =>
    intro i w f s x a arith picked
    refine ⟨?vld, ?vst, fun hf => ⟨?vadd, ?vsub, ?vmul, ?vmax, ?vmin, ?vbc, ?vred, ?vmsk⟩⟩
    case vld => exact fun h hn ha => congrArg _ (tileRun_done h ((if_neg (not_not.2 hn)).trans (access_of_allows ha)))
    case vst => exact fun h hn ha => congrArg _ (tileRun_done h ((if_neg (not_not.2 hn)).trans (access_of_allows ha)))
    case vadd => exact fun h => congrArg _ (tileRun_counts h (vecArith_done hf _))
    case vsub => exact fun h => congrArg _ (tileRun_counts h (vecArith_done hf _))
    case vmul => exact fun h => congrArg _ (tileRun_counts h (vecArith_done hf _))
    case vmax => exact fun h => congrArg _ (tileRun_done h (vecPick_done hf true))
    case vmin => exact fun h => congrArg _ (tileRun_done h (vecPick_done hf false))
    case vbc => exact fun h => congrArg _ (tileRun_done h (vbc_done hf))
    case vred => exact fun h hs => congrArg _ (tileRun_counts h (vred_sum hf hs))
    case vmsk => exact fun h => congrArg _ (tileRun_done h (vmsk_done hf))
  case convert => exact fun _ _ _ _ _ h hs ht hp hh => congrArg _ (tileRun_counts h (vcvt_done hs ht hp hh))

/-! ## QNT (R315, R337 to R342) -/

theorem qnt_done {stride : Nat} (hf : Fmt.ofCode (fld w 14 4) = some f) (hs : qntStride f = some stride)
    (hm : bit w 13 = false)
    (ha : x.Allows [{ write := false, addr := (x.reg (wM2 w)).toNat, n := 192, align := 64 },
      { write := true, addr := (x.reg (wM1 w)).toNat, n := stride * (fld w 2 5 + 1) }]) :
    let p := x.scratch (x.reg (wM2 w)).toNat 192
    let res := forRows (fld w 2 5 + 1) (fun r y =>
      let cs := List.zipWith (fun (a : Word) j => f.convert (bit w 12) (bit w 11)
          (rescaleFloat a (p.getD j 0) (Fmt.f36.element (p.drop 32) 0) (Fmt.f36.element (p.drop 64) j)))
        (x.accRow (wAd w) r) (List.range 32)
      (y.setScratch ((x.reg (wM1 w)).toNat + stride * r) (f.nonets (cs.map (·.1) ++ (if f = .s4 then [0, 0, 0, 0] else []))),
        cs.countP (·.2))) x
    qnt w x = .done res.1 [(fld w 7 4, res.2)] := by
  simp only [qnt, hf, hs, hm, Bool.false_and, Bool.false_eq_true, if_false, access_of_allows ha]

/-- Settles O35: a QNT whose rescale is not folded. -/
theorem tileQuantise : Obligations.TileQuantise := by
  intro i w f stride s h hf hs hm x n out pb ha
  exact congrArg _ (tileRun_counts h (qnt_done hf hs hm ha))

/-! ## Transfers (R317 to R320, R519) -/

section
variable {store : Bool} {tenant job : Nat}

theorem transfer_starts (hd : wRd w = 0) (hn : wFn w < 256) (hs : (x.reg (wRs2 w)).toNat + (wFn w + 1) ≤ 4096)
    (hl : 72 * ((x.reg (wRs1 w)).toNat + (wFn w + 1)) ≤ 2 ^ 40) (hx : x.xfers.length < 8)
    (ha : x.Allows [{ write := !store, addr := 64 * (x.reg (wRs2 w)).toNat, n := 64 * (wFn w + 1) }]) :
    transfer store tenant job w x = .done { x with xfers := x.xfers ++
      [{ store := store, dline := (x.reg (wRs1 w)).toNat, sline := (x.reg (wRs2 w)).toNat, lines := wFn w + 1, pc := x.pc
         tenant := tenant, job := job }] } [] := by
  simp only [transfer, Nat.mod_eq_of_lt hn]
  rw [if_neg (by omega), if_neg (by omega), if_neg (by omega), access_of_allows ha, if_neg (by omega)]

end

theorem tileRun_dwt (h : s.Runs i op w) (hn : wImm w ≤ 7) (hd : wRd w = 0) (hr : wRs1 w = 0) :
    tileRun op i dwt s = if (s.tile i).xfers.length ≤ wImm w then s.advance i (s.tile i) else s := by
  have legal : ¬ (7 < wImm w ∨ wRd w ≠ 0 ∨ wRs1 w ≠ 0) := by omega
  split
  next few => exact tileRun_done h ((if_neg legal).trans (if_neg (not_lt.2 few)))
  next many => exact tileRun_wait h ((if_neg legal).trans (if_pos (not_le.1 many)))

/-- The movement of a transfer's lines. -/
def moveLines (i : Nat) (t : Xfer) (s : State) : Moved × State :=
  if t.store then moveOut i t t.lines 0 s else moveIn i t t.lines 0 s

theorem transferComplete_all {n : Nat} {t : Xfer} (ht : (s.tile i).xfers[n]? = some t) (hr : s.requestsDue t = false)
    (hc : s.claimedIn t.tenant (72 * t.dline) (72 * t.lines) = false)
    (hm : moveLines i t (s.setTile i { s.tile i with xfers := (s.tile i).xfers.eraseIdx n }) = (.all, u)) :
    transferComplete i n [] [] s = u := by
  have still : flipParity i [] (s.setTile i { s.tile i with xfers := (s.tile i).xfers.eraseIdx n })
      = s.setTile i { s.tile i with xfers := (s.tile i).xfers.eraseIdx n } := by simp [flipParity]
  simp only [transferComplete, ht, hr, hc, still, Bool.or_self, Bool.false_eq_true, if_false]
  exact congrArg (fun r : Moved × State => transferFault i t r.1 r.2) hm

/-- Settles O36: DLD, DST and DWT, and a transfer that completes whole. -/
theorem tileTransfers : Obligations.TileTransfers := by
  refine ⟨?start, ?wait, ?complete⟩
  case start =>
    intro i w s x n dl sl xf hd hn hs hl hx
    exact ⟨fun h ha => congrArg _ (tileRun_done h (transfer_starts (store := false) hd hn hs hl hx ha)),
      fun h ha => congrArg _ (tileRun_done h (transfer_starts (store := true) hd hn hs hl hx ha))⟩
  case wait => exact fun _ _ _ h hn hd hr => congrArg _ (tileRun_dwt h hn hd hr)
  case complete => exact fun _ _ _ _ _ ht hr hc hm => congrArg Host.Outcome.next (transferComplete_all ht hr hc hm)

/-! ## Matrices (R312, R294, R295) -/

theorem mma_done (hm : wM2 w = 0) (hr : wR0 w + wRows w ≤ 32)
    (ha : x.Allows [{ write := false, addr := (x.reg (wM1 w)).toNat, n := 32 * wRows w, align := 8 }]) :
    let out := forRows (wRows w) (fun r y => addRow (wAd w) (bit w 0) (wR0 w + r)
      ((List.range 32).map (fun j => dot (inputRow w x r)
        ((List.range 32).map (fun k => x.weight (fld w 1 1) k j)))) y) x
    mma w x = .done { out.1 with pace := x.pace + BitVec.ofNat 48 (wRows w), recent := x.recent + wRows w }
      [(15, out.2)] := by
  have legal : ¬ (wM2 w ≠ 0 ∨ 32 < wR0 w + wRows w) := by omega
  simp only [mma, if_neg legal, access_of_allows ha]

theorem countSat_recent (i slot n : Nat) (s : State) : ((countSat i slot n s).tile i).recent = (s.tile i).recent := by
  simp only [countSat]
  split
  · rfl
  · rw [apply_ite (fun t : State => (t.tile i).recent)]
    refine (ite_congr rfl (fun _ => ?_) (fun _ => ?_)).trans (ite_self (s.tile i).recent)
    · exact (congrArg Tile.recent (State.tile_setTile_same ..)).trans rfl
    · exact (congrArg Tile.recent (State.tile_setTile_same ..)).trans rfl

theorem advance_recent (s : State) (i : Nat) (y : Tile) : ((s.advance i y).tile i).recent = y.recent :=
  (congrArg Tile.recent (State.tile_setTile_same ..)).trans rfl

/-- An MMA of one row. -/
def oneRow : Word := 0xB40000000

/-- A card whose tile 0 is about to run it. -/
def atOneRow : State := State.reset.setTile 0 { running := true, imem := [(0, oneRow)] }

/-- Refutes O34: an MMA also counts its rows in the window of GRD_QRATEq (R295), which the statement leaves out. -/
theorem not_tileMatrix : ¬ Obligations.TileMatrix := by
  rintro ⟨matrix, -⟩
  obtain ⟨-, mma, -⟩ := matrix 0 oneRow atOneRow
  have runs : atOneRow.Runs 0 0x2D oneRow := by constructor <;> decide
  have allows : (atOneRow.tile 0).Allows [{ write := false, addr := 0, n := 32, align := 8 }] := by constructor <;> decide
  have claimed := mma runs (by decide) (by decide) allows
  have counted := tileRun_counts runs (mma_done (by decide) (by decide) allows)
  have same := congrArg (fun o => match o with
    | Host.Outcome.next t => (t.tile 0).recent
    | _ => 0) (claimed.symm.trans (congrArg Host.Outcome.next counted))
  simp only [countSat_recent, advance_recent] at same
  exact absurd same (by decide)

end Sys2Proof.Machine
end

section
/-!
PROOFS. Token tables, token streams and the Damper (R496 to R519), and the settling of O50.
-/
namespace Sys2Proof.Machine

variable {s u : State} {q : Requester} {t : Nat} {x : TokStream} {rest : List TokStream} {j : Job}

@[simp] theorem emitReads_tok (t a n : Nat) (s : State) : (emitReads t a n s).tok = s.tok :=
  emitReads_keeps State.tok (fun _ _ => rfl) ..

/-! ## Loading and clearing tables (R496 to R498, R513) -/

section
variable {off : Nat} {f : State → State}

theorem tokWrite_locked (h : access q (.blk (baseTOK t)) true s = .go) (hl : s.tokLocked t = true) :
    regWrite q (.blk (baseTOK t)) (tokWrite q t off f) s = regError q (baseTOK t + off) s :=
  (regWrite_go h).trans (if_pos hl)

theorem tokWrite_free (h : access q (.blk (baseTOK t)) true s = .go) (hl : s.tokLocked t = false) :
    regWrite q (.blk (baseTOK t)) (tokWrite q t off f) s = f s :=
  (regWrite_go h).trans (if_neg (by simp [hl]))

end

/-- How the check of a token set ends, when its regions have been read (R496). -/
def setChecked (t : Nat) (u : State) : State :=
  match u.checkSet t with
  | .inr (_, bs) => u.setTokTen t { u.tokTen t with
      tokValid := true, tokErr := 0, tokCrc := Config.tableCrc bs, checking := .none }
  | .inl e => raise 192 (u.setTokTen t { u.tokTen t with
      tokValid := false, gramValid := false, tokErr := BitVec.ofNat 4 e, checking := .none })

theorem tokCheckDone_read (hc : (s.tokTen t).checking = .set) (ho : s.on domTOK = true)
    (hf : s.claimedAny t (s.setReads t) = false) (hr : readTables t (s.setReads t) (dropOnDie t s) = (true, u)) :
    tokCheckDone t s = setChecked t u := by
  rw [tokCheckDone, if_neg (by simp [hc, ho, hf]), hr]
  rfl

/-- How the check of a grammar ends, when its regions have been read (R513). -/
def grammarChecked (t : Nat) (u : State) : State :=
  match u.checkGrammar t with
  | .inr (_, bs) => u.setTokTen t { u.tokTen t with
      gramValid := true, gramErr := 0, gramCrc := Config.tableCrc bs, checking := .none }
  | .inl e => raise 193 (u.setTokTen t { u.tokTen t with
      gramValid := false, gramErr := BitVec.ofNat 4 e, checking := .none })

theorem gramCheckDone_read (hc : (s.tokTen t).checking = .grammar) (ho : s.on domTOK = true)
    (hf : s.claimedAny t (s.gramReads t) = false) (hr : readTables t (s.gramReads t) (dropOnDie t s) = (true, u)) :
    gramCheckDone t s = grammarChecked t u := by
  rw [gramCheckDone, if_neg (by simp [hc, ho, hf]), hr]
  rfl

/-! ## Token streams (R499, R505, R509) -/

section
variable (hs : s.tok.streams = x :: rest) (hl : s.liveStreams = x :: rest)
include hs hl

/-- Where every stream is live, there is nothing to drop. -/
theorem cleanStreams_live : cleanStreams s = s := by
  have live : s.streamLive x = true := by
    have kept : x ∈ s.tok.streams.filter s.streamLive := by
      rw [show s.tok.streams.filter s.streamLive = x :: rest from hl]
      exact List.mem_cons_self
    exact (List.mem_filter.1 kept).2
  have serving : (s.tok.serving && s.streamLive x) = s.tok.serving := by rw [live, Bool.and_true]
  simp only [cleanStreams, hl, hs, serving]
  rw [← hs]

section
variable (ho : s.on domTOK = true)
include ho

theorem streamStart_onDie {pick : TokStream → Bool} (hv : s.tok.serving = false) (hd : s.tok.onDie = some x.tenant)
    (hp : pick x = true) : streamStart pick s = { s with tok := { s.tok with serving := true } } := by
  simp only [streamStart, cleanStreams_live hs hl]
  rw [if_neg (by simp [ho, hv])]
  simp only [hs]
  rw [if_neg (by simp [hp, hd]), loadSet, if_pos hd, ← hs]

variable (hv : s.tok.serving = true) (hj : s.job? x.job = some j) (hk : s.linkOk j.tenant = true)
include hv hj hk

theorem streamComplete_written {input : List Byte} (hd : x.detok = false)
    (hc : s.claimedAny j.tenant [s.streamRegion j] = false)
    (hm : s.mapped j.tenant (s.streamRegion j).1 (s.streamRegion j).2 = true) :
    let r := s.tok.set.tokenize (input.take (dAuxLen j.desc))
    streamComplete input s = (endStream (writeStream j r.1 r.2.1 r.2.2
      (emitReads j.tenant (dAuxAddr j.desc) (dAuxLen j.desc) s))).modJob x.job (fun j => { j with streamDue := false }) := by
  simp only [streamComplete, cleanStreams_live hs hl, hs, hj]
  rw [if_neg (by simp [hv, hd, ho, hk, hc]), if_neg (by simp [hm]), emitReads_tok]

theorem detokenizeDone_written {out : List Byte} (hd : x.detok = true)
    (hc : s.claimedIn j.tenant j.man.outRegion j.man.outBytes = false)
    (hr : readRegions tokBlock x.job j.tenant [(j.man.outRegion, j.man.outBytes)] s = (true, u))
    (hb : u.tok.set.detokenize 0 (outputIds j.man.outNonets
      ((u.readTen j.tenant j.man.outRegion j.man.outBytes).getD [])) = (out, none)) :
    detokenizeDone x.job s = (endStream (writeOutput j 0 out u)).modJob x.job (fun j => { j with
      stageDue := false, outBytes := out.length }) := by
  simp only [detokenizeDone, cleanStreams_live hs hl, hs, hj]
  rw [if_neg (by simp [hv, hd, ho, hk, hc])]
  simp only [hr, hb]

end

end

/-! ## The Damper (R515 to R519) -/

theorem damperRequest_accepted {i slot n : Nat} {x : Xfer} (ho : s.on domTOK = true)
    (hs : slot < (s.tokTen t).slots.toNat) (hr : s.tok.damps.length < 256)
    (hx : s.requestXfer i t ((s.tokTen t).dampReq.toNat + slot) 8 = some (n, x)) :
    let d := s.tokTen t
    let line := d.dampReq.toNat + slot
    let r : DampReq := { job := x.job, tenant := t, slot := slot, words := s.xferWords i x line }
    let u := claimLines t (d.dampRes.toNat + 513 * slot) r.lines (acceptLine i n line 8 s)
    damperRequest i t slot s = { u with tok := { u.tok with damps := u.tok.damps ++ [r] } } := by
  simp only [damperRequest]
  rw [if_neg (by simp [ho, hs, hr])]
  simp only [hx]

section
variable {r : DampReq} {rest : List DampReq} (hs : s.tok.damps = r :: rest) (ho : s.on domTOK = true)
include hs ho

theorem damperService_valid (hv : (s.tokTen r.tenant).gramValid = true) (hd : s.tok.dampOn = some r.tenant) :
    damperService s = answerDamper true r { s with tok := { s.tok with damps := rest } } := by
  simp only [damperService, hs]
  rw [if_neg (by simp [ho, hd]), if_neg (by simp [hv]), loadGrammar, if_pos hd]

theorem damperService_invalid (hv : (s.tokTen r.tenant).gramValid = false)
    (hd : s.tok.dampOn = some r.tenant ∨ s.claimedAny r.tenant (s.damperReads r.tenant) = false) :
    damperService s = answerDamper false r { s with tok := { s.tok with damps := rest } } := by
  have free : ¬ (s.tok.dampOn ≠ some r.tenant ∧ s.claimedAny r.tenant (s.damperReads r.tenant) = true) :=
    fun ⟨away, claimed⟩ => hd.elim away fun free => by simp [free] at claimed
  simp only [damperService, hs]
  rw [if_neg (by simpa [ho] using free), if_pos (by simp [hv])]

end

/-- Settles O50: the tables' commands, the streams that are begun and completed, and the Damper's requests. -/
theorem tablesAndTokens : Obligations.TablesAndTokens := by
  refine ⟨⟨?tables, ?set, ?grammar, ?loads⟩, ?start, ?complete, ?detokenize, ?request, ?serve⟩
  case tables =>
    refine fun q t s h => ⟨fun hl => ⟨?_, ?_, ?_, ?_⟩, fun hl => ⟨?_, fun hv => ?_, fun hv => ?_, ?_, ?_⟩⟩
    case refine_1 => exact congrArg _ (tokWrite_locked h hl)
    case refine_2 => exact congrArg _ (tokWrite_locked h hl)
    case refine_3 => exact congrArg _ (tokWrite_locked h hl)
    case refine_4 => exact congrArg _ (tokWrite_locked h hl)
    case refine_5 => exact congrArg _ (tokWrite_free h hl)
    case refine_6 => exact congrArg Host.Outcome.next ((tokWrite_free h hl).trans (if_pos hv))
    case refine_7 =>
      exact congrArg Host.Outcome.next ((tokWrite_free h hl).trans (if_neg (Bool.eq_false_iff.1 hv)))
    case refine_8 => exact congrArg _ (tokWrite_free h hl)
    case refine_9 => exact congrArg _ (tokWrite_free h hl)
  case set => exact fun _ _ _ hc ho hf hr => congrArg Host.Outcome.next (tokCheckDone_read hc ho hf hr)
  case grammar => exact fun _ _ _ hc ho hf hr => congrArg Host.Outcome.next (gramCheckDone_read hc ho hf hr)
  case loads => exact fun _ _ h => congrArg Host.Outcome.next (regRead_go h)
  case start => exact fun _ _ _ hs hl ho hv hd =>
    ⟨fun hx => congrArg _ (streamStart_onDie hs hl ho hv hd (by simp [hx])),
      fun hx => congrArg _ (streamStart_onDie hs hl ho hv hd (by simp [hx]))⟩
  case complete =>
    exact fun _ _ _ _ _ hs hl ho hv hd hj hk hc hm =>
      congrArg Host.Outcome.next (streamComplete_written hs hl ho hv hj hk hd hc hm)
  case detokenize =>
    exact fun _ _ _ _ _ _ hs hl ho hv hd hj hk hc hr hb =>
      congrArg Host.Outcome.next (detokenizeDone_written hs hl ho hv hj hk hd hc hr hb)
  case request =>
    intro i t slot n x s ho d line hs hr hx
    exact congrArg Host.Outcome.next (damperRequest_accepted ho hs hr hx)
  case serve => exact fun _ _ _ hs ho =>
    ⟨fun hv hd => congrArg _ (damperService_valid hs ho hv hd), fun hv hd => congrArg _ (damperService_invalid hs ho hv hd)⟩

end Sys2Proof.Machine
end

section
/-!
PROOFS. What the end of a job, a fault or a message leaves alone (R288, R395, R561, R573): everything but jobs, tiles,
messages, links, events and records; and no link comes up or goes down by it.
-/
namespace Sys2Proof.Machine

variable {s t u : State}

/-- t is s but for jobs, tiles, messages, flits, events and records, and the same links are up. -/
structure State.Spares (s t : State) : Prop where
  rest : ∃ out free gng car flt sch grd links, t = { s with
    out := out, free := free, gng := gng, car := car, flt := flt, sch := sch, grd := grd
    chn := { s.chn with links := links } }
  up   : ∀ y, (t.link y).up = (s.link y).up

namespace State.Spares

theorem pwr (h : s.Spares t) : t.pwr = s.pwr := by
  obtain ⟨⟨_, _, _, _, _, _, _, _, rfl⟩, -⟩ := h; rfl

theorem cym (h : s.Spares t) : t.cym = s.cym := by
  obtain ⟨⟨_, _, _, _, _, _, _, _, rfl⟩, -⟩ := h; rfl

theorem bypassing (h : s.Spares t) : t.chn.bypassing = s.chn.bypassing := by
  obtain ⟨⟨_, _, _, _, _, _, _, _, rfl⟩, -⟩ := h; rfl

theorem refl (s : State) : s.Spares s := ⟨⟨_, _, _, _, _, _, _, _, rfl⟩, fun _ => rfl⟩

theorem trans (h : s.Spares t) (k : t.Spares u) : s.Spares u := by
  have up (y : Nat) : (u.link y).up = (s.link y).up := (k.up y).trans (h.up y)
  obtain ⟨⟨_, _, _, _, _, _, _, _, rfl⟩, -⟩ := h
  obtain ⟨⟨_, _, _, _, _, _, _, _, rfl⟩, -⟩ := k
  exact ⟨⟨_, _, _, _, _, _, _, _, rfl⟩, up⟩

theorem of_forEach {α : Type} {f : α → State → State} (hf : ∀ a (s : State), s.Spares (f a s)) (l : List α) (s : State) :
    s.Spares (forEach l f s) := by
  unfold forEach
  induction l generalizing s with
  | nil => exact .refl s
  | cons a l ih => exact (hf a s).trans (ih _)

/-- A link is written that is up or down as it was. -/
theorem of_setLink {x : Nat} {l : Link} (hl : l.up = (s.link x).up) : s.Spares (s.setLink x l) := by
  refine ⟨⟨_, _, _, _, _, _, _, _, rfl⟩, fun y => ?_⟩
  rw [State.link_setLink]
  split
  next hy => rw [hl, hy]
  next => rfl

theorem of_modJob (s : State) (id : Nat) (f : Job → Job) : s.Spares (s.modJob id f) :=
  ⟨⟨_, _, _, _, _, _, _, _, rfl⟩, fun _ => rfl⟩

theorem of_setTile (s : State) (i : Nat) (x : Tile) : s.Spares (s.setTile i x) :=
  ⟨⟨_, _, _, _, _, _, _, _, rfl⟩, fun _ => rfl⟩

end State.Spares

/-! ## Flits (R552, R555, R561) -/

theorem raise_spares (n : Nat) (s : State) : s.Spares (raise n s) := ⟨⟨_, _, _, _, _, _, _, _, rfl⟩, fun _ => rfl⟩

theorem countFlt_spares (d : Nat) (s : State) : s.Spares (countFlt d s) :=
  ⟨⟨_, _, _, _, _, _, _, _, rfl⟩, fun _ => rfl⟩

theorem writeRecord_spares (f : Finding) (j : Option Job) (s : State) : s.Spares (writeRecord f j s) :=
  ⟨⟨s.out, s.free, (takeStamp s).gng, s.car, (writeRecord f j s).flt, s.sch, s.grd, s.chn.links, rfl⟩, fun _ => rfl⟩

theorem transmit_spares (x : Nat) (m : BitVec 8 → Sent) (s : State) : s.Spares (transmit x m s) := by
  have numbered : s.Spares (s.setLink x { s.link x with
    txSeq := (s.link x).txSeq + 1, replay := (s.link x).replay ++ [m (s.link x).txSeq] }) := .of_setLink rfl
  simp only [transmit]
  split
  · exact numbered.trans ⟨⟨_, _, _, _, _, _, _, _, rfl⟩, fun _ => rfl⟩
  · exact numbered

theorem sendFlit_spares (x : Nat) (f : Flit) (s : State) : s.Spares (sendFlit x f s) := transmit_spares ..

theorem pump_spares (n x : Nat) (s : State) : s.Spares (pump n x s) := by
  induction n generalizing s with
  | zero => exact .refl s
  | succ n ih =>
    simp only [pump]
    split
    · exact .refl s
    · split
      · refine State.Spares.trans ?_ (ih _)
        refine State.Spares.trans ?_ (sendFlit_spares ..)
        exact .of_setLink rfl
      · exact .refl s

theorem pumpAll_spares (x : Nat) (s : State) : s.Spares (pumpAll x s) := pump_spares ..

theorem forwardFlit_spares (y : Nat) (f : Flit) (s : State) : s.Spares (forwardFlit y f s) := by
  refine State.Spares.trans ?_ (pumpAll_spares ..)
  exact .of_setLink rfl

theorem answerBack_spares (x : Nat) (hdr : Lane) (code : Nat) (s : State) : s.Spares (answerBack x hdr code s) := by
  rw [answerBack]
  split
  · exact sendFlit_spares ..
  · exact .refl s

theorem setRx_spares (x : Nat) (r : Rx) (s : State) : s.Spares (setRx x r s) := .of_setLink rfl

/-! ## Jobs (R288, R395, R576) -/

theorem cutOutward_spares (m : Msg) (s : State) : s.Spares (cutOutward m s) := by
  rw [cutOutward]
  split
  · refine (sendFlit_spares m.via abortFlit s).trans ?_
    refine State.Spares.trans ?_ (pumpAll_spares ..)
    exact .of_setLink rfl
  · exact .refl s

theorem releaseTile_spares (i : Nat) (s : State) : s.Spares (releaseTile i s) := by
  simp only [releaseTile]
  split
  · exact .of_setTile ..
  · refine State.Spares.trans (t := s.draw.2) ⟨⟨_, _, _, _, _, _, _, _, rfl⟩, fun _ => rfl⟩ ?_
    exact .of_setTile ..

theorem chargeJob_spares (id : Nat) (s : State) : s.Spares (chargeJob id s) := by
  rw [chargeJob]
  split
  · exact .refl s
  · exact ⟨⟨_, _, _, _, _, _, _, _, rfl⟩, fun _ => rfl⟩

theorem releaseTiles_spares (id : Nat) (s : State) : s.Spares (releaseTiles id s) := by
  simp only [releaseTiles]
  split
  · exact .refl s
  · refine State.Spares.trans ?_ ((chargeJob_spares id _).trans (.of_modJob ..))
    refine State.Spares.trans ?_ (.of_forEach releaseTile_spares ..)
    refine State.Spares.trans ?_ (.of_forEach cutOutward_spares ..)
    exact ⟨⟨_, _, _, _, _, _, _, _, rfl⟩, fun _ => rfl⟩

theorem finishJob_spares (id : Nat) (st : BitVec 8) (d : Nat) (s : State) : s.Spares (finishJob id st d s) := by
  rw [finishJob]
  split
  · exact .refl s
  · split
    · exact .refl s
    · exact (releaseTiles_spares id s).trans (.of_modJob ..)

theorem fireJob_spares (f : Finding) (id : Nat) (s : State) : s.Spares (fireJob f id s) := by
  refine (countFlt_spares f.detector s).trans ?_
  simp only [fireJob]
  split
  · exact raise_spares ..
  · split
    · exact raise_spares ..
    · next j _ _ =>
      have recorded (n : Nat) : (countFlt f.detector s).Spares
          ((writeRecord f (some j) (countFlt f.detector s)).modJob id (fun j => { j with recorded := some n })) :=
        (writeRecord_spares ..).trans (.of_modJob ..)
      refine State.Spares.trans ?_ (raise_spares ..)
      split <;> exact (recorded _).trans (finishJob_spares ..)

theorem tileFault_spares (i code info : Nat) (s : State) : s.Spares (tileFault i code info s) := by
  have marked (u : State) (p : Prop) [Decidable p] (flt : Flt) : u.Spares (if p then { u with flt := flt } else u) := by
    split
    · exact ⟨⟨_, _, _, _, _, _, _, _, rfl⟩, fun _ => rfl⟩
    · exact .refl u
  simp only [tileFault]
  split
  · refine State.Spares.trans ?_ (fireJob_spares ..)
    exact (State.Spares.of_setTile s i _).trans (marked ..)
  · refine State.Spares.trans ?_ (raise_spares ..)
    refine State.Spares.trans ?_ (countFlt_spares ..)
    exact (State.Spares.of_setTile s i _).trans (marked ..)

theorem failSender_spares (hdr : Lane) (code : Nat) (s : State) : s.Spares (failSender hdr code s) := by
  simp only [failSender]
  split
  · exact tileFault_spares ..
  · exact .refl s

end Sys2Proof.Machine
end

section
/-!
PROOFS. Video streams, their requests and their pictures (R523 to R545), and the settling of O51.
-/
namespace Sys2Proof.Machine

variable {s u : State} {q : Requester} {n : Nat} {r : CymReq} {v : CymService}

/-! ## Answers leave the requests and the service as they are -/

@[simp] theorem writeResultFor_cym (block job t line : Nat) (ws : List Word) (s : State) :
    (writeResultFor block job t line ws s).cym = s.cym := by
  simp only [writeResultFor]
  split
  · exact writeResult_cym ..
  · exact (fireJob_spares ..).cym.trans (writeResult_cym ..)

@[simp] theorem answerPicture_cym (r : CymReq) (ws : List Word) (s : State) : (answerPicture r ws s).cym = s.cym := by
  simp only [answerPicture, State.modJob_cym, writeResultFor_cym]

/-! ## The registers of a stream (R523, R537, R545) -/

section
variable (he : (s.stream n).enable = false)
include he

theorem enableStream_off : enableStream n s =
    if s.streamErr (s.stream n) ≠ 0 then
      s.setStream n { s.stream n with err := BitVec.ofNat 4 (s.streamErr (s.stream n)) }
    else rescale (s.setStream n { s.stream n with
      enable := true, state := 1, err := 0, first := true, sinceIdr := 0, pics := 0, recon := [], waiting := []
      copies := [], parts := s.streamParts (s.stream n) }) := if_neg (by simp [he])

end

theorem restartStream_stopped (hs : (s.stream n).state = 2) : restartStream n s = rescale (s.setStream n { s.stream n with
    state := 1, recon := [], waiting := [], first := true, parts := s.streamParts (s.stream n) }) := if_pos hs

theorem restartStream_other (hs : (s.stream n).state ≠ 2) : restartStream n s = s := if_neg hs

/-! ## Requests (R527, R529) -/

section
variable {i slot k : Nat} {t : Xfer} {decode : Bool} (ho : s.on domCYM = true) (hs : slot < (s.stream n).slots.toNat)
  (hr : s.cym.reqs.length < 256)
  (hx : s.requestXfer i (s.stream n).tenant ((s.stream n).req.toNat + slot) n = some (k, t))
include ho hs hr hx

theorem cymbalRequest_taken :
    let line := (s.stream n).req.toNat + slot
    let r : CymReq := { stream := n, slot := slot, job := t.job, decode := decode, words := s.xferWords i t line }
    (r.op = 1 ↔ decode = true) → cymbalRequest decode i n slot s = takeRequest r (acceptLine i k line n s) := by
  intro line r kind
  simp only [cymbalRequest]
  rw [if_neg (by simp [ho, hs, hr])]
  simp only [hx]
  exact if_pos (propext kind)

end

theorem takeRequest_disabled (he : (s.stream r.stream).enable = false) : takeRequest r s =
    landLine r.job (s.stream r.stream).tenant ((s.stream r.stream).rslt.toNat + r.slot) (failedPicture r 3 0) s :=
  if_pos (by simp [he])

section
variable (he : (s.stream r.stream).enable = true) (hs : (s.stream r.stream).state ≠ 2)
include he hs

theorem takeRequest_invalid (hb : r.bad = true ∨ r.decode ≠ (s.stream r.stream).dir) : takeRequest r s =
    landLine r.job (s.stream r.stream).tenant ((s.stream r.stream).rslt.toNat + r.slot) (failedPicture r 2 0) s :=
  (if_neg (by simp [he])).trans ((if_neg hs).trans (if_pos (hb.imp_right .inl)))

theorem takeRequest_queued (hb : r.bad = false) (hd : r.decode = (s.stream r.stream).dir)
    (hj : (s.job? r.job).any (fun j => j.man.outStage != 0) = false) :
    let t := (claimLine (s.stream r.stream).tenant ((s.stream r.stream).rslt.toNat + r.slot) s).modJob r.job
      (fun j => { j with pictures := j.pictures + 1 })
    takeRequest r s = { t with cym := { t.cym with reqs := t.cym.reqs ++ [r] } } := by
  have valid : ¬ (r.bad = true ∨ r.decode ≠ (s.stream r.stream).dir ∨
      ((!r.decode) = true ∧ (s.job? r.job).any (fun j => j.man.outStage != 0) = true)) := by simp [hb, hd, hj]
  exact (if_neg (by simp [he])).trans ((if_neg hs).trans (if_neg valid))

end

theorem claimLine_cym (t line : Nat) (s : State) : (claimLine t line s).cym = s.cym := by
  rw [claimLine]; split <;> rfl

theorem claimLine_cells (t line : Nat) (s : State) : (claimLine t line s).mem.cells = s.mem.cells := by
  rw [claimLine]; split <;> rfl

/-! ## Pictures (R533, R543) -/

theorem serviceStart_decode {rest : List CymReq} (hv : s.cym.service = none) (hr : s.cym.reqs = r :: rest)
    (ho : s.on domCYM = true) (hd : r.decode = true) : serviceStart s = { s with cym := { s.cym with
      reqs := rest, service := some { req := r }, lastTenant := some (s.stream r.stream).tenant } } := by
  simp only [serviceStart, hv, hr]
  rw [if_neg (by simp [ho, hd]), if_pos hd]

section
variable (hv : s.cym.service = some v) (ho : s.on domCYM = true) (hf : v.finish = none)
  (hc : s.claimedAny (s.stream v.req.stream).tenant [v.req.source] = false)
include hv ho hf hc

theorem pictureDone_decode (hd : v.req.decode = true) : pictureDone s = decodeDone v s := by
  simp only [pictureDone, hv]
  rw [if_neg (by simp [ho, hf, hc]), if_pos hd]

theorem pictureDone_encode (hd : v.req.decode = false) (hl : s.linkOk (s.stream v.req.stream).tenant = true) :
    pictureDone s = encodeDone v s := by
  simp only [pictureDone, hv]
  rw [if_neg (by simp [ho, hf, hc]), if_neg (by simp [hd]), if_pos (.inl hl)]

end

theorem encodeDone_service (hr : readPicture v.req [v.req.roiRegion] s = (true, u)) :
    (encodeDone v s).cym.service = none := by
  simp only [encodeDone, hr]
  split <;> simp

theorem outputOne_written {p : Pict} {rest : List Pict} (hw : (s.stream n).waiting = p :: rest)
    (he : (s.stream n).enable = true)
    (hr : ((s.stream n).outWr - (s.stream n).outRd).toNat < (s.stream n).outSlots.toNat) :
    let x := s.stream n
    s.claimedIn x.tenant (x.slotAt x.outWr).1 (x.slotAt x.outWr).2 = false →
    s.mapped x.tenant (x.slotAt x.outWr).1 (x.slotAt x.outWr).2 = true →
    outputOne n s = (s.writeTen x.tenant (x.slotAt x.outWr).1 ((pictureBytes x.b p).take (x.slotAt x.outWr).2)).setStream n
      { x with waiting := rest, outWr := x.outWr + 1, pics := x.pics + 1 } := by
  intro x free mapped
  simp only [outputOne, hw]
  rw [if_neg (by simp only [he, not_le.2 hr, x, free]; simp), if_neg (by simp [x, mapped])]

theorem decodeEnd_idle (hv : s.cym.service = none) : decodeEnd s = s := by
  simp only [decodeEnd, hv]

section
variable {n : Fin 8} (h : access q (.blk (baseCYM n)) true s = .go)
include h

theorem exec_streamEnable_go : exec (.streamEnable q n) s = .next (enableStream n s) :=
  congrArg Host.Outcome.next (regWrite_go h)

theorem exec_streamRestart_go : exec (.streamRestart q n) s = .next (restartStream n s) :=
  congrArg Host.Outcome.next (regWrite_go h)

end

/-- Settles O51: enable, restart and key request; a request that is accepted and judged; service and its end. -/
theorem streamsAndPictures : Obligations.StreamsAndPictures := by
  refine ⟨⟨?enable, ?restart, ?key⟩, ⟨?request, ?judged⟩, ?service, ?done, ?encoded, ?output⟩
  case enable =>
    intro q n s h he
    refine ⟨fun accepted => ?_, fun refused => ?_⟩
    · rw [exec_streamEnable_go h, enableStream_off he, if_neg (not_not.2 accepted)]
    · rw [exec_streamEnable_go h, enableStream_off he, if_pos refused]
  case restart =>
    intro q n s h
    refine ⟨fun hs => ?_, fun hs => ?_⟩
    · rw [exec_streamRestart_go h, restartStream_stopped hs]
    · rw [exec_streamRestart_go h, restartStream_other hs]
  case key => exact fun _ _ _ h => congrArg Host.Outcome.next (regWrite_go h)
  case request =>
    intro i n slot k t decode s ho x line r hs hr hx
    refine ⟨fun hd kind => ?_, fun hd kind => ?_⟩
    · subst hd
      exact congrArg Host.Outcome.next (cymbalRequest_taken ho hs hr hx (by simpa using kind))
    · subst hd
      exact congrArg Host.Outcome.next (cymbalRequest_taken ho hs hr hx (by simpa using kind))
  case judged =>
    intro r s x line
    refine ⟨takeRequest_disabled, takeRequest_invalid, fun he hs hb hd hj => ?_⟩
    rw [takeRequest_queued he hs hb hd hj]
    exact ⟨by simp [claimLine_cym], claimLine_cells ..⟩
  case service => exact fun _ _ _ hv hr ho hd => congrArg _ (serviceStart_decode hv hr ho hd)
  case done => exact fun _ _ hv ho hf hc => ⟨fun hd => congrArg _ (pictureDone_decode hv ho hf hc hd),
    fun hd hl => congrArg _ (pictureDone_encode hv ho hf hc hd hl)⟩
  case encoded => exact fun _ _ _ hr => encodeDone_service hr
  case output =>
    intro n p rest s ho hw he hv hr x free mapped
    have written := outputOne_written hw he hr free mapped
    refine congrArg Host.Outcome.next ((if_pos ho).trans ?_)
    rw [written]
    exact decodeEnd_idle ((congrArg Cym.service (State.writeTen_cym ..)).trans hv)

end Sys2Proof.Machine
end

section
/-!
PROOFS. The links of the chain, replay, and the registers that a read changes (R548 to R553), and the settling of O52.
-/
namespace Sys2Proof.Machine

variable {s u : State} {q : Requester} {x : Nat} {raw : List Byte}

/-! ## What the card sees of its link (R549, R560) -/

theorem showLink_bypass (hb : s.chn.bypassing = true) : showLink x s = s := if_pos hb

theorem showLink_die (hb : s.chn.bypassing = false) : showLink x s = s.setLink x { s.link x with stat :=
    { up := (s.link x).up, bypass := (s.link x).partnerBypass, assigned := (s.link x).partnerAssigned
      unit := (s.link x).partnerUnit } } := if_neg (by simp [hb])

theorem showLink_spares (x : Nat) (s : State) : s.Spares (showLink x s) := by
  simp only [showLink]
  split
  · exact .refl s
  · exact .of_setLink rfl

section
variable (x : Nat) (s : State)

@[simp] theorem showLink_address : (showLink x s).address = s.address := by simp only [showLink]; split <;> rfl
@[simp] theorem showLink_gng : (showLink x s).gng = s.gng := by simp only [showLink]; split <;> rfl
@[simp] theorem showLink_route : (showLink x s).chn.route = s.chn.route := by simp only [showLink]; split <;> rfl
@[simp] theorem showLink_bypassing : (showLink x s).chn.bypassing = s.chn.bypassing := (showLink_spares x s).bypassing
@[simp] theorem raise_address : (raise x s).address = s.address := rfl
@[simp] theorem raise_era : (raise x s).gng.era = s.gng.era := rfl
@[simp] theorem State.setLink_bypassing (l : Link) : (s.setLink x l).chn.bypassing = s.chn.bypassing := rfl
@[simp] theorem State.setLink_address (l : Link) : (s.setLink x l).address = s.address := rfl

end

/-! ## Training (R548, R549) -/

/-- A link as it comes up (R549). -/
def Link.fresh (l : Link) : Link :=
  { l with up := true, partnerBypass := false, partnerInDown := false, txSeq := 0, rxSeq := 0xFF, replay := []
           fails := 0, rx := .idle, tx := .free, fwd := [], returnDue := false }

theorem linkUp_trains (hc : (s.link x).cabled = true) (hu : (s.link x).up = false) (ho : s.on domCHN = true)
    (hb : s.chn.bypassing = false) (hr : (s.link x).returnDue = false) :
    linkUp x s = relayCtrl x (.linkup (s.address.getD 0) s.address.isSome s.gng.era false)
      (raise (258 + x) (showLink x (s.setLink x (s.link x).fresh))) := by
  have trains : ¬ ((!(s.link x).cabled) = true ∨ (s.link x).up = true ∨ (!s.linkEnd) = true) := by
    simp [hc, hu, State.linkEnd, hb, ho]
  simp only [linkUp]
  rw [if_neg trains]
  simp [hb, hr, Link.fresh]

/-! ## A link that falls (R548, R553, R561) -/

theorem dropSending_spares (x : Nat) (fail : Bool) (s : State) : s.Spares (dropSending x fail s) := by
  let cut : State := { s with grd := { s.grd with
    msgs := s.grd.msgs.filter (fun m => !(m.outward && decide (0 < m.sent) && m.via == x)) } }
  have removed : s.Spares cut := ⟨⟨_, _, _, _, _, _, _, _, rfl⟩, fun _ => rfl⟩
  have freed : cut.Spares (match (cut.link x).tx with
      | .own _ => cut.setLink x { cut.link x with tx := .free }
      | _ => cut) := by
    split
    · exact .of_setLink rfl
    · exact .refl cut
  have ended (l : List Msg) (u : State) :
      u.Spares (if fail then forEach l (fun m s => failSender (m.lanes.headD 0) ansUnreachable s) u else u) := by
    split
    · exact .of_forEach (fun m s => failSender_spares ..) l u
    · exact .refl u
  exact (removed.trans freed).trans (ended ..)

/-- t is s but for jobs, tiles, messages and the link x, which is down. -/
structure State.Falls (x : Nat) (s t : State) : Prop where
  pwr       : t.pwr = s.pwr
  bypassing : t.chn.bypassing = s.chn.bypassing
  up        : ∀ y, (t.link y).up = if y = x then false else (s.link y).up

theorem State.Falls.trans {t : State} (h : s.Falls x t) (k : t.Spares u) : s.Falls x u :=
  ⟨k.pwr.trans h.pwr, k.bypassing.trans h.bypassing, fun y => (k.up y).trans (h.up y)⟩

theorem State.Spares.then_falls {t : State} (h : s.Spares t) (k : t.Falls x u) : s.Falls x u :=
  ⟨k.pwr.trans h.pwr, k.bypassing.trans h.bypassing, fun y => by rw [k.up, h.up]⟩

theorem State.Falls.of_setLink {l : Link} (hl : l.up = false) : s.Falls x (s.setLink x l) := by
  refine ⟨rfl, rfl, fun y => ?_⟩
  rw [State.link_setLink]
  split
  · exact hl
  · rfl

theorem endCrossing_falls (x : Nat) (s : State) : s.Falls x (endCrossing x s) := by
  have outward (y : Nat) (u : State) : u.Spares (match (u.link y).rx with
      | .through hdr => answerBack y hdr ansUnreachable (setRx y .drained u)
      | _ => u) := by
    split
    · exact (setRx_spares ..).trans (answerBack_spares ..)
    · exact .refl u
  have inward (y : Nat) (u : State) : u.Spares (match (u.link x).rx with
      | .through _ => forwardFlit y abortFlit u
      | _ => u) := by
    split
    · exact forwardFlit_spares ..
    · exact .refl u
  refine State.Falls.trans ?_ (setRx_spares ..)
  refine State.Falls.trans ?_ (inward ..)
  refine State.Falls.trans ?_ (outward ..)
  exact (dropSending_spares x true s).then_falls (.of_setLink rfl)

theorem linkFalls_falls (x : Nat) (s : State) : s.Falls x (linkFalls x s) := by
  have shown : s.Falls x (showLink x (endCrossing x s)) := (endCrossing_falls x s).trans (showLink_spares ..)
  simp only [linkFalls]
  split
  · exact shown
  · exact shown.trans (raise_spares ..)

/-! ## The retries of a link that is down (R89, R90, R548) -/

/-- The card once a link's cable is seen and the retimer has its supply. -/
def State.recabled (s : State) (x : Nat) (cable : Cable) : State :=
  powerRetimer (s.setLink x { s.link x with cable := cable })

/-- The link falls with a cable that is gone. -/
def State.uncabled (u : State) (x : Nat) : State := if (u.link x).up && !(u.link x).cabled then linkFalls x u else u

/-- A link falls with the retimer. -/
def fallUp (y : Nat) (s : State) : State := if (s.link y).up then linkFalls y s else s

theorem trainRetry_eq (x : Nat) (cable : Cable) (s : State) : trainRetry x cable s =
    let v := (s.recabled x cable).uncabled x
    if v.on domBYP then v else forEach [0, 1] fallUp v := rfl

theorem uncabled_pwr (u : State) (x : Nat) : (u.uncabled x).pwr = u.pwr := by
  rw [State.uncabled]
  split
  · exact (linkFalls_falls x u).pwr
  · rfl

theorem fallUp_falls (y : Nat) (s : State) : s.Falls y (fallUp y s) := by
  rw [fallUp]
  split
  next => exact linkFalls_falls y s
  next down =>
    refine ⟨rfl, rfl, fun z => ?_⟩
    split
    next same => rw [same, Bool.eq_false_iff.2 down]
    next => rfl

theorem recabled_link (s : State) (x : Nat) (cable : Cable) :
    (s.recabled x cable).link x = { s.link x with cable := cable } :=
  State.link_setLink_same ..

theorem recabled_on (s : State) (x : Nat) (cable : Cable) :
    (s.recabled x cable).on domBYP = (s.on domAON || (s.recabled x cable).cableFed) := bit_setBit_same _ _ (by decide)

section
variable {cable : Cable}

theorem trainRetry_fed (ha : s.on domAON = true) : trainRetry x cable s = (s.recabled x cable).uncabled x := by
  have fed : ((s.recabled x cable).uncabled x).on domBYP = true := by
    rw [State.on, uncabled_pwr, ← State.on, recabled_on, ha, Bool.true_or]
  exact if_pos fed

theorem uncabled_stays (h : (s.link x).up = false ∨ cable ≠ .none) :
    (s.recabled x cable).uncabled x = s.recabled x cable := by
  refine if_neg ?_
  rw [recabled_link]
  rcases h with down | there
  · simp [down]
  · simp [Link.cabled, there]

theorem uncabled_falls (hu : (s.link x).up = true) (hc : cable = .none) :
    (s.recabled x cable).uncabled x = linkFalls x (s.recabled x cable) := by
  refine if_pos ?_
  rw [recabled_link]
  simp [hu, Link.cabled, hc]

/-- Where nothing feeds the retimer, both links fall with it. -/
theorem trainRetry_unfed (ha : s.on domAON = false) (hf : (s.recabled x cable).cableFed = false) :
    let t := trainRetry x cable s
    t.on domBYP = false ∧ (t.link 0).up = false ∧ (t.link 1).up = false := by
  let v := (s.recabled x cable).uncabled x
  have unfed : v.on domBYP = false := by
    rw [State.on, uncabled_pwr, ← State.on, recabled_on, ha, hf, Bool.or_self]
  have both : trainRetry x cable s = fallUp 1 (fallUp 0 v) := if_neg (Bool.eq_false_iff.1 unfed)
  have zero := fallUp_falls 0 v
  have one := fallUp_falls 1 (fallUp 0 v)
  rw [both]
  refine ⟨?_, ?_, ?_⟩
  · rw [State.on, one.pwr, zero.pwr]; exact unfed
  · rw [one.up, zero.up]; rfl
  · rw [one.up]; rfl

end

/-! ## LINKUP (R549) -/

theorem linkupArrives_recorded {unit : BitVec 12} {a i b : Bool} {era : BitVec 16} (hc : s.carries x = true)
    (hn : s.chn.bypassing = true ∨ a = false ∨ s.chn.route = []) : linkupArrives x unit a era i b s =
      showLink x (s.setLink x { s.link x with rxSeq := (s.link x).rxSeq + 1, partnerUnit := unit, partnerAssigned := a
                                              partnerEra := era, partnerInDown := i, partnerBypass := b }) := by
  have agrees : (!s.chn.bypassing && a && !s.chn.route.isEmpty) = false := by
    rcases hn with hb | ha | hr
    · simp [hb]
    · simp [ha]
    · simp [hr]
  simp only [linkupArrives, takeCtrl, State.link_setLink_same, State.setLink_setLink]
  rw [if_neg (by simp [hc]), if_neg]
  simp only [showLink_bypassing, showLink_route, State.setLink_bypassing]
  rw [show (!s.chn.bypassing && a && !(s.setLink x _).chn.route.isEmpty) = false from agrees]
  simp

/-! ## Replay (R552, R553) -/

theorem replay_resends (hr : (s.link x).replay ≠ []) (hf : (s.link x).fails < 8) :
    replay x s = forEach ((s.link x).replay.take 128) (fun m s => s.emit (.chain x m))
      (s.setLink x { s.link x with fails := (s.link x).fails + 1 }) :=
  (if_neg (by simp [hr])).trans (if_neg (not_le.2 hf))

theorem discardFlit_bad (hc : s.carries x = true) (hb : rawGood (s.link x) raw = false) : discardFlit x raw s =
    (s.setLink x { s.link x with crc := satInc (s.link x).crc }).emit (.chain x (.nak (s.link x).rxSeq)) :=
  if_neg (by simp [hc, hb])

theorem discardFlit_good (hb : rawGood (s.link x) raw = true) : discardFlit x raw s = s := if_pos (by simp [hb])

/-- Settles O52: training and its retries, LINKUP, what the card sees, a bad flit, replay, and the reads. -/
theorem chainLinks : Obligations.ChainLinks := by
  refine ⟨?train, ?retry, ?linkup, ?shown, ?discard, ?nak, ?replay, ?arrival, ?stat, ?link, ?crc⟩
  case train => exact fun _ _ hc hu ho hb hr => congrArg Host.Outcome.next (linkUp_trains hc hu ho hb hr)
  case retry =>
    intro x cable s u
    refine ⟨fun ha => ⟨fun h => congrArg Host.Outcome.next ?_, fun hu hc => congrArg Host.Outcome.next ?_⟩,
      fun ha hf => ⟨_, rfl, trainRetry_unfed ha hf⟩⟩
    · exact (trainRetry_fed ha).trans (uncabled_stays h)
    · exact (trainRetry_fed ha).trans (uncabled_falls hu hc)
  case linkup => exact fun _ _ _ _ _ _ _ hc hn => congrArg Host.Outcome.next (linkupArrives_recorded hc hn)
  case shown => exact fun _ _ => ⟨showLink_bypass, showLink_die⟩
  case discard => exact fun _ _ _ hl hc =>
    ⟨fun hb => (if_pos hl).trans (congrArg Host.Outcome.next (discardFlit_bad hc hb)),
      fun hb => (if_pos hl).trans (congrArg Host.Outcome.next (discardFlit_good hb))⟩
  case nak => exact fun _ _ _ hc => ⟨congrArg Host.Outcome.next (if_pos hc), congrArg Host.Outcome.next (if_pos hc)⟩
  case replay => exact fun _ _ hr hf => replay_resends hr hf
  case arrival => exact fun _ _ h => congrArg Host.Outcome.next (regRead_go h)
  case stat => exact fun _ _ h => congrArg Host.Outcome.next (regRead_go h)
  case link => exact fun _ _ _ h => congrArg Host.Outcome.next (regRead_go h)
  case crc => exact fun _ _ _ h => congrArg Host.Outcome.next (regRead_go h)

end Sys2Proof.Machine
end

section
/-!
PROOFS. Messages that leave, cross or enter the card (R555 to R564), what a chain reset leaves (R569), and the settling of
O53 and O54.
-/
namespace Sys2Proof.Machine

variable {s : State} {m x : Nat} {raw : List Byte} {y : Msg}

/-! ## A message of this card at the chain port (R206, R555, R564) -/

section
variable (hm : s.grd.msgs[m]? = some y) (ho : y.outward = true) (ha : y.arrived = true) (hs : y.sent = 0)
  (hl : s.oldest m y = true)
include hm ho ha hs hl

theorem chainSend_unreachable {held : Bool} (hu : s.chn.absent.contains y.unit = true ∨ s.linkTo y.unit.toNat = none) :
    chainSend m held s = failSender (y.lanes.headD 0) ansUnreachable (dropMsg m s) := by
  have cut : s.chn.absent.contains y.unit = true ∨ (s.linkTo y.unit.toNat).isNone = true :=
    hu.imp_right fun none => by simp [none]
  simp only [chainSend, hm]
  rw [if_neg (by simp [ho]), if_neg (by omega), if_neg (by simp [ha, hl]), if_pos cut]
  rfl

section
variable {v : Nat} (hu : s.chn.absent.contains y.unit = false) (hv : s.openLink y = some v)
include hu hv

theorem chainSend_asks {held : Bool} (hq : s.atPort (.send y.src) = []) :
    chainSend m held s = askGong (.send y.src) held (sendFirst m) s := by
  have reached : ¬ (s.chn.absent.contains y.unit = true ∨ (s.linkTo y.unit.toNat).isNone = true) := by
    rintro (absent | none)
    · exact Bool.eq_false_iff.1 hu absent
    · rw [Option.isNone_iff_eq_none] at none
      simp [State.openLink, none] at hv
  simp only [chainSend, hm]
  rw [if_neg (by simp [ho]), if_neg (by omega), if_neg (by simp [ha, hl]), if_neg reached, if_pos]
  exact ⟨by rw [hv]; rfl, by rw [held_contains_of_atPort_nil hq]; rfl⟩

theorem sendFirst_sends : sendFirst m s = sendNext m { y with via := v, stamp := s.gng.next } (takeStamp s) := by
  simp only [sendFirst, hm]
  rw [if_pos ⟨ho, ha, hs, hl, by rw [hu]; rfl⟩, hv]

end

end

/-! ## Received flits (R555, R561 to R564) -/

section
variable {hdr : Lane} {ls : List Lane}

theorem firstArrives_own (hf : s.flitOk x 1 raw = true) :
    let hdr := (rawLanes raw).headD 0
    let u := takeFlit x raw s
    u.ownUnit (hdrUnit hdr) = true → u.chn.bypassing = false →
    firstArrives x raw s = addLanes x (rawLanes raw) (rawLast raw) (recordArrival (rawLanes raw) u) := by
  intro hdr u own die
  simp only [firstArrives]
  rw [if_neg (by simp [hf]), if_pos own, if_neg (Bool.eq_false_iff.1 die)]

theorem firstArrives_through (hf : s.flitOk x 1 raw = true) :
    let hdr := (rawLanes raw).headD 0
    let u := takeFlit x raw s
    u.ownUnit (hdrUnit hdr) = false → u.carries (otherLink x) = true → u.routeTo (hdrUnit hdr) ≠ 0 →
    firstArrives x raw s = forwardFlit (otherLink x) { kind := 1, last := rawLast raw, lanes := rawLanes raw }
      (setRx x (if rawLast raw then .idle else .through hdr) u) := by
  intro hdr u other carried known
  have onward : ¬ (!u.carries (otherLink x) || (!u.chn.bypassing && u.routeTo (hdrUnit hdr) == 0)) = true := by
    simp [carried, known]
  simp only [firstArrives]
  rw [if_neg (by simp [hf]), if_neg (Bool.eq_false_iff.1 other), if_neg onward]

theorem contArrives_own (hf : s.flitOk x 2 raw = true) (hr : ((takeFlit x raw s).link x).rx = .own ls) :
    contArrives x raw s = addLanes x (ls ++ rawLanes raw) (rawLast raw) (takeFlit x raw s) := by
  simp only [contArrives]
  rw [if_neg (by simp [hf]), hr]

theorem contArrives_idle (hf : s.flitOk x 2 raw = true) (hr : ((takeFlit x raw s).link x).rx = .idle) :
    contArrives x raw s = takeFlit x raw s := by
  simp only [contArrives]
  rw [if_neg (by simp [hf]), hr]

theorem abortArrives_own (hf : s.flitOk x 3 raw = true) (hr : ((takeFlit x raw s).link x).rx = .own ls) :
    abortArrives x raw s = setRx x .idle (takeFlit x raw s) := by
  simp only [abortArrives]
  rw [if_neg (by simp [hf]), hr]

theorem abortArrives_through (hf : s.flitOk x 3 raw = true) (hr : ((takeFlit x raw s).link x).rx = .through hdr) :
    abortArrives x raw s = forwardFlit (otherLink x) abortFlit (setRx x .idle (takeFlit x raw s)) := by
  simp only [abortArrives]
  rw [if_neg (by simp [hf]), hr]

theorem answerArrives_own (hf : s.flitOk x 4 raw = true) :
    let hdr := (rawLanes raw).headD 0
    let u := takeFlit x raw s
    u.ownUnit (hdrSrcUnit hdr) = true → u.chn.bypassing = false →
    answerArrives x raw s = answered hdr (fld ((rawLanes raw).getD 1 0) 0 8) u := by
  intro hdr u own die
  have mine : (u.ownUnit (hdrSrcUnit hdr) && !u.chn.bypassing) = true := by simp [own, die]
  simp only [answerArrives]
  rw [if_neg (by simp [hf]), if_pos mine]

theorem answerArrives_through (hf : s.flitOk x 4 raw = true) :
    let hdr := (rawLanes raw).headD 0
    let u := takeFlit x raw s
    u.ownUnit (hdrSrcUnit hdr) = false → u.carries (otherLink x) = true →
    answerArrives x raw s = sendFlit (otherLink x) { kind := 4, last := rawLast raw, lanes := rawLanes raw } u := by
  intro hdr u other carried
  have not_mine : ¬ (u.ownUnit (hdrSrcUnit hdr) && !u.chn.bypassing) = true := by simp [other]
  simp only [answerArrives]
  rw [if_neg (by simp [hf]), if_neg not_mine, if_pos carried]

theorem gapTimeout_own (hc : s.carries x = true) (hr : (s.link x).rx = .own ls) :
    gapTimeout x s = answerBack x (ls.headD 0) ansUnreachable (setRx x .drained s) := by
  rw [gapTimeout, if_neg (by simp [hc]), hr]

end

/-- Settles O53: a message that leaves, and what each kind of flit that is received does. -/
theorem chainMessages : Obligations.ChainMessages := by
  refine ⟨?send, ?first, ?cont, ?abort, ?answer, ?gap⟩
  case send =>
    intro m y s hm ho ha hs hl
    refine ⟨fun v hu hv hq => ⟨fun hf => congrArg Host.Outcome.next ?_, congrArg Host.Outcome.next ?_⟩,
      fun held hu => congrArg Host.Outcome.next (chainSend_unreachable hm ho ha hs hl hu)⟩
    · rw [chainSend_asks hm ho ha hs hl hu hv hq, askGong_free hq hf]
      exact sendFirst_sends (s := gongPassed _ s) hm ho ha hs hl hu hv
    · rw [chainSend_asks hm ho ha hs hl hu hv hq, askGong_held]
  case first => exact fun _ _ _ hl hf =>
    ⟨fun own die => (if_pos hl).trans (congrArg Host.Outcome.next (firstArrives_own hf own die)),
      fun other carried _ known => (if_pos hl).trans
        (congrArg Host.Outcome.next (firstArrives_through hf other carried known))⟩
  case cont => exact fun _ _ _ hl hf =>
    ⟨fun _ hr => (if_pos hl).trans (congrArg Host.Outcome.next (contArrives_own hf hr)),
      fun hr => (if_pos hl).trans (congrArg Host.Outcome.next (contArrives_idle hf hr))⟩
  case abort => exact fun _ _ _ hl hf =>
    ⟨fun _ hr => (if_pos hl).trans (congrArg Host.Outcome.next (abortArrives_own hf hr)),
      fun _ hr => (if_pos hl).trans (congrArg Host.Outcome.next (abortArrives_through hf hr))⟩
  case answer => exact fun _ _ _ hl hf =>
    ⟨fun own die => (if_pos hl).trans (congrArg Host.Outcome.next (answerArrives_own hf own die)),
      fun other carried => (if_pos hl).trans (congrArg Host.Outcome.next (answerArrives_through hf other carried))⟩
  case gap => exact fun _ _ _ hc hr => congrArg Host.Outcome.next (gapTimeout_own hc hr)

/-! ## A chain reset without AON (R569) -/

/-- A card at reset whose AON is off. -/
def withoutAon : State := { State.reset with pwr := { State.reset.pwr with dom := 0, cause := 0 } }

/-- Refutes O54: a retimer whose card has no AON takes part in a chain reset, and that card keeps no reset cause. -/
theorem not_chainUnits : ¬ Obligations.ChainUnits := by
  rintro ⟨-, left⟩
  obtain ⟨-, -, -, -, -, cause⟩ := left withoutAon
  exact absurd cause (by decide)

end Sys2Proof.Machine
end

section
/-!
PROOFS. Parity, watchdogs, the fault counters and the firmware mailbox (R572 to R589), and the settling of O56.
-/
namespace Sys2Proof.Machine

variable {s : State} {q : Requester} {v : BitVec 32}

/-! ## Tables and bytes -/

/-- What a table holds after a run of entries is put: the run where it reaches, the old entries elsewhere. -/
theorem Tbl.find_putAll {α : Type} [DecidableEq α] {d : α} (t : Tbl α) (n m : Nat) (xs : List α) :
    Tbl.find d (Tbl.putAll d t n xs) m = if n ≤ m ∧ m < n + xs.length then xs.getD (m - n) d else Tbl.find d t m := by
  induction xs generalizing t n with
  | nil =>
    rw [if_neg (by simp)]
    rfl
  | cons x xs ih =>
    rw [Tbl.putAll, ih, Tbl.find_put, List.length_cons]
    rcases lt_trichotomy m n with below | rfl | above
    · rw [if_neg (by omega), if_neg (by omega), if_neg (by omega)]
    · simp
    · obtain ⟨k, rfl⟩ : ∃ k, m = n + 1 + k := ⟨m - (n + 1), by omega⟩
      rw [show n + 1 + k - (n + 1) = k by omega, show n + 1 + k - n = k + 1 by omega, List.getD_cons_succ,
        if_neg (show n + 1 + k ≠ n by omega)]
      exact if_congr (by omega) rfl rfl

theorem getElem?_leBytes {n i : Nat} (v : Nat) (h : i < n) :
    (leBytes n v)[i]? = some (BitVec.ofNat 8 (v / 256 ^ i)) := by
  induction n generalizing v i with
  | zero => omega
  | succ n ih =>
    cases i with
    | zero => simp [leBytes]
    | succ i => rw [leBytes, List.getElem?_cons_succ, ih _ (by omega), Nat.div_div_eq_div_mul, pow_succ']

/-! ## Parity and watchdogs (R572, R582) -/

section
variable {addr : BitVec 32} {job : Nat} (hf : s.on domFRONT = true)
include hf

theorem storeParity_serving {j : Nat} (hj : s.servedJob 0 job = some j) : storeParity 0 addr job s = zeroStore 0
    (fireJob { detector := 0x0D, level := lvlJob, location := 0, info0 := addr.toNat } j s) := by
  simp [storeParity, hf, hj]

theorem storeParity_idle (hj : s.servedJob 0 job = none) : storeParity 0 addr job s = zeroStore 0
    (fire { detector := 0x0D, level := lvlJob, location := 0, info0 := addr.toNat } s) := by
  simp [storeParity, hf, hj]

end

theorem bellWatchdog_first {c : Nat} (hf : s.firmware c = true) (hr : (s.bell c).resets = []) :
    bellWatchdog c s = recheck c (releaseClaims c (setCause 4
      ((fire { detector := 0x0E, level := lvlCore, location := c, info0 := 1 } s).setBell c
        { running := false, resets := [s.now] }))) := by
  simp [bellWatchdog, hf, hr]

/-! ## Keyed writes (R578, R588, R593) -/

section
variable (hb : bit v 0 = true)
include hb

theorem fltCtl_keyed (hk : keyed v = true) : fltCtl q v s = { s with flt := { s.flt with cnt := [], tileHw := [] } } := by
  simp [fltCtl, hb, hk]

theorem fltCtl_keyless (hk : keyed v = false) : fltCtl q v s = regError q (baseFLT + 8) s := by
  simp [fltCtl, hb, hk]

end

section
variable (hk : keyed v = true) (hm : s.mailbox = true)
include hk hm

theorem fwCtl_commit (h0 : bit v 0 = true) (h1 : bit v 1 = false) :
    fwCtl q v s = { s with boot := { s.boot with fwBusy := true } } := by
  simp [fwCtl, h0, h1, hk, hm]

theorem fwCtl_raise (h0 : bit v 0 = false) (h1 : bit v 1 = true) :
    fwCtl q v s = if q = .fn 0 then raiseMinimum s else s := by
  simp [fwCtl, h0, h1, hk, hm]

end

/-! ## The mailbox (R587, R588) -/

theorem State.slot_setSlot (s : State) (b c : Bool) (x : Slot) :
    (s.setSlot b x).slot c = if c = b then x else s.slot c := by
  cases b <;> cases c <;> rfl

/-- The staged slot of a card, with 4 more bytes of an image (R587). -/
def State.stagedWith (s : State) (v : BitVec 32) : Slot :=
  { s.slot s.stagedSlot with
    written := true
    staged := (s.slot s.stagedSlot).staged.putAll none (s.boot.fwAddr.toNat * 4) ((leBytes 4 v.toNat).map some) }

theorem fwData_open (hm : s.mailbox = true) : fwData v s =
    let u := s.setSlot s.stagedSlot (s.stagedWith v)
    { u with boot := { u.boot with fwAddr := u.boot.fwAddr + 1 } } := if_neg (by simp [hm])

theorem fwData_slot (hm : s.mailbox = true) (c : Bool) :
    (fwData v s).slot c = if c = s.stagedSlot then s.stagedWith v else s.slot c := by
  rw [fwData_open hm]
  exact State.slot_setSlot ..

theorem fwData_boot (hm : s.mailbox = true) :
    (fwData v s).boot.fwAddr = s.boot.fwAddr + 1 ∧ (fwData v s).boot.activeB = s.boot.activeB := by
  rw [fwData_open hm]
  cases hb : s.stagedSlot <;> exact ⟨rfl, rfl⟩

theorem stagedWith_byte {i : Nat} (hi : i < 4) :
    (s.stagedWith v).staged.find none (4 * s.boot.fwAddr.toNat + i) = some (BitVec.ofNat 8 (v.toNat / 256 ^ i)) := by
  have size : ((leBytes 4 v.toNat).map some).length = 4 := rfl
  rw [State.stagedWith, Tbl.find_putAll, size, if_pos (by omega),
    show 4 * s.boot.fwAddr.toNat + i - s.boot.fwAddr.toNat * 4 = i by omega, List.getD_eq_getElem?_getD,
    List.getElem?_map, getElem?_leBytes _ hi]
  rfl

theorem fwCheckDone_busy (hb : s.boot.fwBusy = true) : fwCheckDone s = { s with boot := { s.boot with
    fwBusy := false, fwStatus := BitVec.ofNat 4 (s.slotFailure s.stagedSlot)
    activeB := if s.slotFailure s.stagedSlot = 0 then s.stagedSlot else s.boot.activeB } } := if_neg (by simp [hb])

/-- Settles O56: parity, the watchdog and the restart of a core, the counters, and the firmware mailbox. -/
theorem faultCommands : Obligations.FaultCommands := by
  refine ⟨⟨?parity, ?watchdog, ?restart, ?clear, ?regerr⟩, ?data, ?control, ?minimum, ?done⟩
  case parity => exact fun _ _ _ hf => ⟨fun _ hj => congrArg Host.Outcome.next (storeParity_serving hf hj),
    fun hj => congrArg Host.Outcome.next (storeParity_idle hf hj)⟩
  case watchdog => exact fun _ _ hf hr => congrArg Host.Outcome.next (bellWatchdog_first hf hr)
  case restart => exact fun _ _ hm hs => congrArg Host.Outcome.next (if_pos ⟨hm, hs⟩)
  case clear => exact fun _ _ _ h hb =>
    ⟨fun hk => congrArg Host.Outcome.next ((regWrite_go h).trans (fltCtl_keyed hb hk)),
      fun hk => congrArg Host.Outcome.next ((regWrite_go h).trans (fltCtl_keyless hb hk))⟩
  case regerr => exact fun _ _ h => congrArg Host.Outcome.next (regRead_go h)
  case data =>
    intro q v s h hm
    obtain ⟨address, active⟩ := fwData_boot (v := v) hm
    refine ⟨fwData v s, congrArg Host.Outcome.next (regWrite_go h), address, active, ?_, ?_, fun i hi => ?_⟩
    · rw [fwData_slot hm, if_neg (by simp)]
    · rw [fwData_slot hm, if_pos rfl]; rfl
    · rw [fwData_slot hm, if_pos rfl]; exact stagedWith_byte hi
  case control => exact fun _ _ _ h hk hm =>
    ⟨fun h0 h1 => congrArg Host.Outcome.next ((regWrite_go h).trans (fwCtl_commit hk hm h0 h1)),
      fun h0 h1 => congrArg Host.Outcome.next ((regWrite_go h).trans (fwCtl_raise hk hm h0 h1))⟩
  case minimum => exact fun _ hs => if_pos hs
  case done =>
    intro s hb
    refine ⟨fun good => congrArg Host.Outcome.next ?_, fun bad => congrArg Host.Outcome.next ?_⟩
    · rw [fwCheckDone_busy hb, if_pos good, good]
      rfl
    · rw [fwCheckDone_busy hb, if_neg bad]

end Sys2Proof.Machine
end

section
/-!
PROOFS. What the Woodblock's filters and matches leave: the levels of the input pins, and that a match marks its channel
(R415, R424, R428, R431).
-/
namespace Sys2Proof.Machine

variable {s : State} {k : Nat}

/-! ## The pins keep their levels -/

@[simp] theorem motionStop_pins (p : Nat) (s : State) : (motionStop p s).wbk.pins = s.wbk.pins := by
  simp only [motionStop]
  split
  · rfl
  · split <;> rfl

@[simp] theorem setStates_wbk (ms : List Nat) (st : PortState) (s : State) : (setStates ms st s).wbk = s.wbk :=
  forEach_keeps (f := fun m s => s.setPort m { s.port m with state := st }) (g := State.wbk) (fun _ _ => rfl) ms s

theorem stopMatched_pins (k : Nat) (s : State) : (stopMatched k s).wbk.pins = s.wbk.pins :=
  forEach_keeps (g := fun s => s.wbk.pins) (fun p s => by
    dsimp only
    split
    · rw [setStates_wbk]; exact motionStop_pins p s
    · rfl) _ s

theorem routeTrigger_wbk (k : Nat) (s : State) : (routeTrigger k s).wbk = s.wbk := by
  simp only [routeTrigger]; split <;> rfl

theorem raises_wbk (l : List Nat) (s : State) : (forEachAny l raise s).wbk = s.wbk :=
  forEachAny_keeps (f := raise) (g := State.wbk) (fun _ _ => rfl) (fun _ => rfl) l s

theorem matchChannel_wbk (k : Nat) (s : State) :
    (matchChannel k s).wbk = (s.setChan k ((s.chan k).match (s.stepOf k))).wbk := by
  rw [matchChannel, routeTrigger_wbk, raises_wbk]

theorem matchAndStop_pins (k : Nat) (s : State) : (matchAndStop k s).wbk.pins = s.wbk.pins := by
  rw [matchAndStop, stopMatched_pins, matchChannel_wbk]; rfl

theorem posMove_pins (p : Nat) (a b : Bool) (s : State) : (posMove p a b s).wbk.pins = s.wbk.pins := by
  simp only [posMove]
  split
  · rfl
  · split
    · rfl
    · split
      · rfl
      · exact (forEachAny_keeps (g := fun s => s.wbk.pins) matchAndStop_pins (fun _ => rfl) _ _).trans rfl

theorem posTick_pins (p : Nat) (s : State) : (posTick p s).wbk.pins = s.wbk.pins := posMove_pins ..

theorem captureEdge_pins (k : Nat) (e : Bool) (s : State) : (captureEdge k e s).wbk.pins = s.wbk.pins := by
  simp only [captureEdge]
  split
  · split
    · rw [raises_wbk]; rfl
    · rfl
  · rfl

theorem captureTick_pins (k : Nat) (s : State) : (captureTick k s).wbk.pins = s.wbk.pins := by
  simp only [captureTick]
  split
  · rfl
  · exact captureEdge_pins ..

theorem runFilters_pins (atOnce : Bool) (s : State) : (runFilters atOnce s).wbk.pins = s.wbk.pins := by
  have positions := forEachAny_keeps (g := fun s => s.wbk.pins) posTick_pins (fun _ => rfl) (s.posDue atOnce) s
  exact (forEachAny_keeps (g := fun s => s.wbk.pins) captureTick_pins (fun _ => rfl) _ _).trans positions

/-! ## A match marks its channel -/

theorem Chan.act_matched (x : Chan) : x.act.matched = x.matched := by unfold Chan.act; split <;> rfl

theorem Chan.match_matched (x : Chan) (step : BitVec 32) : (x.match step).matched = true := Chan.act_matched _

theorem setChan_matched {j : Nat} {x : Chan} (h : x.matched = (s.chan j).matched) :
    ((s.setChan j x).chan k).matched = (s.chan k).matched := by
  rw [State.chan_setChan]
  split
  · next same => rw [same, h]
  · rfl

theorem motionStop_matched (p : Nat) (s : State) : ((motionStop p s).chan k).matched = (s.chan k).matched := by
  simp only [motionStop]
  split
  · exact setChan_matched (s := s.setPort p _) rfl
  · split
    · exact setChan_matched (s := s.setPort p _) rfl
    · rfl

theorem stopMatched_matched (j : Nat) (s : State) : ((stopMatched j s).chan k).matched = (s.chan k).matched :=
  forEach_keeps (g := fun s => (s.chan k).matched) (fun p s => by
    dsimp only
    split
    · rw [State.chan, setStates_wbk]
      exact (setChan_matched (s := motionStop p s) (j := j)
        (x := { (motionStop p s).chan j with armed := false }) rfl).trans (motionStop_matched p s)
    · rfl) _ s

theorem matchAndStop_matched (k : Nat) (s : State) : ((matchAndStop k s).chan k).matched = true := by
  rw [matchAndStop, stopMatched_matched, State.chan, matchChannel_wbk]
  exact (congrArg Chan.matched (State.chan_setChan_same ..)).trans (Chan.match_matched ..)

end Sys2Proof.Machine
end

section
/-!
PROOFS. What a fault of a job, a fence and a write of device memory leave alone: the host link, the tenants, PWR_ but for
the domains, and Intake's and Paradiddle's own state (R156, R362 to R367).
-/
namespace Sys2Proof.Machine

variable {s t u : State}

/-- The host link, the tenants, and PWR_ but for the domains are in t as they are in s. -/
structure State.SameHost (s t : State) : Prop where
  hif     : t.hif = s.hif
  pwr     : t.pwr = { s.pwr with dom := t.pwr.dom }
  tenants : t.ten.tenants = s.ten.tenants

namespace State.SameHost

theorem refl (s : State) : s.SameHost s := ⟨rfl, rfl, rfl⟩

theorem trans (h : s.SameHost t) (k : t.SameHost u) : s.SameHost u :=
  ⟨k.hif.trans h.hif, k.pwr.trans (by rw [h.pwr]), k.tenants.trans h.tenants⟩

theorem pwr_of_eq {p q : Pwr} (h : p = q) : p = { q with dom := p.dom } := by subst h; rfl

theorem of_forEach {α : Type} {f : α → State → State} (hf : ∀ a (s : State), s.SameHost (f a s)) (l : List α)
    (s : State) : s.SameHost (forEach l f s) := by
  unfold forEach
  induction l generalizing s with
  | nil => exact .refl s
  | cons a l ih => exact (hf a s).trans (ih _)

end State.SameHost

/-- Intake and Paradiddle too are in t as they are in s. -/
structure State.SameStreams (s t : State) : Prop extends State.SameHost s t where
  ink : t.ink = s.ink
  tok : t.tok = s.tok

namespace State.SameStreams

theorem refl (s : State) : s.SameStreams s := ⟨.refl s, rfl, rfl⟩

theorem trans (h : s.SameStreams t) (k : t.SameStreams u) : s.SameStreams u :=
  ⟨h.toSameHost.trans k.toSameHost, k.ink.trans h.ink, k.tok.trans h.tok⟩

theorem of_spares (h : s.Spares t) : s.SameStreams t := by
  obtain ⟨⟨_, _, _, _, _, _, _, _, rfl⟩, -⟩ := h; exact ⟨⟨rfl, rfl, rfl⟩, rfl, rfl⟩

theorem of_forEach {α : Type} {f : α → State → State} (hf : ∀ a (s : State), s.SameStreams (f a s)) (l : List α)
    (s : State) : s.SameStreams (forEach l f s) := by
  unfold forEach
  induction l generalizing s with
  | nil => exact .refl s
  | cons a l ih => exact (hf a s).trans (ih _)

theorem of_draw (s : State) : s.SameStreams s.draw.2 := ⟨⟨rfl, rfl, rfl⟩, rfl, rfl⟩

theorem of_forEachAny {α : Type} {f : α → State → State} (hf : ∀ a (s : State), s.SameStreams (f a s)) (l : List α)
    (s : State) : s.SameStreams (forEachAny l f s) := by
  rw [forEachAny]
  split
  · exact of_forEach hf l s
  · exact (of_draw s).trans (of_forEach hf _ _)

theorem of_setPort (p : Nat) (x : Port) (s : State) : s.SameStreams (s.setPort p x) := ⟨⟨rfl, rfl, rfl⟩, rfl, rfl⟩

theorem of_setStream (n : Nat) (x : Stream) (s : State) : s.SameStreams (s.setStream n x) := ⟨⟨rfl, rfl, rfl⟩, rfl, rfl⟩

theorem of_setDom (d : Nat) (b : Bool) (s : State) : s.SameStreams (s.setDom d b) := ⟨⟨rfl, rfl, rfl⟩, rfl, rfl⟩

theorem of_setMap (i : Nat) (x : MapEntry) (s : State) : s.SameStreams (s.setMap i x) := ⟨⟨rfl, rfl, rfl⟩, rfl, rfl⟩

theorem of_ten (x : Ten) (s : State) (hx : x.tenants = s.ten.tenants) : s.SameStreams { s with ten := x } :=
  ⟨⟨rfl, rfl, hx⟩, rfl, rfl⟩

theorem of_setStack (k : Nat) (x : Stack) (s : State) : s.SameStreams (s.setStack k x) := ⟨⟨rfl, rfl, rfl⟩, rfl, rfl⟩

theorem of_raise (n : Nat) (s : State) : s.SameStreams (raise n s) := ⟨⟨rfl, rfl, rfl⟩, rfl, rfl⟩

end State.SameStreams

open State.SameStreams (of_spares of_forEach of_forEachAny)

/-! ## Ports, streams and stacks that stop (R367, R463, R546) -/

theorem rescaleStack_sameStreams (k : Nat) (s : State) : s.SameStreams (rescaleStack k s) := by
  simp only [rescaleStack]; split <;> exact ⟨⟨rfl, rfl, rfl⟩, rfl, rfl⟩

theorem rescale_sameStreams (s : State) : s.SameStreams (rescale s) := of_forEach rescaleStack_sameStreams _ s

theorem motionStop_sameStreams (p : Nat) (s : State) : s.SameStreams (motionStop p s) := by
  simp only [motionStop]
  split
  · exact ⟨⟨rfl, rfl, rfl⟩, rfl, rfl⟩
  · split <;> exact ⟨⟨rfl, rfl, rfl⟩, rfl, rfl⟩

theorem disarm_sameStreams (k : Nat) (s : State) : s.SameStreams (disarm k s) := ⟨⟨rfl, rfl, rfl⟩, rfl, rfl⟩

theorem portStop_sameStreams (p : Nat) (err : BitVec 4) (s : State) : s.SameStreams (portStop p err s) := by
  rw [portStop]
  split
  · refine State.SameStreams.trans ?_ (.of_raise ..)
    refine State.SameStreams.trans ?_ (rescale_sameStreams _)
    refine State.SameStreams.trans ?_ (.of_setPort ..)
    exact (motionStop_sameStreams p s).trans (of_forEach disarm_sameStreams _ _)
  · exact .refl s

theorem stopFollowers_sameStreams (p : Nat) (s : State) : s.SameStreams (stopFollowers p s) :=
  of_forEach (fun q s => by dsimp only; split; exacts [portStop_sameStreams .., .refl s]) _ s

theorem portsStop_sameStreams (ps : List Nat) (err : BitVec 4) (s : State) : s.SameStreams (portsStop ps err s) :=
  (of_forEachAny (fun p s => portStop_sameStreams p err s) ps s).trans (of_forEach stopFollowers_sameStreams ps _)

theorem writeResult_sameStreams (t line : Nat) (ws : List Word) (s : State) : s.SameStreams (writeResult t line ws s) :=
  ⟨⟨by simp, by simp, by simp⟩, by simp, by simp⟩

theorem writeResultFor_sameStreams (block job t line : Nat) (ws : List Word) (s : State) :
    s.SameStreams (writeResultFor block job t line ws s) := by
  have written := writeResult_sameStreams t line ws s
  simp only [writeResultFor]
  split
  · exact written
  · exact written.trans (.of_spares (fireJob_spares ..))

theorem answerPicture_sameStreams (r : CymReq) (ws : List Word) (s : State) : s.SameStreams (answerPicture r ws s) :=
  (writeResultFor_sameStreams ..).trans ⟨⟨rfl, rfl, rfl⟩, rfl, rfl⟩

theorem streamStop_sameStreams (n : Nat) (err : BitVec 4) (s : State) : s.SameStreams (streamStop n err s) := by
  simp only [streamStop]
  split
  · exact .refl s
  · refine State.SameStreams.trans ?_ (.of_raise ..)
    refine State.SameStreams.trans ?_ (rescale_sameStreams _)
    refine State.SameStreams.trans ?_ (.of_setStream ..)
    refine State.SameStreams.trans ?_ (of_forEach (fun r s => answerPicture_sameStreams r _ s) _ _)
    exact ⟨⟨rfl, rfl, rfl⟩, rfl, rfl⟩

theorem failJobs_sameStreams (ids : List Nat) (n : Nat) (s : State) : s.SameStreams (failJobs ids n s) :=
  of_forEach (fun _ _ => of_spares ((State.Spares.of_modJob ..).trans (finishJob_spares ..))) ids s

theorem fire_spares (f : Finding) (s : State) : s.Spares (fire f s) :=
  ((countFlt_spares ..).trans (writeRecord_spares ..)).trans (raise_spares ..)

theorem fence_sameStreams (k cause : Nat) (s : State) : s.SameStreams (fence k cause s) := by
  simp only [fence]
  split
  · exact .refl s
  · refine State.SameStreams.trans ?_ (rescale_sameStreams _)
    refine State.SameStreams.trans ?_ (of_forEach (fun n s => streamStop_sameStreams n 6 s) _ _)
    refine State.SameStreams.trans ?_ (portsStop_sameStreams ..)
    refine State.SameStreams.trans ?_ (.of_setDom ..)
    refine State.SameStreams.trans ?_ (.of_ten _ _ rfl)
    refine State.SameStreams.trans ?_ (of_forEach (fun e s => .of_setMap ..) _ _)
    refine State.SameStreams.trans ?_ (failJobs_sameStreams ..)
    refine State.SameStreams.trans ?_ (.of_raise ..)
    exact State.SameStreams.trans (.of_setStack ..) (of_spares (fire_spares ..))

/-! ## Beats that are read and merged (R362 to R366) -/

theorem uncorrectableBeat_sameStreams (a : Nat) (s : State) : s.SameStreams (uncorrectableBeat a s) := by
  simp only [uncorrectableBeat]
  split
  · refine State.SameStreams.trans ?_ (fence_sameStreams ..)
    exact ⟨⟨rfl, rfl, rfl⟩, rfl, rfl⟩
  · exact ⟨⟨rfl, rfl, rfl⟩, rfl, rfl⟩

theorem readBeats_sameStreams (l : List Nat) (s : State) : s.SameStreams (readBeats l s).2 := by
  induction l generalizing s with
  | nil => exact .refl s
  | cons a l ih =>
    have beat : s.SameStreams (readBeat a s).2 := by rw [readBeat]; split <;> exact ⟨⟨rfl, rfl, rfl⟩, rfl, rfl⟩
    rw [readBeats]
    split
    · next e => rw [e] at beat; exact beat.trans (ih _)
    · next e => rw [e] at beat; exact beat

theorem readForJob_sameStreams (job : Nat) (beats : List Nat) (s : State) :
    s.SameStreams (readForJob job beats s).2 := by
  have reads := readBeats_sameStreams beats s
  rw [readForJob]
  split
  · next e => rw [e] at reads; exact reads
  · next e =>
    rw [e] at reads
    exact (reads.trans (.of_spares (fireJob_spares ..))).trans (uncorrectableBeat_sameStreams ..)

theorem readRegions_sameStreams (block job t : Nat) (rs : List (Nat × Nat)) (s : State) :
    s.SameStreams (readRegions block job t rs s).2 := by
  induction rs generalizing s with
  | nil => exact .refl s
  | cons r rs ih =>
    have read := readForJob_sameStreams job (s.tenBeats t r.1 r.2) s
    rw [readRegions]
    split
    · exact .of_spares (fireJob_spares ..)
    · split
      · next e => rw [e] at read; exact read.trans (ih _)
      · next e => rw [e] at read; exact read

theorem mergeBeats_sameStreams (job : Nat) (l : List Nat) (s : State) : s.SameStreams (mergeBeats job l s).2 := by
  induction l generalizing s with
  | nil => exact .refl s
  | cons a l ih => exact (readForJob_sameStreams ..).trans (ih _)

theorem mergeBeats_queuesAs (job : Nat) (l : List Nat) (s : State) : s.QueuesAs (mergeBeats job l s).2 := by
  induction l generalizing s with
  | nil => exact .refl s
  | cons a l ih => exact (readForJob_queuesAs ..).trans (ih _)

/-- A write of bytes changes device memory alone. -/
theorem writeBut_keeps {β : Type} (g : State → β) (hg : ∀ (a : Nat) (b : Byte) (s : State), g (s.setByte a b) = g s)
    (bad : List Nat) (t a : Nat) (bs : List Byte) (s : State) : g (s.writeBut bad t a bs) = g s :=
  forEach_keeps (g := g) (fun x s => by
    split
    · split
      · rfl
      · exact hg ..
    · rfl) bs.zipIdx s

theorem writeForJob_sameStreams (job t a : Nat) (bs : List Byte) (s : State) :
    s.SameStreams (writeForJob job t a bs s) :=
  (mergeBeats_sameStreams ..).trans
    { hif := writeBut_keeps State.hif (fun _ _ _ => rfl) ..
      pwr := State.SameHost.pwr_of_eq (writeBut_keeps State.pwr (fun _ _ _ => rfl) ..)
      tenants := writeBut_keeps (fun s => s.ten.tenants) (fun _ _ _ => rfl) ..
      ink := writeBut_keeps State.ink (fun _ _ _ => rfl) ..
      tok := writeBut_keeps State.tok (fun _ _ _ => rfl) .. }

theorem writeForJob_queuesAs (job t a : Nat) (bs : List Byte) (s : State) : s.QueuesAs (writeForJob job t a bs s) :=
  (mergeBeats_queuesAs ..).trans (.of_sch_eq (writeBut_keeps State.sch (fun _ _ _ => rfl) ..))

end Sys2Proof.Machine
end

section
/-!
PROOFS. The commands of the Woodblock and the Roll unit complete with their effect (R413 to R465): what is not yet said
of a port whose stop begins, whose line is stored or whose group backs up.
-/
namespace Sys2Proof.Machine

variable {s : State} {q : Requester} {p k : Nat} {v : BitVec 32} {e : Bool}

/-! ## The Woodblock -/

theorem posCount_pins_a (hp : p < 4) (a b : Bool) (s : State) :
    bit (posCount p a b s).wbk.pins (16 + 2 * p) = a := by
  rw [posCount_eq, runFilters_pins]; exact pin_quadPins_a hp

theorem posCount_pins_b (hp : p < 4) (a b : Bool) (s : State) :
    bit (posCount p a b s).wbk.pins (17 + 2 * p) = b := by
  rw [posCount_eq, runFilters_pins]; exact pin_quadPins_b hp

theorem pinChange_pins {i : Nat} (hi : i < 28) (hd : s.drivenOther i e = false) :
    bit (pinChange i e s).wbk.pins i = e := by
  rw [pinChange_free hd, pinLevels_one, runFilters_pins]; exact bit_setBit_same _ _ hi

theorem cmpWrite_low (k : Nat) (v : BitVec 32) (s : State) :
    ((cmpWrite k false v s).chan k).cmp.extractLsb' 0 32 = v := by
  simp only [cmpWrite, State.chan_setChan_same]
  exact BitVec.extractLsb'_append_eq_right

/-! ## Lines that a port has received (R443, R450) -/

/-- What a port keeps of the lines it has received and waits for. -/
def Port.received (x : Port) : BitVec 64 × List Issued × BitVec 16 := (x.wr, x.issued, x.framing)

theorem Port.stops_received (x : Port) : x.stops.received = x.received := by
  unfold Port.stops; split <;> rfl

theorem Port.refusing_received (x : Port) (pos : BitVec 32) : (x.refusing pos).received = x.received := rfl

theorem motionStop_received (p m : Nat) (s : State) : ((motionStop p s).port m).received = (s.port m).received :=
  (congrArg Port.received (motionStop_stillPorts p m s) :)

theorem stopBegin_received (p m : Nat) (s : State) : ((stopBegin p s).port m).received = (s.port m).received := by
  rw [stopBegin_eq, forEach_stopTurn_port]
  split
  · rw [Port.stops_received, motionStop_received]
  · exact motionStop_received ..

theorem highWater_received (p : Nat) (s : State) : ((highWater p s).port p).received = (s.port p).received := by
  simp only [highWater]
  split
  · exact stopBegin_received p p s
  · rfl

theorem fixQ_received (p : Nat) (pos : BitVec 32) (s : State) :
    ((fixQ p pos s).port p).received = (s.port p).received := by rw [fixQ_port]; rfl

/-- What a refusal does by the port's state: a stop begins, or goes on, or the refusal is only counted. -/
theorem refuseTrigger_cases (p : Nat) (pos : BitVec 32) (s : State) :
    refuseTrigger p pos s = fixQ p pos (stopBegin p (countRefused p s)) ∨
      refuseTrigger p pos s = fixQ p pos (countRefused p s) ∨ refuseTrigger p pos s = countRefused p s := by
  unfold refuseTrigger
  dsimp only
  split
  · exact .inl rfl
  · exact .inl rfl
  · exact .inr (.inr rfl)
  · exact .inr (.inr rfl)
  · exact .inr (.inl rfl)

theorem refuseTrigger_received (p : Nat) (pos : BitVec 32) (s : State) :
    ((refuseTrigger p pos s).port p).received = (s.port p).received := by
  have counted : ((countRefused p s).port p).received = (s.port p).received := by rw [countRefused_port]; rfl
  rcases refuseTrigger_cases p pos s with refuses | refuses | refuses
  · rw [refuses, fixQ_received, stopBegin_received, counted]
  · rw [refuses, fixQ_received, counted]
  · rw [refuses, counted]

theorem State.withLine_received {l : Issued} {rest : List Issued} {pairs : List (List Bool)} :
    ((s.withLine p l rest pairs).port p).received = ((s.port p).wr + 1, rest, (s.port p).framing) :=
  congrArg Port.received (State.port_setPort_same ..)

theorem lineStored_received {l : Issued} {rest : List Issued} {pairs : List (List Bool)}
    (hi : (s.port p).issued = l :: rest) (hf : s.on domFRONT = true) :
    ((lineStored p pairs s).port p).received = ((s.port p).wr + 1, rest, (s.port p).framing) := by
  have written := s.withLine_received (p := p) (l := l) (rest := rest) (pairs := pairs)
  rw [lineStored_oldest hi hf, highWater_received, ← written]
  split
  · rw [raise_port]
  · rfl

/-! ## Back-up and motion (R455, R457) -/

theorem motionWrite_motion (p : Nat) (on : Bool) (s : State) : ((motionWrite p on s).port p).motion = on := by
  have written : ((s.setPort p { s.port p with motion := on }).port p).motion = on :=
    congrArg Port.motion (State.port_setPort_same ..)
  unfold motionWrite
  dsimp only
  split
  · exact (congrArg Port.motion (motionAsked_stillPorts p p _) :).trans written
  · split
    · exact (congrArg Port.motion (startMotion_stillPorts p p _) :).trans written
    · exact written
  · exact written

/-- A leader alone in its group, low and not above B, has backed up (R457 step 5). -/
theorem backUp_alone (he : (s.port p).enable = true) (hk : (s.port p).kind ≠ 2) (hg : s.group p = [p])
    (hs : (s.port p).state = .waitLow) (hl : (s.port p).fill ≤ (s.port p).lw.toNat) (hm : s.mfltHigh p = true)
    (hb : atOrBelow (s.pos (s.posOf p)).val (s.groupB [p]) = true) :
    backUp p s = s.setPort p { s.port p with state := .settleBack } := by
  have leader : s.leaderOf p = p := if_neg hk
  have waits : s.inState [p] .waitLow = [p] := by simp [State.inState, hs]
  have low : s.groupLow p = true := by simp [State.groupLow, hg, hs, hl]
  simp only [backUp, leader, hg, waits]
  rw [if_pos (by simp [he, low, hm]), if_pos hb]
  rfl

end Sys2Proof.Machine
end

section
/-!
PROOFS. What becomes of one job and of one sample: the job that a change or a fault finds again, the sample that is
complete (R186, R475, R477).
-/
namespace Sys2Proof.Machine

variable {s t : State} {n id : Nat} {j : Job} {y : Sample}

/-! ## A job after a change -/

theorem State.job?_id (hj : s.job? id = some j) : j.id = id := beq_iff_eq.1 (List.find?_some hj :)

theorem State.job?_modJob {f : Job → Job} (hf : ∀ x : Job, (f x).id = x.id) (s : State) :
    (s.modJob id f).job? id = (s.job? id).map f := by
  have same : (fun x : Job => x.id == id) ∘ (fun x => if x.id = id then f x else x) = fun x => x.id == id := by
    funext x
    by_cases h : x.id = id <;> simp [h, hf]
  simp only [State.job?, State.modJob, List.find?_map, same]
  cases hx : s.sch.jobs.find? (fun x => x.id == id) with
  | none => rfl
  | some x => simp [beq_iff_eq.1 (List.find?_some hx :)]

/-- A job that stays, though it is changed, is found again. -/
theorem State.QueuesAs.job? (h : s.QueuesAs t) (hj : s.job? id = some j) : ∃ x, t.job? id = some x := by
  obtain ⟨g, same, jobs⟩ := h
  have key : (fun x : Job => x.id == id) ∘ g = fun x => x.id == id := by
    funext x; simp [(same x).1]
  exact ⟨g j, by rw [State.job?, jobs, List.find?_map, key]; exact congrArg (Option.map g) hj⟩

/-- A change of a job that has stayed shows in the job. -/
theorem State.QueuesAs.modJob_any {f : Job → Job} {P : Job → Bool} (h : s.QueuesAs t) (hj : s.job? id = some j)
    (hf : ∀ x : Job, (f x).id = x.id) (hp : ∀ x, P (f x) = true) : ((t.modJob id f).job? id).any P = true := by
  obtain ⟨x, hx⟩ := h.job? hj
  rw [State.job?_modJob hf, hx]
  exact hp x

theorem finishJob_result (hj : s.job? id = some j) (st : BitVec 8) (d : Nat) :
    ((finishJob id st d s).job? id).any (·.result.isSome) = true := by
  simp only [finishJob, hj]
  split
  · next decided => rw [hj]; exact decided
  · exact (releaseTiles_queuesAs id s).modJob_any hj (fun _ => rfl) fun _ => rfl

theorem raise_job? (n id : Nat) (s : State) : (raise n s).job? id = s.job? id := rfl

theorem fireJob_result (hj : s.job? id = some j) (f : Finding) :
    ((fireJob f id s).job? id).any (·.result.isSome) = true := by
  have counted : (countFlt f.detector s).job? id = some j := hj
  simp only [fireJob, counted]
  split
  · next decided => exact (congrArg (Option.any _) counted).trans decided
  · have recorded (k : Nat) : s.QueuesAs ((writeRecord f (some j) (countFlt f.detector s)).modJob id
        (fun x => { x with recorded := some k })) :=
      State.QueuesAs.trans (t := writeRecord f (some j) (countFlt f.detector s)) (.of_sch_eq rfl)
        (.of_modJob id _ fun x => .refl x)
    obtain ⟨x, hx⟩ := (recorded (countFlt f.detector s).flt.next.toNat).job? hj
    rw [raise_job?]
    split
    · exact finishJob_result hx ..
    · exact finishJob_result hx ..

/-! ## A sample after a change -/

theorem State.sampleFor_modSample {f : Sample → Sample} (hf : ∀ y : Sample, (f y).job = y.job) (s : State) :
    (modSample n id f s).sampleFor n id = (s.sampleFor n id).map f := by
  have same : (fun y : Sample => y.job == some id) ∘ (fun y => if y.job = some id then f y else y)
      = fun y => y.job == some id := by
    funext y
    by_cases h : y.job = some id <;> simp [h, hf]
  have samples : ((modSample n id f s).queue n).samples
      = (s.queue n).samples.map (fun y => if y.job = some id then f y else y) :=
    congrArg Queue.samples (State.queue_setQueue_same ..)
  rw [State.sampleFor, samples, List.find?_map, same]
  cases hy : (s.queue n).samples.find? (fun y => y.job == some id) with
  | none => simp [State.sampleFor, hy]
  | some y =>
    have mine : y.job = some id := beq_iff_eq.1 (List.find?_some hy :)
    simp [State.sampleFor, hy, mine]

theorem modSample_complete {f : Sample → Sample} (hy : s.sampleFor n id = some y) (hf : ∀ y : Sample, (f y).job = y.job)
    (hc : ∀ y, (f y).complete = true) : ((modSample n id f s).sampleFor n id).any (·.complete) = true := by
  rw [State.sampleFor_modSample hf, hy]
  exact hc y

theorem State.SameStreams.queue (h : s.SameStreams t) (n : Nat) : t.queue n = s.queue n := by
  rw [State.queue, h.ink]; rfl

theorem decodeFail_result (hj : s.job? id = some j) (f : DecodeFault) :
    ((decodeFail n id f s).job? id).any (·.result.isSome) = true :=
  fireJob_result (show (modSample n id _ s).job? id = some j from hj) _

theorem decodeFail_complete (hy : s.sampleFor n id = some y) (f : DecodeFault) :
    ((decodeFail n id f s).sampleFor n id).any (·.complete) = true := by
  have kept (g : Finding) (u : State) : (raise (160 + n) (fireJob g id u)).queue n = u.queue n :=
    (State.SameStreams.of_spares ((fireJob_spares g id u).trans (raise_spares ..))).queue n
  rw [State.sampleFor, decodeFail, kept]
  exact modSample_complete hy (fun _ => rfl) fun _ => rfl

theorem writeSample_queue (n : Nat) (j : Job) (y : Sample) (ps : List (List Byte)) (cached : Bool) (s : State) (m : Nat) :
    (writeSample n j y ps cached s).queue m = s.queue m :=
  ((writeForJob_sameStreams ..).trans (writeForJob_sameStreams ..)).queue m

theorem fillCache_samples (n : Nat) (j : Job) (ps : List (List Byte)) (s : State) :
    ((fillCache n j ps s).queue n).samples = (s.queue n).samples := by
  unfold fillCache
  dsimp only
  split
  · rfl
  · rw [State.queue_setQueue_same]
    dsimp only
    refine congrArg Queue.samples (State.SameStreams.queue (.trans ?_ (writeForJob_sameStreams ..)) n)
    exact .of_forEach (fun _ _ => writeForJob_sameStreams ..) _ _

end Sys2Proof.Machine
end

section
/-!
PROOFS. The commands of Intake, Paradiddle and the Damper complete with their effect (R475 to R520), and the settling of
O60.
-/
namespace Sys2Proof.Machine

variable {s u : State} {q : Requester} {t n id : Nat} {j : Job} {y : Sample} {x : TokStream} {rest : List TokStream}

/-! ## Samples and direct loads -/

theorem emitReads_sch (t a n : Nat) (s : State) : (emitReads t a n s).sch = s.sch :=
  emitReads_keeps State.sch (fun _ _ => rfl) ..

theorem serveInk_sch (t : Nat) (s : State) : (serveInk t s).sch = s.sch := by rw [serveInk]; split <;> rfl

theorem State.job?_of_sch (h : u.sch = s.sch) (hj : s.job? id = some j) : u.job? id = some j := by
  rw [State.job?, h]; exact hj

theorem State.sampleFor_of_samples (h : (u.queue n).samples = (s.queue n).samples) (hy : s.sampleFor n id = some y) :
    u.sampleFor n id = some y := by rw [State.sampleFor, h]; exact hy

theorem finishSample_complete {ps : List (List Byte)} (hj : j.id = id) (hy : s.sampleFor n id = some y)
    (hm : ∀ r ∈ s.sampleWrites n j y, s.mapped j.tenant r.1 r.2 = true) :
    ((finishSample n j y ps false s).sampleFor n id).any (·.complete) = true := by
  rw [finishSample_mapped hm, hj]
  refine modSample_complete (State.sampleFor_of_samples ?_ hy) (fun _ => rfl) fun _ => rfl
  rw [writeSample_queue, fillCache_samples, storeInk_queue]

theorem sampleForward_samples {y : Sample} {rest : List Sample} (hs : (s.queue n).samples = y :: rest)
    (hd : s.sampleDone n y = true) : ((sampleForward n s).queue n).samples = rest := by
  have kept : ((s.setQueue n { s.queue n with samples := rest }).queue n).samples = rest :=
    congrArg Queue.samples (State.queue_setQueue_same ..)
  rw [sampleForward_done hs hd]
  split
  · exact kept
  · exact kept

/-! ## Tables -/

theorem raise_tokTen (n t : Nat) (s : State) : (raise n s).tokTen t = s.tokTen t := rfl

theorem tokCheckDone_ends (hc : (s.tokTen t).checking = .set) (ho : s.on domTOK = true)
    (hf : s.claimedAny t (s.setReads t) = false) : ((tokCheckDone t s).tokTen t).checking = .none := by
  rw [tokCheckDone, if_neg (by simp [hc, ho, hf])]
  dsimp only
  split
  · exact congrArg TokTen.checking (State.tokTen_setTokTen_same ..)
  · rw [raise_tokTen, State.tokTen_setTokTen_same]

theorem gramCheckDone_ends (hc : (s.tokTen t).checking = .grammar) (ho : s.on domTOK = true)
    (hf : s.claimedAny t (s.gramReads t) = false) : ((gramCheckDone t s).tokTen t).checking = .none := by
  rw [gramCheckDone, if_neg (by simp [hc, ho, hf])]
  dsimp only
  split
  · exact congrArg TokTen.checking (State.tokTen_setTokTen_same ..)
  · rw [raise_tokTen, State.tokTen_setTokTen_same]

/-! ## Token streams -/

theorem writeStream_tok (j : Job) (toks : List Nat) (words : Nat) (invalid : Bool) (s : State) :
    (writeStream j toks words invalid s).tok = s.tok :=
  ((writeForJob_sameStreams ..).trans (writeForJob_sameStreams ..)).tok

/-- Where the stream in service is the first, its end leaves the others. -/
theorem endStream_first (h : u.tok = s.tok) (hs : s.tok.streams = x :: rest) :
    (endStream u).tok.streams = rest ∧ (endStream u).tok.serving = false := by
  refine ⟨?_, rfl⟩
  rw [endStream, h, hs]
  rfl

theorem emitWrites_tok (t a : Nat) (bs : List Byte) (s : State) : (emitWrites t a bs s).tok = s.tok := by
  unfold emitWrites
  refine forEach_keeps (g := State.tok) (fun p s => ?_) _ s
  rfl

theorem writeOutput_tok (j : Job) (a : Nat) (bs : List Byte) (s : State) : (writeOutput j a bs s).tok = s.tok :=
  emitWrites_tok ..

/-- A detokenize stream that is served ends, whatever its read or its ids bring. -/
theorem detokenizeDone_ends (hs : s.tok.streams = x :: rest) (hl : s.liveStreams = x :: rest) (ho : s.on domTOK = true)
    (hv : s.tok.serving = true) (hd : x.detok = true) (hj : s.job? x.job = some j) (hk : s.linkOk j.tenant = true)
    (hc : s.claimedIn j.tenant j.man.outRegion j.man.outBytes = false) :
    (detokenizeDone x.job s).tok.streams = rest ∧ (detokenizeDone x.job s).tok.serving = false := by
  have read := (readRegions_sameStreams tokBlock x.job j.tenant [(j.man.outRegion, j.man.outBytes)] s).tok
  simp only [detokenizeDone, cleanStreams_live hs hl, hs, hj]
  rw [if_neg (by simp [hv, hd, ho, hk, hc])]
  split
  · next e => rw [e] at read; exact endStream_first read hs
  · next v e =>
    rw [e] at read
    have ends (out : List Byte) := endStream_first ((writeOutput_tok j 0 out v).trans read) hs
    split
    · rw [State.modJob_tok]; exact ends _
    · rw [raise_tok, (State.SameStreams.of_spares (fireJob_spares ..)).tok, State.modJob_tok]; exact ends _

/-! ## The Damper -/

theorem answerDamper_tok (valid : Bool) (r : DampReq) (s : State) : (answerDamper valid r s).tok = s.tok :=
  (State.SameStreams.of_forEach (fun _ _ => writeResultFor_sameStreams ..) _ s).tok

theorem claimLine_tok (t line : Nat) (s : State) : (claimLine t line s).tok = s.tok := by
  rw [claimLine]; split <;> rfl

theorem claimLines_tok (t line n : Nat) (s : State) : (claimLines t line n s).tok = s.tok :=
  forEach_keeps (g := State.tok) (fun _ _ => claimLine_tok ..) _ s

end Sys2Proof.Machine
end

section
/-!
PROOFS. The settling of O60: each command of the Woodblock, the Roll unit, Intake, Paradiddle and the Damper completes.
-/
namespace Sys2Proof.Machine

/-- Settles O60: the lemmas of these blocks' commands, read at the field each clause names. -/
theorem timerLineAndTableCommandsComplete : Obligations.TimerLineAndTableCommandsComplete := by
  refine ⟨⟨?wrap, ?time, ?count, ?posErr, ?posSet, ?ctl, ?cmp, ?fires, ?capture, ?capRead, ?pulse⟩,
    ⟨?enable, ?disable, ?trained, ?timeout, ?request, ?lost, ?unasked, ?stored, ?settle, ?low, ?resume, ?motion, ?rd,
      ?wr, ?errors⟩,
    ⟨?queue, ?flush, ?hits, ?cut, ?line, ?picture, ?fail, ?sample, ?forward, ?load⟩,
    ?tables, ?set, ?grammar, ?loads, ?start, ?stream, ?detokenize, ?damper, ?serve⟩
  case wrap => exact fun s hm ht => ⟨_, congrArg Host.Outcome.next (timeWrap_last hm ht), rfl, rfl⟩
  case time => exact fun _ _ h => ⟨_, exec_wbkTimeRead_go h, rfl⟩
  case count => exact fun p a b s => ⟨posCount p a b s, rfl, posCount_pins_a p.isLt a b s, posCount_pins_b p.isLt a b s⟩
  case posErr => exact fun _ _ _ h => ⟨_, exec_posErrRead_go h, congrArg Pos.err (State.pos_setPos_same ..)⟩
  case posSet => exact fun _ _ _ _ h =>
    ⟨_, congrArg Host.Outcome.next (regWrite_go h), congrArg Pos.val (State.pos_setPos_same ..)⟩
  case ctl =>
    intro q k v s h ho ha hv hb hm hc
    have written := (exec_channelCtlWrite_go h ho).trans
      (congrArg Host.Outcome.next (channelCtl_disarmed ha hv hb hm hc))
    refine ⟨_, written, ?_⟩
    rw [State.chan_setChan_same]
    exact ⟨rfl, rfl, rfl, rfl⟩
  case cmp => exact fun _ k v s h ho =>
    ⟨_, congrArg Host.Outcome.next ((regWrite_go h).trans (guardOwned_allowed ho)), cmpWrite_low k v s⟩
  case fires => exact fun k s hm ha hc hb ht hn =>
    ⟨_, congrArg Host.Outcome.next (timeMatch_equal hm ha hc hb ht hn), matchAndStop_matched k s⟩
  case capture => exact fun i e s hd => ⟨pinChange i e s, rfl, pinChange_pins i.isLt hd⟩
  case capRead => exact fun _ _ _ h =>
    ⟨_, exec_capRead_go h, congrArg Chan.captured (State.chan_setChan_same ..), rfl⟩
  case pulse =>
    intro k s h
    refine ⟨_, congrArg Host.Outcome.next (if_pos h), ?_⟩
    rw [State.chan_setChan_same]
    exact ⟨rfl, rfl⟩
  case enable =>
    intro q p v s h he hv hx
    refine ⟨_, exec_portEnable_go h he hv, ?_⟩
    rw [enablePort_setPort_accepted hx, rescale_port, State.port_setPort_same]
    exact ⟨rfl, rfl⟩
  case disable =>
    intro q p s h he
    refine ⟨_, (exec_portDisable_go h).trans (congrArg Host.Outcome.next (if_pos he)), ?_⟩
    rw [stopFollowers_port, portOff_port_same]
    rfl
  case trained => exact fun p pairs s he hf hc ha ht =>
    ⟨trainingDone p pairs s, rfl, (congrArg Port.state (trainingDone_still he hf hc ha ht) :)⟩
  case timeout =>
    intro p s he ht
    refine ⟨_, congrArg Host.Outcome.next (trainingTimeout_training he ht), ?_⟩
    rw [portStopGroup_port (s := raise (96 + 16 * p + 5) s) he]
    exact ⟨rfl, rfl⟩
  case request =>
    intro p received pos rest s hr he hs hf hq hi
    have issues := triggerRequest_running (received := received) hr he (by simp [hs]) hf
    have read : (s.setPort p { s.port p with requests := rest }).port p = { s.port p with requests := rest } :=
      State.port_setPort_same ..
    refine ⟨_, congrArg Host.Outcome.next (issues.trans (if_pos hi)), ?_⟩
    rw [issueTrigger_run (by rw [read]; exact hs) (by rw [read]; exact hq), read, State.setPort_setPort]
    have issued : ((s.setPort p (Port.issuing { s.port p with requests := rest } pos s.wbk.time)).port p)
        = Port.issuing { s.port p with requests := rest } pos s.wbk.time := State.port_setPort_same ..
    exact ⟨congrArg Port.requests issued,
      (congrArg (fun x => x.issued.length) issued).trans (List.length_append ..)⟩
  case lost =>
    intro p l s hl
    let u := s.setPort p { s.port p with
      issued := (s.port p).issued.dropLast, framing := satInc (s.port p).framing }
    have kept := refuseTrigger_received p l.pos u
    rw [State.port_setPort_same] at kept
    exact ⟨_, congrArg Host.Outcome.next (solTimeout_last hl), (congrArg (·.2.2) kept :), (congrArg (·.2.1) kept :)⟩
  case unasked => exact fun _ _ _ he hf ht hn =>
    ⟨_, congrArg Host.Outcome.next (syncWithoutTrigger_counted he hf ht hn),
      congrArg Port.framing (State.port_setPort_same ..)⟩
  case stored =>
    intro p l rest pairs s hi hb hf
    have kept := lineStored_received (pairs := pairs) hi hf
    exact ⟨lineStored p pairs s, if_pos (.inr hb), (congrArg (·.1) kept :), (congrArg (·.2.1) kept :)⟩
  case settle =>
    intro p s he hf hs hm
    refine ⟨_, congrArg Host.Outcome.next (settleExpire_stopping he hf hs), ?_⟩
    rw [settleStop_port]
    exact if_neg (by simp [hm])
  case low => exact fun _ _ he hf hk hg hs hl hm hb =>
    ⟨_, (lowWaterReached_alive he hf).trans (congrArg Host.Outcome.next (backUp_alone he hk hg hs hl hm hb)),
      congrArg Port.state (State.port_setPort_same ..)⟩
  case resume => exact fun _ _ h hs hm =>
    ⟨_, congrArg Host.Outcome.next ((regWrite_go h).trans (portResume_fault hs hm)), congrArg Port.state (State.port_setPort_same ..)⟩
  case motion => exact fun _ p on s h => ⟨_, congrArg Host.Outcome.next (regWrite_go h), motionWrite_motion p on s⟩
  case rd => exact fun _ _ _ _ h =>
    ⟨_, congrArg Host.Outcome.next (regWrite_go h), congrArg Port.rdLo (State.port_setPort_same ..)⟩
  case wr => exact fun _ _ _ h =>
    ⟨_, congrArg Host.Outcome.next (regRead_go h), congrArg Port.wrHi (State.port_setPort_same ..)⟩
  case errors => exact fun _ _ _ h => ⟨_, congrArg Host.Outcome.next (regRead_go h),
    congrArg Port.framing (State.port_setPort_same ..), congrArg Port.refused (State.port_setPort_same ..)⟩
  case queue =>
    intro q n v s h he hv hx
    refine ⟨_, (exec_queueEnable_go h).trans (congrArg Host.Outcome.next (writeQueueCfg_asked he hv)), ?_⟩
    have accepted : ¬ s.queueErr ((s.queue n).configured v) ≠ 0 := not_not.2 hx
    rw [if_neg accepted, State.queue_setQueue_same]
    exact ⟨bit_setBit_same _ _ (by decide), rfl⟩
  case flush => exact fun _ _ _ h =>
    ⟨_, congrArg Host.Outcome.next (regWrite_go h), congrArg Queue.tags (State.queue_setQueue_same ..)⟩
  case hits => exact fun _ _ _ h => ⟨_, congrArg Host.Outcome.next (regRead_go h),
    congrArg Queue.hits (State.queue_setQueue_same ..), congrArg Queue.misses (State.queue_setQueue_same ..)⟩
  case cut =>
    intro n y j s hc hi hk hy hb
    refine ⟨_, congrArg Host.Outcome.next (cutStart_next hc hi hk hy hb), ?_⟩
    rw [modSample, State.queue_setQueue_same, State.queue_setQueue_same]
  case line =>
    intro n y j v s hc hi hk hy ht hf hh free
    obtain ⟨port, -, -⟩ := consumeLine_moves hc hi hk hy ht hf hh free.1 free.2
    exact ⟨consumeLine n s, rfl, congrArg Port.rd port⟩
  case picture =>
    intro n y j k v s hc hs hi hk hy ht free
    obtain ⟨fresh, unclaimed, read⟩ := free
    obtain ⟨stream, -, -⟩ := takePicture_moves hc hi hs hk hy ht fresh unclaimed read
    exact ⟨takePicture n s, rfl, congrArg Stream.outRd stream⟩
  case fail =>
    intro n id input y j f s hy hj hd hr
    let u := emitReads j.tenant (dInAddr j.desc) (min (dInLen j.desc) (f.1 + 1)) (serveInk (s.queue n).tenant s)
    have job : u.job? id = some j := State.job?_of_sch ((emitReads_sch ..).trans (serveInk_sch ..)) hj
    have sample : u.sampleFor n id = some y :=
      State.sampleFor_of_samples (congrArg Queue.samples ((emitReads_queue ..).trans (serveInk_queue ..))) hy
    exact ⟨_, congrArg Host.Outcome.next (storedFail_error hy hj hd hr), decodeFail_result job f,
      decodeFail_complete sample f⟩
  case sample =>
    intro n id input y j ps used s hy hj hd hr hf hm
    let u := emitReads j.tenant (dInAddr j.desc) used s
    have sample : u.sampleFor n id = some y := State.sampleFor_of_samples (congrArg Queue.samples (emitReads_queue ..)) hy
    have regions (r) (hr : r ∈ u.sampleWrites n j y) : u.mapped j.tenant r.1 r.2 = true := by
      rw [emitReads_mapped]
      exact hm r (emitReads_sampleWrites .. ▸ hr)
    exact ⟨_, congrArg Host.Outcome.next (sampleComplete_decoded hy hj hr hd hf),
      finishSample_complete (State.job?_id hj) sample regions⟩
  case forward => exact fun n _ _ s hs hd => ⟨sampleForward n s, rfl, sampleForward_samples hs hd⟩
  case load =>
    intro id input j f s hj hd hr hf hl hc region
    obtain ⟨free, mapped⟩ := region
    refine ⟨_, congrArg Host.Outcome.next (directLoad_written hj hd hr hf hl hc free mapped), ?_⟩
    exact (writeForJob_queuesAs ..).modJob_any (State.job?_of_sch (emitReads_sch ..) hj) (fun _ => rfl) fun _ => rfl
  case tables =>
    intro q t s h hl
    refine ⟨⟨_, congrArg Host.Outcome.next (tokWrite_free h hl), ?_⟩,
      fun hv => ⟨_, congrArg Host.Outcome.next ((tokWrite_free h hl).trans (if_pos hv)), ?_⟩,
      ⟨_, congrArg Host.Outcome.next (tokWrite_free h hl), ?_⟩,
      ⟨_, congrArg Host.Outcome.next (tokWrite_free h hl), ?_⟩⟩
    · exact congrArg TokTen.checking (State.tokTen_setTokTen_same ..)
    · exact congrArg TokTen.checking (State.tokTen_setTokTen_same ..)
    · exact ⟨congrArg TokTen.tokValid (State.tokTen_setTokTen_same ..),
        congrArg TokTen.gramValid (State.tokTen_setTokTen_same ..)⟩
    · exact congrArg TokTen.gramValid (State.tokTen_setTokTen_same ..)
  case set => exact fun t s hc ho hf => ⟨tokCheckDone t s, rfl, tokCheckDone_ends hc ho hf⟩
  case grammar => exact fun t s hc ho hf => ⟨gramCheckDone t s, rfl, gramCheckDone_ends hc ho hf⟩
  case loads => exact fun _ _ h => ⟨_, congrArg Host.Outcome.next (regRead_go h), rfl, rfl⟩
  case start => exact fun _ _ _ hs hl ho hv hd =>
    ⟨fun hx => ⟨_, congrArg Host.Outcome.next (streamStart_onDie hs hl ho hv hd (by simp [hx])), rfl⟩,
      fun hx => ⟨_, congrArg Host.Outcome.next (streamStart_onDie hs hl ho hv hd (by simp [hx])), rfl⟩⟩
  case stream =>
    intro x rest input j s hs hl ho hv hd hj hk hc hm
    exact ⟨_, congrArg Host.Outcome.next (streamComplete_written hs hl ho hv hj hk hd hc hm),
      endStream_first ((writeStream_tok ..).trans (emitReads_tok ..)) hs⟩
  case detokenize => exact fun x _ _ s hs hl ho hv hd hj hk hc =>
    ⟨detokenizeDone x.job s, rfl, detokenizeDone_ends hs hl ho hv hd hj hk hc⟩
  case damper =>
    intro i t slot n x s ho hs hr hx
    refine ⟨_, congrArg Host.Outcome.next (damperRequest_accepted ho hs hr hx), ?_⟩
    exact (congrArg List.length (congrArg (fun k => k.damps ++ _) (claimLines_tok ..))).trans (List.length_append ..)
  case serve => exact fun _ _ _ hs ho hv hd =>
    ⟨_, congrArg Host.Outcome.next (damperService_valid hs ho hv hd), congrArg Tok.damps (answerDamper_tok ..)⟩

end Sys2Proof.Machine
end

section
/-!
PROOFS. What a job that leaves, a tenant that is reset and a message to the host leave alone (R123, R147, R161, R166,
R203): the link's registers, the power state, the enables of the tenants.
-/
namespace Sys2Proof.Machine

variable {s t u : State}

theorem State.SameHost.of_spares (h : s.Spares t) : s.SameHost t := (State.SameStreams.of_spares h).toSameHost

theorem State.SameHost.tenant (h : s.SameHost t) (i : Nat) : t.tenant i = s.tenant i := by
  rw [State.tenant, h.tenants]; rfl

theorem State.SameHost.func (h : s.SameHost t) (i : Nat) : t.func i = s.func i := by
  rw [State.func, h.hif]; rfl

/-! ## Jobs that leave and tenants that lose their units (R126, R161, R166) -/

theorem spanRelease_sameHost (j : Job) (s : State) : s.SameHost (spanRelease j s) := by
  simp only [spanRelease]
  split
  · split
    · exact ⟨rfl, rfl, rfl⟩
    · rw [sendCtrl]
      split
      · exact .of_spares (transmit_spares ..)
      · exact .refl s
  · exact .refl s

theorem removeJob_sameHost (id : Nat) (s : State) : s.SameHost (removeJob id s) := by
  simp only [removeJob]
  split
  · exact .refl s
  · next j _ =>
    refine State.SameHost.trans ?_ (rescale_sameStreams _).toSameHost
    refine State.SameHost.trans (t := spanRelease j (releaseTiles id s)) ?_ ⟨rfl, rfl, rfl⟩
    exact (State.SameHost.of_spares (releaseTiles_spares id s)).trans (spanRelease_sameHost ..)

theorem setRing_sameHost (i r : Nat) (x : Ring) (s : State) : s.SameHost (s.setRing i r x) := ⟨rfl, rfl, rfl⟩

theorem dropTenant_sameHost (i : Nat) (s : State) : s.SameHost (dropTenant i s) :=
  (State.SameHost.of_forEach removeJob_sameHost _ s).trans (.of_forEach (fun r s => setRing_sameHost i r _ s) _ _)

theorem abortTenant_sameHost (i detail : Nat) (s : State) : s.SameHost (abortTenant i detail s) := by
  refine (State.SameHost.of_forEach (fun id s => .of_spares (finishJob_spares id stAborted detail s)) _ s).trans
    (.of_forEach (fun r s => ?_) ..)
  dsimp only
  split
  · exact .refl s
  · exact setRing_sameHost ..

theorem queueLost_sameHost (i n : Nat) (s : State) : s.SameHost (queueLost i n s) := by
  simp only [queueLost]
  split
  · exact ⟨rfl, rfl, rfl⟩
  · exact .refl s

theorem tenantLost_sameHost (i : Nat) (s : State) : s.SameHost (tenantLost i s) := by
  unfold tenantLost
  dsimp only
  refine State.SameHost.trans ?_ (.of_forEach (fun n s => ?_) _ _)
  · exact (State.SameHost.of_forEach (queueLost_sameHost i) _ s).trans (portsStop_sameStreams ..).toSameHost
  · split
    · exact (streamStop_sameStreams ..).toSameHost
    · exact .refl s

/-! ## What stays of a tenant and of a function through a tenant's reset -/

theorem setRing_tenant (i r j : Nat) (x : Ring) (s : State) : (s.setRing i r x).tenant j = s.tenant j := rfl

theorem tenantReset_hif (i : Nat) (s : State) : (tenantReset i s).hif = s.hif :=
  forEach_keeps (g := State.hif) (fun r s => by dsimp only; split <;> rfl) ringsOf _

theorem tenantReset_tenant (i : Nat) (s : State) :
    (tenantReset i s).tenant i = { s.tenant i with epoch := (s.tenant i).epoch + 1 } :=
  (forEach_keeps (g := fun s => s.tenant i) (fun r s => by dsimp only; split <;> rfl) ringsOf _).trans
    (State.tenant_setTenant_same ..)

/-- The registers of the link that a reset of a function leaves alone (R136). -/
def Hif.vfs (h : Hif) : BitVec 16 × Bool × Bool := (h.numVfs, h.ari, h.vfEnable)

theorem clearPage_hif (i : Nat) (s : State) : (clearPage i s).hif = s.hif := by
  unfold clearPage
  refine forEach_keeps (g := State.hif) (fun r s => ?_) ringsOf _
  rfl

theorem clearCq_hif (i : Nat) (s : State) : (clearCq i s).hif = s.hif := by
  unfold clearCq
  refine forEach_keeps (g := State.hif) (fun r s => ?_) ringsOf s
  rfl

theorem evictLines_hif (i : Nat) (s : State) : (evictLines i s).hif = s.hif := by
  rw [evictLines]; split <;> split <;> rfl

theorem tenantGone_hif (i : Nat) (s : State) : (tenantGone i s).hif = s.hif := evictLines_hif i s

/-- The FLR of a function leaves the host link's registers but its own function's, which is busy. -/
theorem flrTenant_hif (i : Nat) (s : State) :
    (flrTenant i s).hif = { s.hif with funcs := s.hif.funcs.put {} i { flrBusy := true } } := by
  have lost (u : State) : (tenantLost i u).hif = u.hif := (tenantLost_sameHost i u).hif
  have dropped : (dropTenant i s).hif = s.hif := (dropTenant_sameHost i s).hif
  simp only [flrTenant, State.setTenant_hif, clearCq_hif, clearPage_hif]
  simp only [State.setFunc, lost, queueScrub, dropped]

/-! ## What stays of the power state through messages to the host (R134, R147) -/

theorem fireMsix_pwr (i e : Nat) (s : State) : (fireMsix i e s).pwr = s.pwr := by
  obtain ⟨_, _, only⟩ := fireMsix_only i e s; rw [only]

theorem fireMsix_bme (i e j : Nat) (s : State) : ((fireMsix i e s).func j).bme = (s.func j).bme := by
  rw [fireMsix]
  split
  · rw [State.func_setFunc]
    split
    · next same => rw [same]
    · rfl
  · rw [sendMsix]; split <;> rfl

theorem fireCq_bme (i r j : Nat) (s : State) : ((fireCq i r s).func j).bme = (s.func j).bme := by
  simp only [fireCq]
  split
  · exact fireMsix_bme ..
  · split <;> rfl

theorem countCompletion_bme (i r j : Nat) (s : State) : ((countCompletion i r s).func j).bme = (s.func j).bme := by
  simp only [countCompletion]
  split
  · exact fireCq_bme ..
  · rfl

theorem countCompletion_pwr (i r : Nat) (s : State) : (countCompletion i r s).pwr = s.pwr := by
  obtain ⟨_, _, _, _, _, only⟩ := countCompletion_only i r s; rw [only]; rfl

/-- A half-written entry that is flushed counts, and its job leaves: the power state and the bus masters stay. -/
theorem flushHalf_keeps {β : Type} (g : State → β) (hg : ∀ {s t : State}, s.SameHost t → g t = g s)
    (hc : ∀ i r s, g (countCompletion i r s) = g s) (ht : ∀ i x s, g (State.setTenant s i x) = g s) (i r : Nat) (s : State) :
    g (flushHalf i r s) = g s := by
  simp only [flushHalf]
  split
  · rfl
  · next j bs _ =>
    split
    · have entry : s.SameHost ((emitEntry i r j bs s).setRing i r { s.ring i r with
          half := none, cqTail := j + 1, inflight := (s.ring i r).inflight.drop 1 }) := ⟨rfl, rfl, rfl⟩
      have hinted (u : State) (p : Prop) [Decidable p] (x : Tenant) : g (if p then u.setTenant i x else u) = g u := by
        split
        · exact ht ..
        · rfl
      have counted (u : State) (p : Prop) [Decidable p] (x : Tenant) :
          g (countCompletion i r (if p then u.setTenant i x else u)) = g u := (hc ..).trans (hinted ..)
      split
      · exact (counted ..).trans (hg entry)
      · split
        · exact (hg (removeJob_sameHost ..)).trans ((counted ..).trans (hg entry))
        · exact (counted ..).trans (hg entry)
    · rfl

theorem flushHalf_bme (i r j : Nat) (s : State) : ((flushHalf i r s).func j).bme = (s.func j).bme :=
  flushHalf_keeps (fun s => (s.func j).bme) (fun h => by rw [h.func]) (fun i r s => countCompletion_bme i r j s)
    (fun _ _ _ => rfl) i r s

theorem flushHalf_dstate (i r : Nat) (s : State) : (flushHalf i r s).pwr.dstate = s.pwr.dstate :=
  flushHalf_keeps (fun s => s.pwr.dstate) (fun h => by rw [h.pwr]) (fun i r s => by rw [countCompletion_pwr])
    (fun _ _ _ => rfl) i r s

theorem sendHeld_pwr (s : State) : (sendHeld s).pwr = s.pwr := by
  simp only [sendHeld]
  split
  · rfl
  · refine forEach_keeps (g := State.pwr) (fun m s => ?_) _ _
    rfl

theorem replayFires_pwr (s : State) : (replayFires s).pwr = s.pwr :=
  forEach_keeps (g := State.pwr) (fun i s => forEach_keeps (g := State.pwr) (fun r s => by
    dsimp only
    split
    · exact fireMsix_pwr ..
    · rfl) ringsOf s) tenants s

/-! ## Stacks sampled and domains switched off (R92, R98, R366) -/

theorem stackSample_sameHost (k : Nat) (c : Option Int) (s : State) : s.SameHost (stackSample k c s) := by
  simp only [stackSample]
  split
  · exact .refl s
  · split
    · exact (fence_sameStreams ..).toSameHost
    · split
      · split
        · exact ⟨rfl, rfl, rfl⟩
        · refine State.SameHost.trans ?_ (rescaleStack_sameStreams ..).toSameHost
          exact ⟨rfl, rfl, rfl⟩
      · split <;> exact ⟨rfl, rfl, rfl⟩

theorem linesLow_pwr (p : Nat) (s : State) : (linesLow p s).pwr = s.pwr := rfl

theorem domainOff_pwr (d : Nat) (s : State) :
    (domainOff d s).pwr = { s.pwr with dom := setBit s.pwr.dom d false } := by
  unfold domainOff
  dsimp only
  refine (forEach_keeps (g := State.pwr) (fun p s => ?_) _ _).trans ?_
  · split <;> rfl
  · simp only [apply_ite State.pwr, forEach_keeps (g := State.pwr) linesLow_pwr, State.setDom, ite_self]

theorem domainOff_on (d : Nat) (hd : d < 16) (e : Nat) (s : State) :
    (domainOff d s).on e = if e = d then false else s.on e := by
  rw [State.on, domainOff_pwr]
  exact bit_setBit _ _ hd

/-- Domains that are switched off one after the other are off, and the power state stays. -/
theorem domainsOff_off {ds : List Nat} (hd : ∀ d ∈ ds, d < 16) (e : Nat) (s : State) :
    (domainsOff ds s).on e = if e ∈ ds then false else s.on e := by
  unfold domainsOff forEach
  induction ds generalizing s with
  | nil => simp
  | cons d ds ih =>
    obtain ⟨low, rest⟩ := List.forall_mem_cons.1 hd
    rw [List.foldl_cons, ih rest, domainOff_on d low]
    by_cases first : e = d <;> by_cases later : e ∈ ds <;> simp [first, later]

theorem domainsOff_dstate (ds : List Nat) (s : State) : (domainsOff ds s).pwr.dstate = s.pwr.dstate :=
  forEach_keeps (g := fun s => s.pwr.dstate) (fun d s => by rw [domainOff_pwr]) ds s

theorem domainOn_on (d : Nat) (hd : d < 16) (s : State) : (domainOn d s).on d = true := by
  have switched : ((domainOn d s).pwr) = (s.setDom d true).pwr :=
    forEach_keeps (g := State.pwr) (fun p s => by split <;> rfl) _ _
  rw [State.on, switched]
  exact bit_setBit_same _ _ hd

/-! ## Chime lines and rings -/

theorem readChime_tenant (i : Nat) (s : State) : (readChime i s).tenant i = { s.tenant i with chime := .reading } :=
  State.tenant_setTenant_same ..

theorem holdChime_enable (i : Nat) (s : State) : ((holdChime i s).tenant i).enable = (s.tenant i).enable := by
  rw [holdChime]
  split
  · rw [readChime_tenant]
  · rfl

theorem holdChime_rings (i : Nat) (s : State) : (holdChime i s).rings = s.rings := by rw [holdChime]; split <;> rfl

theorem stopRing_stopped (i r err : Nat) (s : State) : ((stopRing i r err s).ring i r).stopped = true := by
  obtain ⟨p, h, o, only⟩ := fireCq_only i r (s.setRing i r { s.ring i r with stopped := true, err := BitVec.ofNat 4 err })
  rw [stopRing, only]
  exact (congrArg Ring.stopped (ring_setRing_same ..)).trans (congrArg Ring.stopped (ring_setRing_same ..))

end Sys2Proof.Machine
end

section
/-!
PROOFS. The commands of power, resets, VGRID and clocks, of the host link and the tenants, and of the rings complete with
their effect; and the settling of O58.
-/
namespace Sys2Proof.Machine

variable {s : State} {q : Requester} {t : Nat} {v : BitVec 32}

/-! ## Resets (R124 to R131, R166 to R168) -/

theorem fundamentalReset_effect (hp : s.pwr.perst = false) (hb : s.boot.stage ≠ .unpowered) :
    (fundamentalReset s).pwr.perst = true ∧ (fundamentalReset s).pwr.dstate = .d0 := by
  have resets : fundamentalReset s = fundamental s := (if_neg (by simp [hp])).trans (if_neg hb)
  rw [resets]
  exact ⟨rfl, rfl⟩

theorem resetWrite_keyed (hk : keyed v = true) (h0 : bit v 0 = true) (hr : s.boot.resetting = false) :
    resetWrite q v s = cardReset s := by simp [resetWrite, hk, h0, hr]

theorem cardReset_stage (s : State) : (cardReset s).boot.stage = .mgt := rfl

theorem clearHif_linkUp (s : State) : (clearHif s).hif.linkUp = false :=
  congrArg Hif.linkUp (forEach_keeps (g := State.hif) clearPage_hif tenants _)

theorem clearCqs_linkUp (s : State) : (forEach tenants clearCq (clearHif s)).hif.linkUp = false := by
  rw [forEach_keeps (g := State.hif) clearCq_hif, clearHif_linkUp]

theorem hotReset_effect (hl : s.hif.linkUp = true) :
    (hotReset s).pwr.dstate = .d0 ∧ (hotReset s).hif.linkUp = false := by
  rw [hotReset, if_pos hl]
  dsimp only
  exact ⟨rfl, clearCqs_linkUp _⟩

theorem flrTenant_busy (t : Nat) (s : State) : ((flrTenant t s).func t).flrBusy = true := by
  rw [State.func, flrTenant_hif]
  exact congrArg Func.flrBusy (Tbl.find_put_same {} s.hif.funcs t { flrBusy := true })

theorem flr_vf (ht : t ≠ 0) (hl : s.hif.linkUp = true) (hx : s.tenantExists t = true)
    (hb : (s.func t).flrBusy = false) : flr t s = flrTenant t s :=
  (if_neg ht).trans (if_pos ⟨hl, hx, by simp [hb]⟩)

/-- The end of a function's FLR leaves the number of VFs and their enable. -/
theorem forEach_gone_vfs (l : List Nat) (s : State) :
    (forEach l (fun t s => tenantGone t (s.setFunc t {})) s).hif.vfs = s.hif.vfs :=
  forEach_keeps (g := fun s => s.hif.vfs) (fun t s => by rw [tenantGone_hif]; rfl) l s

theorem pf0Flr_effect (hl : s.hif.linkUp = true) (hb : (s.func 0).flrBusy = false) :
    (pf0Flr s).hif.vfEnable = false ∧ (pf0Flr s).hif.numVfs = 0 := by
  let u := forEach (0 :: s.existing) flrTenant s
  have ends : pf0Flr s = forEach s.existing (fun t s => tenantGone t (s.setFunc t {}))
      { u with hif := { u.hif with vfEnable := false, numVfs := 0, ari := false, vfBar0 := 0 } } :=
    if_neg (by simp [hl, hb])
  have vfs := forEach_gone_vfs s.existing
    { u with hif := { u.hif with vfEnable := false, numVfs := 0, ari := false, vfBar0 := 0 } }
  rw [ends]
  exact ⟨(congrArg (·.2.2) vfs :), (congrArg (·.1) vfs :)⟩

theorem numvfsWrite_vfs {n : BitVec 16} {e ari : Bool} (hl : s.hif.linkUp = true) (hb : (s.func 0).flrBusy = false) :
    (numvfsWrite n e ari s).hif.numVfs = n ∧ (numvfsWrite n e ari s).hif.ari = ari := by
  have vfs (l : List Nat) (u : State) :
      (forEach l (fun t s => (tenantGone t (flrTenant t s)).setFunc t {}) u).hif.vfs = u.hif.vfs :=
    forEach_keeps (g := fun s => s.hif.vfs) (fun t s => by
      have same : ((tenantGone t (flrTenant t s)).setFunc t {}).hif.vfs = (flrTenant t s).hif.vfs :=
        (congrArg Hif.vfs (tenantGone_hif t (flrTenant t s)) :)
      rw [same, flrTenant_hif]
      rfl) l u
  rw [numvfsWrite_up hl hb]
  exact ⟨(congrArg (·.1) (vfs _ _) :), (congrArg (·.2.1) (vfs _ _) :)⟩

/-! ## Power states (R126, R132 to R134) -/

theorem d3hotEnter_effect (hd : s.pwr.dstate = .d0) (hl : s.hif.linkUp = true) :
    (d3hotEnter s).pwr.dstate = .d3hot ∧ (d3hotEnter s).on domFRONT = false := by
  rw [d3hotEnter, if_pos ⟨hd, hl⟩]
  exact ⟨domainsOff_dstate .., (domainsOff_off (by decide) ..).trans (if_pos (by decide))⟩

theorem forEach_flushHalf_dstate (l : List Nat) (s : State) :
    (forEach l (fun t s => forEach ringsOf (flushHalf t) s) s).pwr.dstate = s.pwr.dstate :=
  forEach_keeps (g := fun s => s.pwr.dstate) (fun t s =>
    forEach_keeps (g := fun s => s.pwr.dstate) (flushHalf_dstate t) ringsOf s) l s

theorem d0Enter_eq (hd : s.pwr.dstate = .d3hot) : d0Enter s = replayFires
    (forEach tenants (fun t s => forEach ringsOf (flushHalf t) s)
      (sendHeld { s with pwr := { s.pwr with dstate := .d0 } })) :=
  if_pos hd

theorem d0Enter_dstate (hd : s.pwr.dstate = .d3hot) : (d0Enter s).pwr.dstate = .d0 := by
  rw [d0Enter_eq hd, replayFires_pwr, forEach_flushHalf_dstate, sendHeld_pwr]

theorem d3coldEnter_effect (hd : s.pwr.dstate = .d3hot) :
    (d3coldEnter s).pwr.dstate = .d3cold ∧ (d3coldEnter s).mem.cells = [] := by
  rw [d3coldEnter, if_pos hd]
  exact ⟨rfl, rfl⟩

theorem bumpEpochs_pwr (s : State) : (bumpEpochs s).pwr = s.pwr := by
  unfold bumpEpochs
  refine forEach_keeps (g := State.pwr) (fun t s => ?_) tenants s
  rfl

theorem d3coldExit_dstate (hd : s.pwr.dstate = .d3cold) : (d3coldExit s).pwr.dstate = .d0 := by
  rw [d3coldExit, if_pos hd, bumpEpochs_pwr]
  rfl

/-! ## Temperatures (R107) -/

theorem tempSample_temps {die : List Int} {stackC : List (Option Int)} (h : s.on domMGT = true)
    (hd : maxTemp die < 115) (hm : maxTemp (stackC.filterMap id) < 105) :
    (tempSample die stackC s).pwr.dieC = BitVec.ofInt 8 (maxTemp die) ∧
      (tempSample die stackC s).pwr.dramC = BitVec.ofInt 8 (maxTemp (stackC.filterMap id)) := by
  rw [tempSample_below h hd hm]
  have kept := (State.SameHost.of_forEach (fun k s => stackSample_sameHost k (stackC.getD k none) s) [0, 1, 2, 3]
    { s with pwr := { (s.pwr.followDie (maxTemp die)) with
      dieC := BitVec.ofInt 8 (maxTemp die), dramC := BitVec.ofInt 8 (maxTemp (stackC.filterMap id)) } }).pwr
  rw [kept]
  exact ⟨rfl, rfl⟩

/-! ## Tenants and rings -/

theorem bmeClear_bme (hc : s.configurable t = true) (hb : (s.func t).bme = true) :
    ((bmeClear t none s).func t).bme = false := by
  have hif : (bmeClear t none s).hif = (s.setFunc t { s.func t with bme := false }).hif := by
    rw [bmeClear_set hc hb, tenantReset_hif, (abortTenant_sameHost ..).hif]
  rw [State.func, hif]
  exact congrArg Func.bme (Tbl.find_put_same ..)

theorem bmeSet_bme (hc : s.configurable t = true) (hb : (s.func t).bme = false) : ((bmeSet t s).func t).bme = true := by
  rw [bmeSet_clear hc hb]
  exact (forEach_keeps (g := fun s => (s.func t).bme) (fun r s => flushHalf_bme t r t s) ringsOf _).trans
    (congrArg Func.bme (State.func_setFunc_same ..))

theorem disableTenant_disabling (he : (s.tenant t).enable = true) (hd : (s.tenant t).disabling = false) :
    ((disableTenant t s).tenant t).disabling = true := by
  rw [disableTenant_on he hd, (tenantLost_sameHost ..).tenant, tenantReset_tenant, (abortTenant_sameHost ..).tenant]
  exact congrArg Tenant.disabling (State.tenant_setTenant_same ..)

/-- A page that is to be queued is in the queue then, as it may have been before. -/
theorem mem_queueScrub {owner : Option Nat} {ps : List Nat} {p : Nat} (hp : p ∈ ps) (s : State) :
    (queueScrub owner ps s).ten.scrubQ.any (fun x => x.ppn == p && x.owner == owner) = true := by
  simp only [queueScrub, List.any_append, Bool.or_eq_true]
  by_cases queued : s.ten.scrubQ.any (fun x => x.ppn == p && x.owner == owner) = true
  · exact .inl queued
  · refine .inr (List.any_eq_true.2 ⟨{ ppn := p, owner := owner }, List.mem_map.2 ⟨p, ?_, rfl⟩, by simp⟩)
    exact List.mem_filter.2 ⟨hp, by simpa using queued⟩

theorem find_filter_of_dropped {l : Tbl Byte} {P : Nat × Byte → Bool} {a : Nat} (h : ∀ b, P (a, b) = false) :
    Tbl.find 0 (l.filter P) a = 0 := by
  induction l with
  | nil => rfl
  | cons e l ih =>
    obtain ⟨k, b⟩ := e
    rw [List.filter_cons]
    split
    · next kept =>
      have other : k ≠ a := fun same => by rw [same, h] at kept; exact absurd kept (by decide)
      exact (if_neg other).trans ih
    · exact ih

theorem zeroBytes_byte {a n i : Nat} (hi : i < n) (s : State) : (zeroBytes a n s).byte (a + i) = 0 :=
  find_filter_of_dropped fun b => by simp [hi]

/-- Settles O58: the lemmas of these commands, read at the field each clause names. -/
theorem powerHostAndRingCommandsComplete : Obligations.PowerHostAndRingCommandsComplete := by
  refine ⟨⟨?supply, ?fundamental, ?card, ?hot, ?flr, ?flrDone, ?pf0, ?d3hot, ?d0, ?d3cold, ?cold, ?powerOn, ?idleOff⟩,
    ⟨?vgrid, ?temps, ?freq, ?lock, ?lockTimeout⟩,
    ⟨?readFail, ?numVfs, ?bmeClear, ?bmeSet, ?map, ?enable, ?disable, ?disabled, ?scrub, ?zeroed⟩,
    ?ringEnable, ?ringDisable, ?poll, ?snoop, ?chimePoll, ?line, ?fetch, ?hint⟩
  case supply => exact fun s => ⟨aonSupplyLoss s, rfl, rfl, rfl⟩
  case fundamental => exact fun s hp hb => ⟨fundamentalReset s, rfl, fundamentalReset_effect hp hb⟩
  case card => exact fun _ _ s h hk h0 hr =>
    ⟨_, congrArg Host.Outcome.next ((regWrite_go h).trans (resetWrite_keyed hk h0 hr)), cardReset_stage s⟩
  case hot => exact fun s hl => ⟨hotReset s, rfl, hotReset_effect hl⟩
  case flr => exact fun f s h0 hl hx hb =>
    ⟨_, congrArg Host.Outcome.next (flr_vf h0 hl hx hb), flrTenant_busy f s⟩
  case flrDone => exact fun _ _ => ⟨_, rfl, congrArg Func.flrBusy (State.func_setFunc_same ..)⟩
  case pf0 => exact fun s hl hb => ⟨pf0Flr s, rfl, pf0Flr_effect hl hb⟩
  case d3hot => exact fun s hd hl => ⟨d3hotEnter s, rfl, d3hotEnter_effect hd hl⟩
  case d0 => exact fun s hd => ⟨d0Enter s, rfl, d0Enter_dstate hd⟩
  case d3cold => exact fun s hd => ⟨d3coldEnter s, rfl, d3coldEnter_effect hd⟩
  case cold => exact fun s hd => ⟨d3coldExit s, rfl, d3coldExit_dstate hd⟩
  case powerOn => exact fun d s hm ho =>
    ⟨_, congrArg Host.Outcome.next (if_pos ⟨hm, by simp [ho]⟩), domainOn_on d d.isLt s⟩
  case idleOff =>
    intro d s hd ho hn
    have off := (domainOff_on d d.isLt d s).trans (if_pos rfl)
    exact ⟨_, congrArg Host.Outcome.next (if_pos ⟨List.contains_iff_mem.2 hd, ho, by simp [hn]⟩), off⟩
  case vgrid =>
    intro fitMv dw s hm
    refine ⟨_, congrArg Host.Outcome.next (vgridEvaluate_on hm), rfl, ?_⟩
    exact ((BitVec.toNat_ofNat ..).trans_le (Nat.mod_le ..)).trans (nextVgrid_le ..)
  case temps => exact fun die stackC s hd hc hm _ hdie hstack =>
    ⟨tempSample die stackC s, exec_tempSample hd hc, tempSample_temps hm hdie hstack⟩
  case freq =>
    intro q p v s h h1 h2
    refine ⟨_, exec_lineFreqWrite_go h, ?_⟩
    rw [lineFreq_allowed h1 h2, State.lineKhz, Tbl.find_put_same, BitVec.toNat_ofNat]
    exact Nat.mod_eq_of_lt (Nat.mod_lt _ (by decide))
  case lock => exact fun i s h hp => ⟨_, congrArg Host.Outcome.next (pllLock_idle h hp),
    bit_setBit_same _ _ (by omega), bit_setBit_same _ _ (by omega)⟩
  case lockTimeout => exact fun i _ h => ⟨_, congrArg Host.Outcome.next (pllLockTimeout_relocking h),
    bit_setBit_same _ _ (by omega), bit_setBit_same _ _ (by omega)⟩
  case readFail => exact fun _ _ _ _ _ h hw =>
    ⟨_, congrArg Host.Outcome.next (hostReadFail_descriptor hw h), stopRing_stopped ..⟩
  case numVfs => exact fun n e ari s hl hb => ⟨numvfsWrite n e ari s, rfl, numvfsWrite_vfs hl hb⟩
  case bmeClear => exact fun t s hc hb => ⟨bmeClear t none s, rfl, bmeClear_bme hc hb⟩
  case bmeSet => exact fun t s hc hb => ⟨bmeSet t s, rfl, bmeSet_bme hc hb⟩
  case map =>
    intro q i v s h hl hv h31
    have written := mapWrite_invalid (v := v) hl hv (by simp [h31])
    refine ⟨_, (exec_tenMapWrite_go h).trans (congrArg Host.Outcome.next written), ?_⟩
    rw [State.mapEntry_setMap_same]
    exact ⟨h31, rfl⟩
  case enable =>
    intro q t s h he hd hx hr ho hs
    refine ⟨_, (exec_tenantEnable_go h).trans (congrArg Host.Outcome.next (enableTenant_off he hd hx hr ho hs)), ?_⟩
    rw [holdChime_enable, State.tenant_setTenant_same]
  case disable => exact fun _ t s h he hd => ⟨disableTenant t s, exec_tenantDisable_go h, disableTenant_disabling he hd⟩
  case disabled =>
    intro t s hd hr hh
    refine ⟨_, congrArg Host.Outcome.next (disableDone_idle hd hr hh), ?_⟩
    rw [tenantGone_tenant]
    exact ⟨rfl, rfl⟩
  case scrub =>
    intro q t s h he
    refine ⟨_, (exec_tenantScrub_go h).trans (congrArg Host.Outcome.next (scrubTenant_off he)), fun p hp => ?_⟩
    exact mem_queueScrub (List.mem_map_of_mem hp) s
  case zeroed => exact fun _ _ _ hq hd hm =>
    ⟨_, congrArg Host.Outcome.next (pageZeroed_on hq hd hm), rfl, fun _ hi => zeroBytes_byte hi _⟩
  case ringEnable =>
    intro q t r k s h he hi hlo hhi
    refine ⟨_, (exec_ringEnable_go h).trans (congrArg Host.Outcome.next (enableRing_off he hi hlo hhi)), ?_⟩
    rw [State.ring, holdChime_rings]
    exact ⟨congrArg Ring.enable (ring_setRing_same ..), congrArg Ring.k (ring_setRing_same ..)⟩
  case ringDisable => exact fun _ _ _ _ h => ⟨_, exec_ringDisable_go h, congrArg Ring.enable (ring_setRing_same ..)⟩
  case poll =>
    intro q t v s h
    refine ⟨_, (exec_pollPeriodWrite_go h).trans (congrArg Host.Outcome.next (writePoll_eq ..)), ?_⟩
    rw [State.tenant_setTenant_same, BitVec.toNat_ofNat]
    exact Nat.mod_eq_of_lt (by omega)
  case snoop => exact fun _ _ hc hl => ⟨_, congrArg Host.Outcome.next (chimeSnoop_hint hc hl),
    congrArg Tenant.hintHeld (State.tenant_setTenant_same ..), rfl⟩
  case chimePoll => exact fun _ _ hc hl he hb => ⟨_, congrArg Host.Outcome.next (chimePoll_pcie hc hl he hb),
    congrArg Tenant.polls (State.tenant_setTenant_same ..), rfl⟩
  case line => exact fun _ _ _ h64 hc hr =>
    ⟨_, (exec_chimeLineData h64).trans (congrArg Host.Outcome.next (chimeLineData_cached hc hr)),
      congrArg Tenant.chime (State.tenant_setTenant_same ..)⟩
  case fetch =>
    intro t r d s h1 h8 hd hf hl
    refine ⟨_, exec_descriptorFetch_fetchable h1 h8 hd hf hl, ?_⟩
    rw [ring_setRing_same]
    exact ⟨rfl, by simp⟩
  case hint => exact fun _ _ hc hl h1 hd hb he hh => ⟨_, congrArg Host.Outcome.next (tailHint_due hc hl h1 hd hb he hh),
    congrArg Tenant.hintDue (State.tenant_setTenant_same ..), congrArg Tenant.hintHeld (State.tenant_setTenant_same ..)⟩

end Sys2Proof.Machine
end

section
/-!
PROOFS. The commands of the completions, the Gong and the pins, each with its effect (R186, R204, R207, R226, R230,
R232), as O59 names them.
-/
namespace Sys2Proof.Machine

variable {s : State} {t r n k : Nat} {d : Inflight} {rest : List Inflight} {c : Cpl} {b held : Bool}

/-! ## Entries (R186, R204) -/

theorem writeEntry_inflight (t r : Nat) (x i : BitVec 32) (c : Cpl) (s : State) :
    ((writeEntry t r x i c s).ring t r).inflight = (s.ring t r).inflight := by
  obtain ⟨_, _, _, _, _, _, only⟩ := writeEntry_only t r x i c s
  rw [only]
  exact (congrArg Ring.inflight (ring_setRing_same ..)).trans rfl

theorem writeEntry_markerDue (t r : Nat) (x i : BitVec 32) (c : Cpl) (s : State) :
    ((writeEntry t r x i c s).ring t r).markerDue = (s.ring t r).markerDue := by
  obtain ⟨_, _, _, _, _, _, only⟩ := writeEntry_only t r x i c s
  rw [only]
  exact (congrArg Ring.markerDue (ring_setRing_same ..)).trans rfl

/-- The completion of a decided descriptor takes it from the ring and writes one entry, with the next stamp. -/
theorem completeHead_decided (hi : (s.ring t r).inflight = d :: rest) (hd : s.decision d = some c)
    (hm : s.mayComplete t (s.ring t r) = true) (hj : ∀ j, d.st ≠ .admitted j) :
    ((completeHead t r s).ring t r).inflight = rest ∧
      ((completeHead t r s).ring t r).cqTail = (s.ring t r).cqTail + 1 ∧
      (completeHead t r s).gng.next = s.gng.next + 1 := by
  rw [completeHead_other hi hd hm hj, writeEntry_inflight, writeEntry_cqTail, writeEntry_gng, ring_setRing_same]
  exact ⟨rfl, rfl, rfl⟩

theorem epochMarker_written (h : s.markerReady t r = true) : ((epochMarker t r s).ring t r).markerDue = false ∧
    ((epochMarker t r s).ring t r).cqTail = (s.ring t r).cqTail + 1 := by
  rw [epochMarker_ready h, writeEntry_markerDue, writeEntry_cqTail, ring_setRing_same]
  exact ⟨rfl, rfl⟩

/-! ## Pins (R230, R232) -/

theorem askEvent_levels (n : Nat) (held : Bool) (s : State) : (askEvent n held s).car.levels = s.car.levels := by
  rw [askEvent, askGong]; split <;> rfl

theorem askEvent_latches (n : Nat) (held : Bool) (s : State) : (askEvent n held s).car.latches = s.car.latches := by
  rw [askEvent, askGong]; split <;> rfl

/-- A level that no fault of a motor driver comes with (R460) stands at its pin once the filter shows it. -/
theorem filteredLevel_level (hk : k < 20) (hf : k < 16 ∨ b = true) (h : bit s.car.levels k = !b) :
    bit (filteredLevel k b held s).car.levels k = b := by
  have sound : ¬ (16 ≤ k ∧ b = false) := by rintro ⟨high, rfl⟩; simp at hf; omega
  have shown : bit (s.pinShows k b).car.levels k = b := bit_setBit_same _ _ hk
  rw [filteredLevel_change h, motorFault, if_neg sound]
  split
  · rwa [askEvent_levels]
  · exact shown

theorem glitchFilterOutput_level (hk : k < 20) (hf : k < 16 ∨ b = true) (hc : s.ckAon = true)
    (hd : s.drivenOther k b = false) : bit (glitchFilterOutput k b held s).car.levels k = b := by
  by_cases h : bit s.car.levels k = b
  · rwa [glitchFilterOutput_same h]
  · have changes : bit s.car.levels k = !b := Bool.eq_not.2 h
    rw [glitchFilterOutput_seen hc changes hd, filteredLevel_level hk hf changes]

theorem pinLatchReplay_latches (hc : s.ckAon = true) (hm : s.on domMGT = true) :
    (pinLatchReplay s).car.latches = 0 := by
  rw [pinLatchReplay_on hc hm, forEachAny_keeps (g := fun s => s.car.latches)
    (fun k s => askEvent_latches (384 + k) false s) (fun _ => rfl)]

/-! ## The commands -/

theorem completionWrite_completes {t : Fin 64} {r : Fin 8} (hi : (s.ring t r).inflight = d :: rest)
    (hst : d.st = .decided c) (hd : s.decision d = some c) (hm : s.mayComplete t (s.ring t r) = true)
    (hq : s.atPort (.completion t r) = []) (hg : s.gongFree (gongPort (.completion t r)) = true) :
    ∃ u, exec (.completionWrite t r false) s = .next u ∧ (u.ring t r).inflight = rest ∧
      (u.ring t r).cqTail = (s.ring t r).cqTail + 1 ∧ u.gng.next = s.gng.next + 1 := by
  have decided (j : Nat) : d.st ≠ .admitted j := by simp [hst]
  refine ⟨_, congrArg Host.Outcome.next ((completionWrite_asks hi hd hm hq false).trans (askGong_free hq hg)), ?_⟩
  exact completeHead_decided (s := gongPassed _ s) hi hd hm decided

theorem epochMarker_completes {t : Fin 64} {r : Fin 8} (h : s.markerReady t r = true)
    (hq : s.atPort (.marker t r) = []) (hg : s.gongFree (gongPort (.marker t r)) = true) :
    ∃ u, exec (.epochMarker t r false) s = .next u ∧ (u.ring t r).markerDue = false ∧
      (u.ring t r).cqTail = (s.ring t r).cqTail + 1 :=
  ⟨_, congrArg Host.Outcome.next ((markerWrite_asks h hq false).trans (askGong_free hq hg)),
    epochMarker_written (s := gongPassed _ s) h⟩

/-- A source that is granted has the next stamp, and no longer waits at its port (R207). -/
theorem gongGrant_source (hm : s.on domMGT = true) (h : s.grantable (.source n) = true) :
    ((gongGrant (.source n) s).src n).stamp = s.gng.next ∧
      (gongGrant (.source n) s).gng.held = s.gng.held.erase (.source n) := by
  rw [gongGrant_grantable hm h]
  exact ⟨raise_src_stamp .., rfl⟩

theorem sourceEvent_stamp (hm : s.on domMGT = true) (hr : reservedSource n = false) (hp : isPin n = false)
    (hq : s.atPort (.source n) = []) (hg : s.gongFree (gongPort (.source n)) = true) :
    ((sourceEvent n false s).src n).stamp = s.gng.next := by
  rw [sourceEvent_asks hm hr hp, askEvent_free hm hq hg]
  exact raise_src_stamp ..

end Sys2Proof.Machine
end

section
/-!
PROOFS. The commands of Carillon, each with its effect (R224, R236, R239, R240, R251, R254), as O59 names them.
-/
namespace Sys2Proof.Machine

variable {s : State} {t r e c n : Nat} {v : BitVec 32}

/-! ## Claims (R236, R239, R240) -/

theorem presentNext_claims (c : Nat) (s : State) : (presentNext c s).car.claims = s.car.claims := by
  unfold presentNext
  split
  · rfl
  · split <;> rfl

theorem askEvent_claims (n : Nat) (held : Bool) (s : State) : (askEvent n held s).car.claims = s.car.claims := by
  rw [askEvent, askGong]; split <;> rfl

theorem endActive_claims (n : Nat) (s : State) : (endActive n s).car.claims = s.car.claims := by
  unfold endActive
  dsimp only
  split
  · exact askEvent_claims ..
  · rfl

theorem State.claimed_setClaimed_same (c : Nat) (x : List (Nat × Nat)) (s : State) : (s.setClaimed c x).claimed c = x :=
  Tbl.find_put_same ..

theorem State.claimed_of_claims {s u : State} (h : u.car.claims = s.car.claims) (c : Nat) : u.claimed c = s.claimed c := by
  rw [State.claimed, h]; rfl

/-- A source that is done is no longer among the claims of its core. -/
theorem done_claimed_none {q : Requester} (h : ownCore q c = true)
    (hc : (s.claimed c).any (fun x => x.1 == fld v 0 9) = true) :
    ((done q c v s).claimed c).any (fun x => x.1 == fld v 0 9) = false := by
  rw [done_claimed h hc, State.claimed_of_claims ((presentNext_claims ..).trans (endActive_claims ..)),
    State.claimed_setClaimed_same]
  simp

theorem State.mem_claimed_afterClaim (c n : Nat) (s : State) :
    (n, (s.src n).priority.toNat) ∈ (presentNext c (s.afterClaim c n)).claimed c := by
  rw [State.claimed_of_claims (presentNext_claims ..), State.afterClaim, State.claimed_setClaimed_same]
  exact List.mem_cons_self

/-! ## Completion rings and messages (R251, R253, R254) -/

theorem coalesceTimer_covers (h : (s.ring t r).uncovered ≠ 0) : ((coalesceTimer t r s).ring t r).uncovered = 0 := by
  obtain ⟨_, _, _, fires⟩ := fireCq_only t r s
  rw [coalesceTimer_uncovered h, fires]
  exact congrArg Ring.uncovered (ring_setRing_same ..)

theorem sendHeld_l1 (s : State) : (sendHeld s).hif.l1 = s.hif.l1 := by
  unfold sendHeld
  split
  · rfl
  · refine (forEach_keeps (g := fun s => s.hif.l1) (fun _ _ => ?_) ..).trans rfl
    rfl

/-- An entry that is unblocked is sent, and is no longer pending. -/
theorem msixUnblock_sent (he : e < 64) (hx : s.tenantExists t = true) (hp : bit (s.func t).pba e = true)
    (hb : (s.func t).blocked e = false) (hd : s.pwr.dstate = .d0) (h1 : s.hif.l1 = false) :
    bit ((msixUnblock t e s).func t).pba e = false ∧ (msixUnblock t e s).out = s.out ++ [.msix t e] := by
  rw [msixUnblock_sends hx hp hb hd, sendMsix_sent (s := s.setFunc t _) h1 hd]
  refine ⟨?_, rfl⟩
  have kept : ((s.setFunc t { s.func t with pba := setBit (s.func t).pba e false }).func t).pba =
      setBit (s.func t).pba e false := congrArg Func.pba (State.func_setFunc_same ..)
  exact (congrArg (fun w => bit w e) kept).trans (bit_setBit_same _ _ he)

end Sys2Proof.Machine
end

section
/-!
PROOFS. The stacks that are fenced (R366), which a fence leaves its own stack among, and the commands of the grid and of
device memory, each with its effect (R292, R297, R298, R366, R370), as O59 names them.
-/
namespace Sys2Proof.Machine

variable {s u : State} {i k : Nat}

/-! ## The fence of a stack is kept (R366, R368) -/

/-- Stack k is fenced. -/
def State.fenced (s : State) (k : Nat) : Bool := (s.stack k).fenced

theorem State.fenced_of_stk (h : u.mem.stk = s.mem.stk) : u.fenced k = s.fenced k := by
  rw [State.fenced, State.stack, h]; rfl

theorem State.fenced_setStack (j : Nat) {x : Stack} (hx : x.fenced = s.fenced j) :
    (s.setStack j x).fenced k = s.fenced k := by
  rw [State.fenced, State.stack_setStack]
  split
  · next same => rw [hx, same]
  · rfl

theorem raise_fenced (n : Nat) (s : State) : (raise n s).fenced k = s.fenced k :=
  State.fenced_of_stk (congrArg DevMem.stk (raise_mem n))

theorem rescaleStack_fenced (j : Nat) (s : State) : (rescaleStack j s).fenced k = s.fenced k := by
  simp only [rescaleStack]
  split
  · rfl
  · rw [raise_fenced]
    exact State.fenced_setStack j rfl

theorem rescale_fenced (s : State) : (rescale s).fenced k = s.fenced k :=
  forEach_keeps (g := fun s => s.fenced k) rescaleStack_fenced _ s

theorem motionStop_stk (p : Nat) (s : State) : (motionStop p s).mem.stk = s.mem.stk := by
  simp only [motionStop]
  split
  · rfl
  · split <;> rfl

theorem portStop_fenced (p : Nat) (err : BitVec 4) (s : State) : (portStop p err s).fenced k = s.fenced k := by
  rw [portStop]
  split
  · rw [raise_fenced, portOff]
    refine (rescale_fenced _).trans (State.fenced_of_stk ?_)
    refine (forEach_keeps (g := fun s => s.mem.stk) (fun c s => ?_) _ _).trans (motionStop_stk p s)
    rfl
  · rfl

theorem stopFollowers_fenced (p : Nat) (s : State) : (stopFollowers p s).fenced k = s.fenced k :=
  forEach_keeps (g := fun s => s.fenced k)
    (fun q s => by dsimp only; split; exacts [portStop_fenced .., rfl]) _ s

theorem portsStop_fenced (ps : List Nat) (err : BitVec 4) (s : State) : (portsStop ps err s).fenced k = s.fenced k :=
  (forEach_keeps (g := fun s => s.fenced k) stopFollowers_fenced ps _).trans
    (forEachAny_keeps (g := fun s => s.fenced k) (fun p s => portStop_fenced p err s) (fun _ => rfl) ps s)

theorem State.Spares.stk (h : s.Spares u) : u.mem.stk = s.mem.stk := by
  obtain ⟨⟨_, _, _, _, _, _, _, _, rfl⟩, -⟩ := h; rfl

theorem writeLines_stk (t line : Nat) (ns : List Nonet) (s : State) : (s.writeLines t line ns).mem.stk = s.mem.stk := by
  obtain ⟨_, _, only⟩ := State.writeTen_only s t (72 * line) (packNonets (wholeLines ns))
  exact congrArg (fun s => s.mem.stk) only

theorem writeResult_stk (t line : Nat) (ws : List Word) (s : State) : (writeResult t line ws s).mem.stk = s.mem.stk := by
  simp only [writeResult]
  split
  · exact writeLines_stk ..
  · split
    · exact writeLines_stk ..
    · exact (forEach_keeps (g := fun s => s.mem.stk) (fun ns s => writeLines_stk t line ns s) _ _).trans
        (writeLines_stk ..)

theorem answerPicture_stk (r : CymReq) (ws : List Word) (s : State) :
    (answerPicture r ws s).mem.stk = s.mem.stk := by
  have written := writeResult_stk (s.stream r.stream).tenant ((s.stream r.stream).rslt.toNat + r.slot) ws s
  simp only [answerPicture, writeResultFor, State.modJob_mem]
  split
  · exact written
  · exact (fireJob_spares ..).stk.trans written

theorem streamStop_fenced (n : Nat) (err : BitVec 4) (s : State) : (streamStop n err s).fenced k = s.fenced k := by
  simp only [streamStop]
  split
  · rfl
  · rw [raise_fenced]
    refine (rescale_fenced _).trans (State.fenced_of_stk ?_)
    exact (forEach_keeps (g := fun s => s.mem.stk) (fun r s => answerPicture_stk r _ s) _ _).trans rfl

theorem failJobs_stk (ids : List Nat) (n : Nat) (s : State) : (failJobs ids n s).mem.stk = s.mem.stk :=
  forEach_keeps (g := fun s => s.mem.stk)
    (fun _ _ => ((State.Spares.of_modJob ..).trans (finishJob_spares ..)).stk) ids s

theorem State.fenced_setDom (d : Nat) (b : Bool) (s : State) : (s.setDom d b).fenced k = s.fenced k := rfl

theorem State.fenced_setMap (j : Nat) (x : MapEntry) (s : State) : (s.setMap j x).fenced k = s.fenced k := rfl

theorem State.fenced_setTen (x : Ten) (s : State) : { s with ten := x }.fenced k = s.fenced k := rfl

/-- A stack is fenced once its fence has run. -/
theorem fence_fenced (k cause : Nat) (s : State) : ((fence k cause s).stack k).fenced = true := by
  simp only [fence]
  split
  · assumption
  · refine (rescale_fenced _).trans ?_
    refine (forEach_keeps (g := fun s => s.fenced k) (fun n s => streamStop_fenced n 6 s) _ _).trans ?_
    refine (portsStop_fenced ..).trans ?_
    rw [State.fenced_setDom, State.fenced_setTen]
    refine (forEach_keeps (g := fun s => s.fenced k) (fun e s => State.fenced_setMap ..) _ _).trans ?_
    refine (State.fenced_of_stk (failJobs_stk ..)).trans ?_
    rw [raise_fenced]
    refine (State.fenced_of_stk (fire_spares ..).stk).trans ?_
    exact congrArg Stack.fenced (State.stack_setStack_same ..)

/-! ## The commands -/

theorem rescaleStack_hot (k : Nat) (s : State) : ((rescaleStack k s).stack k).hot = (s.stack k).hot := by
  simp only [rescaleStack]
  split
  · rfl
  · exact (congrArg Stack.hot (State.stack_setStack_same ..)).trans rfl

theorem stackCool_cold (hh : (s.stack k).hot = true) (hc : 100 ≤ (s.stack k).cool) :
    ((stackCool k s).stack k).hot = false := by
  rw [stackCool_due hh hc, rescaleStack_hot, State.stack_setStack_same]

theorem chokePort_busy {v : BitVec 32} (h : fld v 10 3 ≤ 5) : (chokePort v s).grd.chokeBusy = true := by
  have valid : ¬ 5 < fld v 10 3 := Nat.not_lt.2 h
  rw [chokePort]; dsimp only; rw [if_neg valid]

theorem watchdogExpire_stops (hr : (s.tile i).running = true) (hj : (s.tile i).job = none)
    (hw : s.grd.wdogLimit.toNat ≤ (s.tile i).wdog.toNat) :
    ((watchdogExpire i s).tile i).running = false ∧ ((watchdogExpire i s).tile i).fault = 1 := by
  rw [watchdogExpire_due hr hw, tileFault_tile hj, if_pos rfl]
  exact ⟨rfl, rfl⟩

theorem patrol_moves (hon : s.on (domMEM k) = true) (hd : s.pwr.dstate = .d0) (hh : s.dramHeld k = false)
    (hb : s.beat (k * stackBytes + (s.stack k).patrol) = none) :
    ((patrol k none s).stack k).patrol = ((s.stack k).patrol + 8) % stackBytes := by
  rw [patrol_clean hon hd hh hb, State.stack_setStack_same]

end Sys2Proof.Machine
end

section
/-!
PROOFS. A descriptor that is answered or admitted (R178, R386, R387), as O59 names it.
-/
namespace Sys2Proof.Machine

variable {s u v b : State} {t r block : Nat} {d : Inflight} {hdr : List Byte} {m : Option Dims} {p : Parsed} {j : Job}

/-! ## A NOP (R178) -/

/-- The descriptor that is checked next is answered OK where no byte of it is bad. -/
theorem nopDescriptor_answered (hu : (s.ring t r).unchecked = some d) (h0 : le d.desc 0 1 = 0)
    (hf : s.firmware (coreOf t) = true) (hb : badByte d.seq d.desc = none) :
    { d with st := .decided (cpl stOk 0) } ∈ ((nopDescriptor t r s).ring t r).inflight := by
  rw [nopDescriptor_checked hu h0 hf, hb, decide1, ring_setRing_same]
  exact List.mem_map.2 ⟨d, List.mem_of_find?_eq_some hu, if_pos rfl⟩

/-! ## A job that passes every check (R386, R387) -/

/-- Checks that read everything leave the scheduler as it is. -/
theorem readChecks_sch {rs : List (Nat × Nat)} (h : readChecks block t r d rs s = (true, u)) : u.sch = s.sch := by
  induction rs generalizing s with
  | nil => cases h; rfl
  | cons x rs ih =>
    have reads := readBeats_sch (s.tenBeats t x.1 x.2) s
    rw [readChecks] at h
    split at h
    · cases h
    · split at h
      · next e => rw [e] at reads; exact (ih h).trans reads
      · cases h

theorem countLookup_sch (bs : List Byte) (s : State) : (countLookup bs s).sch = s.sch := by
  simp only [countLookup]
  split
  · split <;> rfl
  · rfl

theorem State.looked_sch (t : Nat) (bs : List Byte) (s : State) : (s.looked t bs).sch = s.sch :=
  (countLookup_sch ..).trans (emitReads_sch ..)

theorem lateChecks_admits (hd : s.domainCheck j.tenant j.desc j.man = none) (ht : s.tileCheck j.tenant j.man = none)
    (hr : readChecks schBlock j.tenant j.ring { seq := j.seq, desc := j.desc, st := .fetched } j.man.chanReads s = (true, u))
    (ho : u.tooManyOutliers j.tenant j.man = false) (hs : (u.spillRun j.tenant j.man.spill).isSome = true)
    (hb : u.bandwidthExcess j.tenant j.man.bw = 0) : lateChecks j s = admitJob j u := by
  rw [lateChecks_bandwidth hd ht hr ho fun _ => hs, if_neg (not_not.2 hb)]

/-- The job that a descriptor with manifest p asks for, before its tag and its number. -/
def State.checkedJob (s : State) (t r : Nat) (d : Inflight) (m : Option Dims) (p : Parsed) : Job :=
  { newJob t r d p.man with
    srcDims := m.elim (0, 0, 0) (fun m => (m.w, m.h, m.planes))
    srcHit := decide (0 < dKind d.desc) && (s.hit d.desc).isSome }

theorem manifestChecks_legal (hm : s.readManifest t (dManifest d.desc) = some p)
    (hr : readChecks schBlock t r d p.reads s = (true, u)) (hb : p.bad = false) (ho : outputCheck d.desc p.man = none) :
    manifestChecks t r d m s = spanCheck (u.checkedJob t r d m p) u := by
  simp only [manifestChecks, hm, hr, hb, ho]
  rfl

theorem spanCheck_alone (h : j.man.spans = false) : spanCheck j s = lateChecks j s := if_pos (by simp [h])

theorem checkJob_admits (h : s.Passes t r d hdr m p b v) :
    checkJob t r d hdr s = admitJob (b.checkedJob t r d m p) v := by
  rw [checkJob_passed h.fields h.tags h.source h.aux, manifestChecks_legal h.manifest h.read h.legal h.output,
    spanCheck_alone (j := b.checkedJob t r d m p) h.alone]
  exact lateChecks_admits (j := b.checkedJob t r d m p) h.domains h.tiles h.channels h.outliers h.spill h.bandwidth

/-- A descriptor that passes every check adds one job, with the next number. -/
theorem checkJob_jobs (h : s.Passes t r d hdr m p b v) :
    (checkJob t r d hdr s).sch.jobs.length = s.sch.jobs.length + 1 ∧
      (checkJob t r d hdr s).sch.nextJob = s.sch.nextJob + 1 := by
  have same : v.sch = s.sch :=
    (readChecks_sch h.channels).trans ((readChecks_sch h.read).trans (State.looked_sch t d.desc s))
  rw [checkJob_admits h, ← same]
  exact admitJob_jobs ..

end Sys2Proof.Machine
end

section
/-!
PROOFS. A job that is placed, passed over, spilled, restored or decided, and its tile-µs (R392 to R398, R407 to R411), as
O59 names it.
-/
namespace Sys2Proof.Machine

variable {s u : State} {id o k : Nat} {j : Job}

/-! ## Placement (R392, R397) -/

/-- A job that starts runs from its origin. -/
theorem startJob_runs (hj : s.job? id = some j) (hc : s.claimedAny j.tenant j.programs = false)
    (hr : readRegions schBlock id j.tenant j.programs (powerQuadrants (rect o j.man.width j.man.height) s) = (true, u)) :
    ((startJob id o s).job? id).any (fun x => x.phase == .running && x.origin == o) = true := by
  have read := readRegions_queuesAs schBlock id j.tenant j.programs (powerQuadrants (rect o j.man.width j.man.height) s)
  rw [hr] at read
  have stays := (State.QueuesAs.of_sch_eq (powerQuadrants_sch (rect o j.man.width j.man.height) s)).trans read
  have free : ¬ s.claimedAny j.tenant j.programs = true := by simp [hc]
  simp only [startJob, hj, if_neg free, hr]
  refine (stays.trans (.of_sch_eq ?_)).modJob_any hj (fun _ => rfl) fun _ => by simp
  exact (forEach_sch fun o s => State.setTile_sch ..).trans (takeTag_sch ..)

/-! ## The slice (R407, R408) -/

theorem State.sliceClaim_job (h : s.sliceClaim j = some (id, o)) : ∃ x, s.job? id = some x := by
  obtain ⟨n, -, claims⟩ := List.exists_of_findSome?_eq_some h
  split at claims
  · cases claims
  · next x hx =>
    split at claims
    · split at claims
      · split at claims
        · cases claims; exact ⟨x, hx⟩
        · cases claims
      · cases claims
    · cases claims

/-- The rectangle of the victims is kept for the job that claims it. -/
theorem chooseVictims_kept (hj : s.job? id = some j) :
    ((chooseVictims id o s).job? id).any (·.kept == some o) = true := by
  have victims (v : Nat) (s : State) :
      s.QueuesAs (s.modJob v (fun k => { k with phase := .preempting, keptFor := some id })) :=
    .of_modJob v s fun x => .of_unqueued rfl rfl
  simp only [chooseVictims, hj]
  exact (State.QueuesAs.of_forEach victims s).modJob_any hj (fun _ => rfl) fun _ => by simp

/-! ## Spill and restore (R409, R411) -/

theorem spillTile_sch (j : Job) (o : Nat) (s : State) : (spillTile j o s).sch = s.sch := by
  simp only [spillTile, forEach_sch fun _ u => State.writeTen_sch u .., State.writeTen_sch]

theorem spillComplete_spilled (hj : s.job? id = some j) (hp : j.phase = .spilling)
    (hc : s.claimedIn j.tenant (s.spillAddr j.tenant j.spillFirst) (72 * j.spillLines) = false)
    (hw : ∀ i ∈ j.tiles, (s.tile i).spillParity j.man.decls = none) :
    ((spillComplete id s).job? id).any (·.phase == .spilled) = true := by
  rw [spillComplete_clean hj hp hc hw]
  have spilled : s.QueuesAs (forEach (List.range j.count) (spillTile j) s) :=
    .of_sch_eq (forEach_sch (spillTile_sch j))
  refine ((spilled.trans (chargeJob_queuesAs id _)).trans (.of_sch_eq ?_)).modJob_any hj (fun _ => rfl) fun _ => rfl
  exact forEach_sch fun i s => State.setTile_sch ..

theorem restoreJob_runs (hj : s.job? id = some j) (hp : j.phase = .spilled) (hk : j.kept = some j.origin)
    (hf : j.tiles.all (s.tileFree id) = true) (hs : s.placing j.tenant = true)
    (hc : s.claimedAny j.tenant (j.programs ++ s.slotRegions j) = false)
    (hr : readRegions schBlock id j.tenant (j.programs ++ s.slotRegions j) (powerQuadrants j.tiles s) = (true, u)) :
    ((restoreJob id s).job? id).any (·.phase == .running) = true := by
  have read := readRegions_queuesAs schBlock id j.tenant (j.programs ++ s.slotRegions j) (powerQuadrants j.tiles s)
  rw [hr] at read
  have stays := (State.QueuesAs.of_sch_eq (powerQuadrants_sch j.tiles s)).trans read
  rw [restoreJob_places hj hp hk hf hs hc hr]
  refine (stays.trans (.of_sch_eq ?_)).modJob_any hj (fun _ => rfl) fun _ => rfl
  exact forEach_sch fun i s => State.setTile_sch ..

/-! ## The output stage and tile-µs (R394, R395) -/

theorem writeOutput_sch (j : Job) (off : Nat) (bs : List Byte) (s : State) : (writeOutput j off bs s).sch = s.sch :=
  forEach_sch fun _ _ => rfl

theorem outputCopy_done {c h : Fmt} (hj : s.job? id = some j) (hp : j.phase = .output) (hs : j.man.outStage = 1)
    (hd : j.stageDue = true) (hl : s.linkOk j.tenant = true)
    (hc : s.claimedIn j.tenant j.man.outRegion j.man.outBytes = false)
    (hr : readRegions schBlock id j.tenant [(j.man.outRegion, j.man.outBytes)] s = (true, u))
    (hcard : Fmt.ofCode j.man.outCardFmt = some c) (hhost : Fmt.ofCode (dOutFmt j.desc) = some h) :
    ((outputCopy id s).job? id).any (fun x => !x.stageDue) = true := by
  have read := readRegions_queuesAs schBlock id j.tenant [(j.man.outRegion, j.man.outBytes)] s
  rw [hr] at read
  rw [outputCopy_due hj hp hs hd hl hc hr hcard hhost]
  exact (read.trans (.of_sch_eq (writeOutput_sch ..))).modJob_any hj (fun _ => rfl) fun _ => rfl

theorem chargeJob_used (hj : s.job? id = some j) : ((chargeJob id s).schTen j.tenant).used =
    (s.schTen j.tenant).used + BitVec.ofNat 64 (j.tileUs - j.charged) := by
  simp only [chargeJob, hj]
  exact congrArg SchTen.used (State.schTen_setSchTen_same ..)

theorem chargeJobs_used (h : s.sch.jobs = [j]) :
    ((forEach (s.sch.jobs.map (·.id)) chargeJob s).schTen j.tenant).used =
      (s.schTen j.tenant).used + BitVec.ofNat 64 (j.tileUs - j.charged) := by
  have one : s.job? j.id = some j := by rw [State.job?, h]; simp
  rw [h]
  exact chargeJob_used one

end Sys2Proof.Machine
end

section
/-!
PROOFS. The settling of O59.
-/
namespace Sys2Proof.Machine

/-- Settles O59: the completions, the Gong and the pins; Carillon; the grid and device memory; descriptors and jobs. -/
theorem eventGridAndJobCommandsComplete : Obligations.EventGridAndJobCommandsComplete := by
  refine ⟨⟨?completion, ?marker, ?grant, ?next, ?hold, ?glitch, ?event, ?latch, ?replay⟩,
    ⟨?srcWrite, ?commit, ?claim, ?done, ?swset, ?lost, ?stamp, ?holdoff, ?coalesce, ?coal, ?unblock, ?pme, ?l1⟩,
    ⟨?choke, ?choked, ?watchdog, ?qrate, ?pace, ?fenceStat, ?patrol, ?fence, ?ce, ?ue, ?cool⟩,
    ?nop, ?job, ?fenced, ?place, ?starve, ?slice, ?spillStart, ?spilled, ?restore, ?bar, ?output, ?complete, ?used,
    ?usedRead⟩
  case completion => exact fun _ _ _ _ _ _ hi hst hd hl hf hs hh hq hg =>
    completionWrite_completes hi hst hd (mayComplete_of hl hf hs hh) hq hg
  case marker =>
    intro t r s he hd hi hh hs hm hq hg
    have ready : s.markerReady t r = true := by simp [State.markerReady, he, hd, hi, hh, hs, hm]
    exact epochMarker_completes ready hq hg
  case grant => exact fun n s hm h => ⟨gongGrant (.source n) s, rfl, gongGrant_source hm h⟩
  case next => exact fun _ _ h => ⟨_, exec_gngNextRead_go h, rfl⟩
  case hold => exact fun _ _ h => ⟨_, exec_gngHoldRead_go h, rfl⟩
  case glitch => exact fun k b held s hc hd hf =>
    ⟨glitchFilterOutput k b held s, rfl, glitchFilterOutput_level k.isLt hf hc hd⟩
  case event => exact fun n s hm hr hp hq hg => ⟨sourceEvent n false s, rfl, sourceEvent_stamp hm hr hp hq hg⟩
  case latch => exact fun k _ _ ha hc hl hs hp =>
    ⟨_, congrArg Host.Outcome.next (pinLatchCatch_first ha hc hl hs hp), bit_setBit_same _ _ k.isLt⟩
  case replay => exact fun s hc hm => ⟨pinLatchReplay s, rfl, pinLatchReplay_latches hc hm⟩
  case srcWrite =>
    intro q n v s h ha hp ht hv hs
    refine ⟨_, (exec_carSrcWrite_go h).trans (congrArg Host.Outcome.next (srcWrite_same_route ha hp ht hv hs)), ?_⟩
    rw [State.src_setSrc_same]
    exact ⟨rfl, rfl⟩
  case commit => exact fun _ _ hm hr ht hs =>
    ⟨_, congrArg Host.Outcome.next (sourceCommit_selected hm hr ht hs), congrArg Src.presented (State.src_setSrc_same ..)⟩
  case claim => exact fun c n s h hp hh =>
    ⟨_, exec_carClaim_go h ((claimRead_own (ownCore_self c)).trans (claim_presented hp hh)), rfl,
      State.mem_claimed_afterClaim c n s⟩
  case done => exact fun c v s h hc => ⟨done (.core c) c v s, exec_carDone_go h, done_claimed_none (ownCore_self c) hc⟩
  case swset =>
    intro q w j s h
    exact ⟨_, (exec_carSwset_go h).trans (congrArg Host.Outcome.next (swset_one w j s)), raise_src_stamp ..⟩
  case lost =>
    intro q n v s h hv
    refine ⟨_, (exec_carLostClear_go h).trans (congrArg Host.Outcome.next (lostClear_one hv)), ?_⟩
    rw [State.src_setSrc_same]
    exact ⟨rfl, rfl⟩
  case stamp => exact fun _ _ _ h => ⟨_, exec_carStampRead_go h, congrArg Src.stampHi (State.src_setSrc_same ..)⟩
  case holdoff => exact fun g _ => ⟨_, rfl, bit_setBit_same _ _ g.isLt⟩
  case coalesce => exact fun t r s h => ⟨coalesceTimer t r s, rfl, coalesceTimer_covers h⟩
  case coal =>
    intro q t r v timeMet s h hu
    refine ⟨_, (exec_coalWrite_go h).trans (congrArg Host.Outcome.next (coalWrite_covered timeMet hu)), ?_⟩
    rw [ring_setRing_same]
    exact ⟨rfl, rfl⟩
  case unblock => exact fun t e s hx hp hb hd h1 => ⟨msixUnblock t e s, rfl, msixUnblock_sent e.isLt hx hp hb hd h1⟩
  case pme => exact fun _ _ _ hl hf hn =>
    ⟨_, congrArg Host.Outcome.next ((pmeConfig_up hl hf).trans (latchWake_none hn)), rfl⟩
  case l1 => exact fun _ h => ⟨_, congrArg Host.Outcome.next (l1Exit_l1 h), sendHeld_l1 _⟩
  case choke => exact fun _ _ _ h hb hp =>
    ⟨_, (exec_grdChokeWrite_go h).trans (congrArg Host.Outcome.next (chokeWrite_idle hb)), chokePort_busy hp⟩
  case choked => exact fun _ => ⟨_, rfl, rfl⟩
  case watchdog => exact fun i s hr hj hw => ⟨watchdogExpire i s, rfl, watchdogExpire_stops hr hj hw⟩
  case qrate => exact fun d s h =>
    ⟨_, exec_qrateUpdate_on h, congrArg QRate.tiles (qrateUpdate_qrate d s)⟩
  case pace => exact fun _ _ _ h hd => ⟨_, exec_paceRead_go h (paceLo_on hd),
    congrArg Tile.paceHi (State.tile_setTile_same ..)⟩
  case fenceStat => exact fun _ _ h => ⟨_, exec_fenceStatRead_go h, rfl⟩
  case patrol => exact fun k s hon hd hh => ⟨patrol k none s, rfl, patrol_moves hon hd hh⟩
  case fence => exact fun _ k _ s h hk hv =>
    ⟨_, (exec_memFenceCmd_go h).trans (congrArg Host.Outcome.next (fenceCmd_one hk hv)), fence_fenced k causeCommand s⟩
  case ce => exact fun _ _ _ h => ⟨_, exec_memCeRead_go h, congrArg Stack.ce (State.stack_setStack_same ..)⟩
  case ue => exact fun _ _ _ h => ⟨_, exec_memUeRead_go h, congrArg Stack.ue (State.stack_setStack_same ..)⟩
  case cool => exact fun k s hh hc => ⟨stackCool k s, rfl, stackCool_cold hh hc⟩
  case nop => exact fun t r d s hu h0 hf hb =>
    ⟨nopDescriptor t r s, rfl, _, nopDescriptor_answered hu h0 hf hb, rfl, rfl⟩
  case job => exact fun _ _ _ _ _ _ _ _ _ hu h0 hn hb hc hw passes =>
    ⟨_, congrArg Host.Outcome.next (jobDescriptor_checked hu h0 hn hb hc hw), checkJob_jobs passes⟩
  case fenced => exact fun _ _ _ _ _ _ _ _ _ _ hi hd h0 hf hc hw passes =>
    ⟨_, congrArg Host.Outcome.next (fencedDescriptor_checked hi hd h0 hf hc hw), checkJob_jobs passes⟩
  case place => exact fun _ _ _ _ _ ho hj hq hp hb hk hw hf hc hr =>
    ⟨_, congrArg Host.Outcome.next (placeAll_starts ho hj hq hp hb hk hw hf), startJob_runs hj hc hr⟩
  case starve => exact fun _ _ _ s hj hq hp hn => ⟨_, congrArg Host.Outcome.next (starveTimeout_due hj hq hp hn),
    (State.QueuesAs.refl s).modJob_any hj (fun _ => rfl) fun _ => rfl⟩
  case slice =>
    intro k id o j s hj hc
    obtain ⟨x, hx⟩ := State.sliceClaim_job hc
    exact ⟨_, congrArg Host.Outcome.next (sliceExpire_claims hj hc), chooseVictims_kept hx⟩
  case spillStart => exact fun _ _ s hj hp hq hb => ⟨_, congrArg Host.Outcome.next (spillStart_quiet hj hp hq hb),
    (State.QueuesAs.refl s).modJob_any hj (fun _ => rfl) fun _ => rfl⟩
  case spilled => exact fun id _ s hj hp hc hw => ⟨spillComplete id s, rfl, spillComplete_spilled hj hp hc hw⟩
  case restore => exact fun id _ _ s hj hp hk hf hs hc hr => ⟨restoreJob id s, rfl, restoreJob_runs hj hp hk hf hs hc hr⟩
  case bar => exact fun _ _ _ _ ht hr hb hj =>
    ⟨_, congrArg Host.Outcome.next (barTimeout_due ht hr hb), fireJob_result hj _⟩
  case output => exact fun id _ _ _ _ s hj hp hs hd hl hc hr hcard hhost =>
    ⟨outputCopy id s, rfl, outputCopy_done hj hp hs hd hl hc hr hcard hhost⟩
  case complete => exact fun _ _ _ hj hp hd hn =>
    ⟨_, congrArg Host.Outcome.next (jobComplete_due hj hp hd hn), finishJob_result hj ..⟩
  case used => exact fun _ _ on hj => ⟨_, congrArg Host.Outcome.next (if_pos on), chargeJobs_used hj⟩
  case usedRead => exact fun _ _ _ h => ⟨_, exec_usedRead_go h, congrArg SchTen.usedHi (State.schTen_setSchTen_same ..)⟩

end Sys2Proof.Machine
end
